-- ==== Sys2Proof/Word.lean ====
section
/-! DEFINITION. The word types of the DV-880 (R10, R213) and sparse tables keyed by a number. -/

namespace Sys2Proof

/-- A scalar register, a state register, a memory word of 64 bits (R213). -/
abbrev Word := BitVec 64

/-- One byte. -/
abbrev Byte := BitVec 8

/-- A vector register or stream element, 2,048 bits (R213, R229). -/
abbrev Vec := BitVec 2048

/-- A predicate register, 256 bits (R213). -/
abbrev Pred := BitVec 256

/-- A table from numbers to values in ascending key order; a key that is not listed has the default its reader names. -/
abbrev Tbl (α : Type) := List (Nat × α)

/-- The value at key `k`, `d` where the key is not listed. -/
def Tbl.get {α : Type} (d : α) : Tbl α → Nat → α
  | [], _ => d
  | (k', v) :: t, k => if k' = k then v else Tbl.get d t k

/-- Lists `v` at key `k`, in ascending key order. -/
def Tbl.put {α : Type} : Tbl α → Nat → α → Tbl α
  | [], k, v => [(k, v)]
  | (k', v') :: t, k, v =>
    if k < k' then (k, v) :: (k', v') :: t
    else if k' = k then (k, v) :: t
    else (k', v') :: Tbl.put t k v

/-- Unlists key `k`. -/
def Tbl.del {α : Type} : Tbl α → Nat → Tbl α
  | [], _ => []
  | (k', v') :: t, k => if k' = k then t else (k', v') :: Tbl.del t k

/-- Whether key `k` is listed. -/
def Tbl.has {α : Type} : Tbl α → Nat → Bool
  | [], _ => false
  | (k', _) :: t, k => k' == k || Tbl.has t k

/-- A set of numbers in ascending order. -/
abbrev NatSet := List Nat

/-- Adds `k`. -/
def NatSet.insert : NatSet → Nat → NatSet
  | [], k => [k]
  | a :: t, k => if k < a then k :: a :: t else if a = k then a :: t else a :: NatSet.insert t k

/-- Removes `k`. -/
def NatSet.erase : NatSet → Nat → NatSet
  | [], _ => []
  | a :: t, k => if a = k then t else a :: NatSet.erase t k

/-- Whether `k` is in the set. -/
def NatSet.mem : NatSet → Nat → Bool
  | [], _ => false
  | a :: t, k => a == k || NatSet.mem t k

end Sys2Proof
end

