-- ==== Sys2Proof/Syntax.lean ====
section
/-! DEFINITION. The instructions and events of the DV-880: one constructor per row of the opcode table. -/

namespace Sys2Proof

/-- Second word VW (R52): third source, rounding, saturation. -/
structure VW where
  vc : Nat
  rm : Nat
  sat : Nat
deriving DecidableEq, Repr

/-- Memory second word MW (R51): qualifier and high offset bits. -/
structure MW where
  qual : Nat
  offh : Nat
deriving DecidableEq, Repr

/-- Conversion word CW (R53): types, rounding, saturation, flush to zero. -/
structure CW where
  ts : Nat
  td : Nat
  rm : Nat
  sat : Nat
  ftz : Nat
deriving DecidableEq, Repr

/-- String word of VBCMP and VBFIND (R275). -/
structure SW where
  segl : Nat
  zt : Nat
  tb : Nat
  nlen : Nat
deriving DecidableEq, Repr

/-- Second word of ROWPRED (R200). -/
structure RowW where
  cond : Nat
  t : Nat
  seg : Nat
  bs : Nat
deriving DecidableEq, Repr

/-- Second word of RCPDEF with SL = 2 (R219). -/
structure RcpW where
  xop : Nat
  ts : Nat
  td : Nat
  rm : Nat
  sat : Nat
  ftz : Nat
deriving DecidableEq, Repr

/-- Second word of TTW and TTR (R310). -/
structure TileW where
  wc : Nat
  part : Nat
  xs : Nat
  idx : Nat
  xi : Nat
deriving DecidableEq, Repr

/-- Second word of MMA and MMAP (R293). -/
structure MmaW where
  ta : Nat
  tb : Nat
  kg : Nat
  mm1 : Nat
  acc : Nat
  av : Nat
  gid : Nat
deriving DecidableEq, Repr

/-- Fields of a command header (R54) but its kind and operation. -/
structure CHdr where
  set : Nat
  dly : Nat
  cmode : Nat
  cc : Nat
deriving DecidableEq, Repr

/-- A place in an engine queue: kind (R54), unit (physical core, cluster or die by kind), position in the queue. -/
structure QRef where
  kind : Nat
  unit : Nat
  pos : Nat
deriving DecidableEq, Repr

/-- A fabric message (R419, R421): kind, dies, packages, tag, poison marks, address, payload words, and whether it was refused once and
circles again (R422). -/
structure Msg where
  kind : Nat
  sdie : Nat
  ddie : Nat
  spkg : Nat
  dpkg : Nat
  tag : Nat
  pois : Nat
  addr : Nat
  words : List Nat
  rc : Bool := false
deriving DecidableEq, Repr

/-- An Elwiset message (R451) from member `src`. -/
structure ElwMsg where
  op : Nat
  src : Nat
  busy : Bool
  egid : Nat
  mhz : Nat
  seq : Nat
  tick : Nat
  subj : Nat
  n : Nat
  gtime : Nat
deriving DecidableEq, Repr

/-- What start-up finds (R470, R471): signatures, self-test and training are outcomes of the parts themselves. -/
structure StartFind where
  fwSigOk : Bool
  cfgSigOk : Bool
  failedCores : List Nat
  failedGathers : List Nat
  fatalUnit : Bool
  trainOk : Bool
  idOk : Bool
deriving DecidableEq, Repr

/-- A place that an error marks (R488, R490): a granule of global, scratchpad or accumulator memory, or a register of a context. -/
inductive ErrPlace where
  | glob | sp | acc | vreg | xreg | preg
deriving DecidableEq, Repr

/-- What a check finds (R488): the structure code, and of a mismatch of duplicate issue the context, four to a core, and the address of the bundle that
was issued twice (R487, R490). -/
structure ErrCode where
  code : Nat
  ctx : Nat := 0
  pc : Nat := 0
deriving DecidableEq, Repr

/-- Who writes a register (R466): the firmware of a die, at an offset of its control space, or the host, at an address of BAR0. -/
inductive RegPort where
  | fw (d : Nat)
  | host
deriving DecidableEq, Repr

/-- A request of the host or the baseboard: its instance, its payload, and whether it comes through the firmware mailbox and not through
Worulmon (R472, R474). -/
structure Req where
  bytes : List Nat := []
  inst : Nat := 0
  mailbox : Bool := false
deriving DecidableEq, Repr

/-- What the sensors of the module read when a request asks for it (R475). -/
structure Sensors where
  temps : List Int
  power : Nat
  millivolt : Nat
  current : Nat
  inlet : Int
  req : Req := {}
deriving DecidableEq, Repr

/-- One constructor per row of the opcode table. Register fields and immediates are the numbers the encoding holds. -/
inductive Instr where
  -- the bundle shell (R32)
  | nop (bh ck ic ilv : Nat)
  -- scalar arithmetic (R249 to R262)
  | add (d a b : Nat) | sub (d a b : Nat) | mul (d a b : Nat) | mulh (d a b : Nat)
  | div (d a b : Nat) | divn (d a b : Nat) | rem (d a b : Nat) | remn (d a b : Nat)
  | and (d a b : Nat) | or (d a b : Nat) | xor (d a b : Nat)
  | shl (d a b : Nat) | shrl (d a b : Nat) | shra (d a b : Nat)
  | min (d a b : Nat) | max (d a b : Nat) | minn (d a b : Nat) | maxn (d a b : Nat)
  | cmp (d a b c : Nat) | sel (d a b xc : Nat) | clz (d a : Nat) | popc (d a : Nat)
  | bfx (d a pos lm1 sx : Nat) | bfi (d a b pos lm1 : Nat)
  | addi (d a i : Nat) | andi (d a i : Nat) | ori (d a i : Nat) | xori (d a i : Nat)
  | shli (d a n : Nat) | shrli (d a n : Nat) | shrai (d a n : Nat)
  | li (d i : Nat) (w : Option Nat) | lih (d i : Nat)
  | fadd (d a b r : Nat) | fmul (d a b r : Nat) | ffma (d a b xc r : Nat)
  | fcmp (d a b c : Nat) | fcvt (d a : Nat) (w : CW)
  | movs (d n : Nat) | movd (a n : Nat)
  | engctlResume (p c k : Nat) | engctlCancel (p c k : Nat)
  | sete (a k s i : Nat)
  -- scalar memory (R93 to R98, R124 to R126)
  | ldg (z d a i : Nat) (w : Option MW) | stg (z s a i : Nat) (w : Option MW)
  | ldl (z d a i : Nat) (w : Option MW) | stl (z s a i : Nat) (w : Option MW)
  -- control flow (R353 to R366)
  | br (a b c off : Nat) | j (o : Nat) | call (o : Nat) | jr (a : Nat) | callr (d a : Nat) | ret (a : Nat)
  | brt (ca cb cc neg cd off : Nat) | loop (d a lvl src tripi last : Nat) | bsw (a i : Nat) | ifence
  -- barriers, counters, fences (R130 to R135)
  | barinit (s a : Nat) | bararr (d a n : Nat) | barwait (d a p : Nat) | waitcc (c n : Nat) | fenceL | fenceE
  -- groups and tasks (R387 to R392)
  | gbar (d g : Nat) | gleave (g : Nat) | tdec (d a n : Nat) | endt | yield
  -- ticket domains, ticketed updates, atomics (R325 to R335)
  | tkopen (d a b td : Nat) | tkadd (a b xt td : Nat) | tkmin (a b xt td : Nat) | tkmax (a b xt td : Nat)
  | tkskip (d a b td : Nat) | tkdrain (d a td : Nat) | tkstat (d a sel td : Nat) | tkclose (d a f td : Nat)
  | aadd (d a b typ : Nat) | amin (d a b typ : Nat) | amax (d a b typ : Nat) | axchg (d a b typ : Nat)
  | acas (d a b xc typ : Nat)
  -- regions, locks, tokens (R99 to R106, R427 to R430)
  | xferOwned (a b n1 : Nat) | xferShared (a b n1 : Nat) | xferEngine (a b n1 : Nat) | xferComplete (p c : Nat)
  | lock (d a b : Nat) | unlock (d a b : Nat) | tokacq (d a b : Nat) | tokrel (d a b : Nat)
  -- streams (R158 to R164)
  | qbind (n a dir fek add ai : Nat) (depth : Option Nat) | qunbind (n : Nat) | qsync (n : Nat) | qstat (d n : Nat)
  -- system (R408, R409)
  | trap (n : Nat) | rett | brk (n : Nat)
  -- vector arithmetic (R265 to R277)
  | vadd (t d a b p : Nat) (w : Option VW) | vsub (t d a b p : Nat) (w : Option VW)
  | vmul (t d a b p : Nat) (w : Option VW) | vfma (t d a b p : Nat) (w : VW)
  | vmin (t d a b p : Nat) | vmax (t d a b p : Nat)
  | vabs (t d a p : Nat) (w : Option VW) | vneg (t d a p : Nat) (w : Option VW)
  | vcmp (t d a b p cond : Nat) | vred (t d a o p : Nat) | vscan (t d a o p : Nat)
  | vshl (w d a b p : Nat) | vshrI (w d a b p : Nat) | vshrN (w d a b p : Nat)
  | vand (d a b p : Nat) | vor (d a b p : Nat) | vxor (d a b p : Nat) | vnot (d a p : Nat)
  | vsel (w d a b p : Nat) | vmov (w d a p : Nat) | vbcast (w d x p : Nat) | vrot (w d x b p : Nat)
  | vperm (w d a b p : Nat) | vshuf (w d a b p : Nat) | vcompr (w d a b p : Nat) | vexpd (w d a b p : Nat)
  | vbcmp (d a b p : Nat) (w : Option SW) | vbfind (d a b p : Nat) (w : Option SW)
  | vhash (d a b p : Nat) (fin : Option Nat) | vcrc (d a b p : Nat) (nb : Option Nat)
  -- vector memory (R278 to R280, R333, R335)
  | vld (d a k p : Nat) (w : Option MW) | vst (s a k p : Nat) (w : Option MW)
  | vlda (d a k p : Nat) (w : Option MW) | vsta (s a k p : Nat) (w : Option MW) | vstaAdd (s a k p : Nat) (w : Option MW)
  | vtkadd (s a k p xt td : Nat) | vtkmin (s a k p xt td : Nat) | vtkmax (s a k p xt td : Nat)
  | vaadd (s a k p vr ret uns : Nat) | vamin (s a k p vr ret uns : Nat)
  | vamax (s a k p vr ret uns : Nat) | vaxchg (s a k p vr ret uns : Nat)
  -- X class (R281 to R289, R198 to R203, R219 to R224, R310)
  | vexp2 (t d a p : Nat) | vlog2 (t d a p : Nat) | vrcp (t d a p : Nat) | vrsq (t d a p : Nat)
  | vtanh (t d a p : Nat) | vsigm (t d a p : Nat) | vcvt (d a pv pq : Nat) (w : CW) | vrng (d m p : Nat)
  | pand (d a b : Nat) | por (d a b : Nat) | pxor (d a b : Nat) | pnot (d a : Nat) | pcnt (d a w p : Nat)
  | rowpred (d a b p : Nat) (w : RowW)
  | rcwupd (d a b c : Nat) (blk : Option Nat) | rcwadv (d a p : Nat) (blk : Option Nat)
  | rcwld (d a t p : Nat) (blk : Option Nat)
  | rcpdef (d s : Nat) | rcpdefEmbedded (d a : Nat) (w : RcpW) | drop (d : Nat) | rcpclr (d : Nat) | rcpclrAll
  | rcpstat (d a : Nat) | ttw (a : Nat) (w : TileW) | ttr (d : Nat) (w : TileW)
  -- M class (R293 to R306)
  | mma (s b n : Nat) (w : MmaW) | mmap (s b n : Nat) (w : MmaW) | mscl (n a : Nat) | mzero (n : Nat)
  | mtile (n a : Nat) | mtileImm (n w : Nat)
  -- C class (R145, R178, R186, R205, R432, R436)
  | copy (h : CHdr) | gath (h : CHdr) | exsave (h : CHdr) | trunc (h : CHdr) | sieve (h : CHdr) | resto (h : CHdr)
  | fillGap (h : CHdr) | fillSeal (h : CHdr) | fillRequant (h : CHdr) | fillUnseal (h : CHdr) | coll (h : CHdr)
  | noteSend (h : CHdr) | noteRegister (h : CHdr) | noteDeregister (h : CHdr) | notePurge (h : CHdr)
  -- events of a core: physical core p, context c
  | implicitCheckpoint (p c : Nat)
  | commandStart (q : QRef) | engineCompletion (q : QRef) | engineFault (q : QRef)
  | loadDataArrive (p c n : Nat) | lateData (p c n : Nat) | feWaitSatisfy (p c n : Nat) | streamFetch (p c q : Nat)
  | recipeReplay (p c r : Nat) | matrixResultWrite (p n : Nat) | pairTimeout (p c : Nat)
  | flowstoneDemand (d : Nat) | ticketPartArrive (n : Nat) | ticketPartRetry (n : Nat) | ticketGap (l td : Nat)
  | asyncTrap (p c : Nat) | selectorPromotion (p c : Nat) | waitYield (p c : Nat) | taskDispatch (p c : Nat)
  | launchComplete (d n : Nat) | preempt (p c : Nat) | taskTerminate (p c : Nat)
  | memoryError (code : ErrCode) (space : ErrPlace) (unit addr : Nat) (correctable : Bool)
  | thermalSample (d : Nat) (temps : List Int) (forecast : Int) | blackboxMirror (d : Nat)
  -- Elwiset (R441 to R453)
  | ceilingChangeApply (d : Nat) | hbSend (d : Nat) | silenceTest (d : Nat) | evictTimeout (d : Nat)
  | raiseDeadline (d : Nat) | joinDeadline (d : Nat)
  | hb (d : Nat) (m : ElwMsg) | lower (d : Nat) (m : ElwMsg) | raise (d : Nat) (m : ElwMsg) | ack (d : Nat) (m : ElwMsg)
  | commit (d : Nat) (m : ElwMsg) | cancel (d : Nat) (m : ElwMsg) | join (d : Nat) (m : ElwMsg)
  | joinack (d : Nat) (m : ElwMsg) | joinabort (d : Nat) (m : ElwMsg) | leave (d : Nat) (m : ElwMsg)
  | evict (d : Nat) (m : ElwMsg) | elwBadOp (d : Nat) (m : ElwMsg)
  -- fabric messages (R421 to R440)
  | rdreq (m : Msg) | rdrsp (m : Msg) | wrreq (m : Msg) | wrack (m : Msg) | tkpart (m : Msg) | tkack (m : Msg)
  | aareq (m : Msg) | aarsp (m : Msg) | nack (m : Msg) | tkconf (m : Msg) | notice (m : Msg) | noteack (m : Msg)
  | tokreq (m : Msg) | tokgrant (m : Msg) | tokrecall (m : Msg) | tokreturn (m : Msg) | collrdy (m : Msg)
  | flitCrcRetry (d hop : Nat) | hopDown (d hop : Nat) | flitUnknownKind (m : Msg)
  -- command lists (R367 to R375): die d, slot n
  | launch (d n : Nat) | launchi (d n : Nat) | waitc (d n : Nat) | waitcObserved (d n : Nat)
  | signalAdd (d n : Nat) | signalSet (d n : Nat) | signalTdec (d n : Nat) | skipif (d n : Nat)
  | listJump (d n : Nat) | listCall (d n : Nat) | listRet (d n : Nat) | listLoop (d n : Nat) | listXfer (d n : Nat)
  | listFlush (d n : Nat) | listFence (d n : Nat) | submitGo (d n : Nat)
  -- firmware registers (R76, R84, R337, R452, R469, R480)
  | nmcfgWrite (d v : Nat) | carveoutComplete (d : Nat)
  | xlinvAll (d : Nat) | xlinvAsid (d asid : Nat) | xlinvPage (d asid va : Nat) | xlinvDone (d : Nat) | xlresume (d n : Nat)
  | accsvSave (p td : Nat) | domainSaveDone (p : Nat) | accsvRestore (p td : Nat)
  | elwctlJoin (d : Nat) | elwctlLeave (d : Nat) | elwctlCap (d mhz : Nat) | elwevtPop (d : Nat) | hevtPop (d : Nat)
  | dbgStop (p c : Nat) | dbgUnstop (p c : Nat) | dbgdataRead (d : Nat) | rbaseWrite (d r v : Nat)
  | registerWrite (d : RegPort) (off v : Nat)
  -- host, baseboard, power (R464 to R479)
  | resetRelease (f : StartFind) | warmReset (f : StartFind)
  | hdmWrite (h : Nat) (bytes : List Nat) | hdmRead (h n : Nat) | configRequest
  | readSensors (r : Sensors) | setPowerCap (payload : Req) | attest (nonce : Req)
  | readIdentity (payload : Req) | worulmonWarmReset (payload : Req) (f : StartFind)
  | setEndpointId (n : Nat) | getEndpointId | getMctpVersionSupport | getMessageTypeSupport
  | getVendorDefinedMessageSupport | mctpOtherType (t : Nat)
  | resumption (task : Nat) | retryAfterCancel (d : Nat) | powerCapReached (d : Nat) | powerRemoved
  | cxlLinkTrained (lanes : Nat) | unknownCommand (msg : List Nat)
deriving DecidableEq, Repr

end Sys2Proof
end

