-- ==== Sys2Proof/Decode.lean ====
section
/-! DEFINITION. Words to instructions (R26 to R59, and the layouts of each instruction's own entry), and back. -/

namespace Sys2Proof

/-- Bits `hi` down to `lo` of `w` (R10). -/
def fld (w hi lo : Nat) : Nat := w / 2 ^ lo % 2 ^ (hi + 1 - lo)

/-- The slot classes (R41). -/
inductive Cls where
  | s | v | x | m | c
deriving DecidableEq, Repr

/-- Whether a format forbids, allows or requires a second word (R39). -/
inductive EForm where
  | forbid | opt | req
deriving DecidableEq, Repr

/-- The class of slot k in the order of R42: S0 S1 V0 V1 X M C0 C1. -/
def slotClass (k : Nat) : Cls :=
  if k < 2 then .s else if k < 4 then .v else if k = 4 then .x else if k = 5 then .m else .c

/-! ### Second-word rules of each opcode; none where the opcode is unassigned (R55 to R59). -/

def formS (op : Nat) : Option EForm :=
  if op ≤ 0x12 then some .forbid
  else if op = 0x13 then some .req
  else if op = 0x14 || op = 0x15 then some .forbid
  else if op = 0x16 || op = 0x17 then some .req
  else if 0x18 ≤ op && op ≤ 0x1E then some .forbid
  else if op = 0x20 then some .opt
  else if op = 0x21 || op = 0x28 || op = 0x29 then some .forbid
  else if op = 0x2A then some .req
  else if op = 0x2B then some .forbid
  else if op = 0x2C then some .req
  else if 0x30 ≤ op && op ≤ 0x32 then some .forbid
  else if 0x40 ≤ op && op ≤ 0x46 then some .opt
  else if 0x48 ≤ op && op ≤ 0x4B then some .opt
  else if 0x50 ≤ op && op ≤ 0x56 then some .opt
  else if 0x58 ≤ op && op ≤ 0x5B then some .opt
  else if op = 0x60 || op = 0x66 || op = 0x67 then some .req
  else if 0x61 ≤ op && op ≤ 0x65 then some .forbid
  else if op = 0x68 || op = 0x69 then some .forbid
  else if 0x70 ≤ op && op ≤ 0x75 then some .forbid
  else if 0x78 ≤ op && op ≤ 0x7C then some .forbid
  else if 0x80 ≤ op && op ≤ 0x84 then some .req
  else if 0x85 ≤ op && op ≤ 0x87 then some .forbid
  else if 0x88 ≤ op && op ≤ 0x8C then some .req
  else if op = 0x90 then some .req
  else if op = 0x91 || op = 0x92 || op = 0x98 || op = 0x99 then some .forbid
  else if op = 0xA0 then some .opt
  else if 0xA1 ≤ op && op ≤ 0xA3 then some .forbid
  else if 0xF0 ≤ op && op ≤ 0xF2 then some .forbid
  else none

def formV (op : Nat) : Option EForm :=
  if op ≤ 0x2F then some .opt
  else if op ≤ 0x3F then some .req
  else if op ≤ 0x5F then some .forbid
  else if op ≤ 0x6F then some .opt
  else if op ≤ 0x7F then some .req
  else if op ≤ 0x9F then some .forbid
  else if op ≤ 0xCE then
    if op % 4 = 3 && op != 0xAF then none else some .forbid
  else if 0xD0 ≤ op && op ≤ 0xD3 then some .opt
  else if 0xE0 ≤ op && op ≤ 0xE4 then some .opt
  else if 0xF0 ≤ op && op ≤ 0xF2 then some .req
  else if 0xF4 ≤ op && op ≤ 0xF7 then some .req
  else none

def formX (op : Nat) : Option EForm :=
  if op ≤ 0x17 then if op % 4 = 3 then none else some .forbid
  else if op = 0x20 then some .req
  else if op = 0x21 then some .forbid
  else if 0x30 ≤ op && op ≤ 0x34 then some .forbid
  else if op = 0x38 then some .req
  else if 0x39 ≤ op && op ≤ 0x3B then some .opt
  else if op = 0x40 then some .opt
  else if 0x41 ≤ op && op ≤ 0x43 then some .forbid
  else if op = 0x48 || op = 0x49 then some .req
  else none

def formM (op : Nat) : Option EForm :=
  if op = 0x00 || op = 0x01 then some .req
  else if op = 0x08 || op = 0x10 then some .forbid
  else if op = 0x18 then some .opt
  else none

def formC (op : Nat) : Option EForm :=
  if op = 0x00 || op = 0x10 || op = 0x11 || op = 0x12 || op = 0x20 || op = 0x21 || op = 0x30 || op = 0x40 || op = 0x50
  then some .forbid else none

def formOf : Cls → Nat → Option EForm
  | .s, op => formS op
  | .v, op => formV op
  | .x, op => formX op
  | .m, op => formM op
  | .c, op => formC op

/-! ### Legality of field values -/

/-- Width in bits of an element type (R226, R228); 0 for a reserved code. -/
def typeWidth (t : Nat) : Nat :=
  if t = 0 || t = 6 || t = 10 then 32
  else if t = 1 || t = 2 || t = 7 || t = 11 then 16
  else if t = 3 || t = 4 || t = 8 || t = 12 then 8
  else if t = 5 || t = 9 then 4
  else 0

/-- Types of the typed vector rows (R56). -/
def typedOk (t : Nat) : Bool := t ≤ 2 || (6 ≤ t && t ≤ 8) || (10 ≤ t && t ≤ 12)

/-- Float types of R47. -/
def isFloat (t : Nat) : Bool := t ≤ 5

/-- State register numbers that R215 assigns. -/
def srAssigned (n : Nat) : Bool := n ≤ 0x31 || (0x40 ≤ n && n ≤ 0x44)

/-- The condition code is defined: float table to 7, integer VCMP table to 5 (R49). -/
def condOk (t c : Nat) : Bool := if isFloat t then c ≤ 7 else c ≤ 5

/-- VW of a typed row (R265); `fma` where VC has a meaning, `rmOk` where a rounding mode has. -/
def vwOk (t : Nat) (fma rmOk : Bool) (w : VW) : Bool :=
  w.vc < 64 && w.sat < 2 && (fma || w.vc == 0) && (if isFloat t && rmOk then w.rm ≤ 3 else w.rm == 0)
    && !(isFloat t && w.sat == 1)

/-- Types and part of VCVT (R284, R285). -/
def cvtPairOk (ts td : Nat) : Bool :=
  ts ≤ 12 && td ≤ 12 && !(ts == 5 && td == 5) && !(ts == 5 && 6 ≤ td) && !(td == 5 && 6 ≤ ts)

def cvtRatio (ts td : Nat) : Nat :=
  Nat.max (typeWidth ts) (typeWidth td) / Nat.min (typeWidth ts) (typeWidth td)

def cvtFieldsOk (d pv pq : Nat) (w : CW) : Bool :=
  cvtPairOk w.ts w.td && w.rm ≤ 4 && w.sat < 2 && w.ftz < 2 &&
  if w.ts == 5 || w.td == 5 then pv ≤ 55 && pq < cvtRatio w.ts w.td && !(w.td == 5 && d == pv)
  else pv < cvtRatio w.ts w.td

/-- Types, group count and shape of MMA and MMAP (R290, R294); `pair` for MMAP. -/
def mmaOk (pair : Bool) (s b n : Nat) (w : MmaW) : Bool :=
  s < 64 && b < 64 && n < 8 && s % 2 == 0 && b % 2 == 0 && w.kg < 16 && w.mm1 < 128 && w.acc < 2 && w.av < 2 &&
  ((w.ta == 3 || w.ta == 4) && (w.tb == 3 || w.tb == 4) || w.ta == w.tb && (w.ta == 1 || w.ta == 2 || w.ta == 5 || w.ta == 8)) &&
  !(w.ta == 5 && 3 < w.kg) &&
  (w.av == 0 || (s ≤ 54 && (w.mm1 + 1) * ((w.kg + 1) * 32 * typeWidth w.ta / 8) ≤ 512)) &&
  (if pair then w.gid < 4 else w.gid == 0)

/-- Second word of TTW and TTR (R310). -/
def tileWOk (w : TileW) : Bool :=
  w.wc ≤ 2 && w.part < 4 / 2 ^ w.wc && w.xs < 2 && w.idx < 64 && w.xi < 64 && (if w.xs = 1 then w.idx == 0 else w.xi == 0)

/-- Second word of ROWPRED (R200). -/
def rowWOk (w : RowW) : Bool :=
  (w.t ≤ 4 || (6 ≤ w.t && w.t ≤ 8) || (10 ≤ w.t && w.t ≤ 12)) && condOk w.t w.cond && w.bs < 2 && w.seg * typeWidth w.t < 32

/-- Embedded operation of RCPDEF (R219, R285). -/
def rcpWOk (w : RcpW) : Bool :=
  (w.xop ≤ 0x16 && w.xop % 4 != 3 && w.ts == 0 && w.td == 0 && w.rm == 0 && w.sat == 0 && w.ftz == 0) ||
  (w.xop == 0x20 && cvtPairOk w.ts w.td && w.ts != 5 && w.td != 5 && w.rm ≤ 3 && w.sat < 2 && w.ftz < 2)

/-- The five forms of QBIND (R158). -/
def qbindOk (dir fek add ai : Nat) : Bool :=
  dir < 2 && fek < 2 && add < 2 && ai < 2 && !(fek == 1 && dir == 1) && !(add == 1 && dir == 0) && !(ai == 1 && add == 0)

/-- A tile word (R291, R304). -/
def tileWordOk (w : Nat) : Bool := w < 2 ^ 29 && fld w 15 13 == 0 && 8 ≤ fld w 28 16

/-- Legal header of a C-class command (R54). -/
def chdrOk (h : CHdr) : Bool :=
  h.set < 2 && h.dly < 64 && h.cmode < 4 && h.cc < 8 && !(h.cmode % 2 == 0 && h.cc != 0)

/-! ### The decoder. The error is a reason code of R44. -/

/-- `i` where `b` holds, reason code 7 otherwise. -/
def ok7 (b : Bool) (i : Instr) : Except Nat Instr := if b then .ok i else .error 7

def mwOf (e : Bool) (w2 : Nat) : Option MW := if e then some ⟨fld w2 29 27, fld w2 26 0⟩ else none

def mwOk (maxQ : Nat) : Option MW → Bool
  | none => true
  | some w => w.qual ≤ maxQ && w.offh < 2 ^ 27

def vwOf (w2 : Nat) : VW := ⟨fld w2 29 24, fld w2 23 21, fld w2 20 20⟩

def optVw (e : Bool) (w2 : Nat) : Option VW := if e then some (vwOf w2) else none

def optVwOk (t : Nat) (rmOk : Bool) (w2 : Nat) : Option VW → Bool
  | none => true
  | some w => vwOk t false rmOk w && fld w2 19 0 == 0

def swOf (w2 : Nat) : SW := ⟨fld w2 29 27, fld w2 26 26, fld w2 25 18, fld w2 17 15⟩

def optSw (e : Bool) (w2 : Nat) : Option SW := if e then some (swOf w2) else none

def cwOf (w2 : Nat) : CW := ⟨fld w2 29 26, fld w2 25 22, fld w2 21 19, fld w2 18 18, fld w2 17 17⟩

/-- The form of three registers and four bits of zeros. -/
def r3 (w : Nat) (g : Nat → Nat → Nat → Instr) : Except Nat Instr :=
  ok7 (fld w 3 0 == 0) (g (fld w 21 16) (fld w 15 10) (fld w 9 4))

/-- S class, opcodes 0x00 to 0x0F. -/
def decodeS0 (_bw w _w2 : Nat) (_e : Bool) : Except Nat Instr :=
  match fld w 29 22 % 16 with
  | 0x0 => r3 w .add
  | 0x1 => r3 w .sub
  | 0x2 => r3 w .mul
  | 0x3 => r3 w .mulh
  | 0x4 => r3 w .div
  | 0x5 => r3 w .divn
  | 0x6 => r3 w .rem
  | 0x7 => r3 w .remn
  | 0x8 => r3 w .and
  | 0x9 => r3 w .or
  | 0xA => r3 w .xor
  | 0xB => r3 w .shl
  | 0xC => r3 w .shrl
  | 0xD => r3 w .shra
  | 0xE => r3 w .min
  | 0xF => r3 w .max
  | _ => .error 6

/-- S class, opcodes 0x10 to 0x1F. -/
def decodeS1 (_bw w w2 : Nat) (_e : Bool) : Except Nat Instr :=
  let d := fld w 21 16
  let a := fld w 15 10
  let b := fld w 9 4
  let f := fld w 3 0
  let i := fld w 9 0
  match fld w 29 22 % 16 with
  | 0x0 => r3 w .minn
  | 0x1 => r3 w .maxn
  | 0x2 => ok7 (f ≤ 9) (.cmp d a b f)
  | 0x3 => ok7 (f == 0 && fld w2 23 0 == 0) (.sel d a b (fld w2 29 24))
  | 0x4 => ok7 (f == 0 && b == 0) (.clz d a)
  | 0x5 => ok7 (f == 0 && b == 0) (.popc d a)
  | 0x6 => ok7 (f == 0 && b == 0 && fld w2 16 0 == 0 && fld w2 29 24 + fld w2 23 18 < 64)
      (.bfx d a (fld w2 29 24) (fld w2 23 18) (fld w2 17 17))
  | 0x7 => ok7 (f == 0 && fld w2 17 0 == 0 && fld w2 29 24 + fld w2 23 18 < 64) (.bfi d a b (fld w2 29 24) (fld w2 23 18))
  | 0x8 => .ok (.addi d a i)
  | 0x9 => .ok (.andi d a i)
  | 0xA => .ok (.ori d a i)
  | 0xB => .ok (.xori d a i)
  | 0xC => ok7 (i < 64) (.shli d a i)
  | 0xD => ok7 (i < 64) (.shrli d a i)
  | 0xE => ok7 (i < 64) (.shrai d a i)
  | _ => .error 6

/-- S class, opcodes 0x20 to 0x2F. -/
def decodeS2 (_bw w w2 : Nat) (e : Bool) : Except Nat Instr :=
  let d := fld w 21 16
  let a := fld w 15 10
  let b := fld w 9 4
  let f := fld w 3 0
  match fld w 29 22 % 16 with
  | 0x0 => .ok (.li d (fld w 15 0) (if e then some (fld w2 29 0) else none))
  | 0x1 => .ok (.lih d (fld w 15 0))
  | 0x8 => ok7 (f ≤ 3) (.fadd d a b f)
  | 0x9 => ok7 (f ≤ 3) (.fmul d a b f)
  | 0xA => ok7 (f == 0 && fld w2 20 0 == 0 && fld w2 23 21 ≤ 3) (.ffma d a b (fld w2 29 24) (fld w2 23 21))
  | 0xB => ok7 (f ≤ 7) (.fcmp d a b f)
  | 0xC =>
    let c := cwOf w2
    ok7 (f == 0 && b == 0 && fld w2 16 0 == 0 && c.ts ≤ 12 && c.td ≤ 12 && c.ts != 5 && c.td != 5 && c.rm ≤ 4) (.fcvt d a c)
  | _ => .error 6

/-- S class, opcodes 0x30 to 0x3F. -/
def decodeS3 (_bw w _w2 : Nat) (_e : Bool) : Except Nat Instr :=
  let d := fld w 21 16
  let a := fld w 15 10
  let i := fld w 9 0
  match fld w 29 22 % 16 with
  | 0x0 => ok7 (a == 0 && srAssigned i) (.movs d i)
  | 0x1 => ok7 (d == 0 && srAssigned i) (.movd a i)
  | 0x2 => ok7 (d == 0 && fld w 9 7 ≤ 5 && fld w 5 0 ≤ 15) (.sete a (fld w 9 7) (fld w 6 6) (fld w 5 0))
  | _ => .error 6

/-- S class, opcodes 0x40 to 0x4F. -/
def decodeS4 (_bw w w2 : Nat) (e : Bool) : Except Nat Instr :=
  let d := fld w 21 16
  let a := fld w 15 10
  let i := fld w 9 0
  match fld w 29 22 % 16 with
  | 0x0 | 0x1 | 0x2 | 0x3 | 0x4 | 0x5 | 0x6 => ok7 (mwOk 0 (mwOf e w2)) (.ldg (fld w 24 22) d a i (mwOf e w2))
  | 0x8 | 0x9 | 0xA | 0xB => ok7 (mwOk 0 (mwOf e w2)) (.stg (fld w 23 22) d a i (mwOf e w2))
  | _ => .error 6

/-- S class, opcodes 0x50 to 0x5F. -/
def decodeS5 (_bw w w2 : Nat) (e : Bool) : Except Nat Instr :=
  let d := fld w 21 16
  let a := fld w 15 10
  let i := fld w 9 0
  match fld w 29 22 % 16 with
  | 0x0 | 0x1 | 0x2 | 0x3 | 0x4 | 0x5 | 0x6 => ok7 (mwOk 3 (mwOf e w2)) (.ldl (fld w 24 22) d a i (mwOf e w2))
  | 0x8 | 0x9 | 0xA | 0xB => ok7 (mwOk 2 (mwOf e w2)) (.stl (fld w 23 22) d a i (mwOf e w2))
  | _ => .error 6

/-- S class, opcodes 0x60 to 0x6F. -/
def decodeS6 (bw w w2 : Nat) (_e : Bool) : Except Nat Instr :=
  let d := fld w 21 16
  let a := fld w 15 10
  let b := fld w 9 4
  let f := fld w 3 0
  let i := fld w 9 0
  match fld w 29 22 % 16 with
  | 0x0 => ok7 (d == 0 && f ≤ 9) (.br a b f (fld w2 29 0))
  | 0x1 => .ok (.j (fld w 21 0))
  | 0x2 => ok7 (d == 0 && b == 0 && f == 0) (.jr a)
  | 0x3 => .ok (.call (fld w 21 0))
  | 0x4 => ok7 (b == 0 && f == 0) (.callr d a)
  | 0x5 => ok7 (d == 0 && b == 0 && f == 0) (.ret a)
  | 0x6 => .ok (.brt d a b f (fld w2 29 24) (fld w2 23 0))
  | 0x7 => ok7 (fld w 9 7 ≤ 5 && fld w 4 0 == 0 && (fld w 6 5 == 1 || a == 0) && (fld w 6 5 == 0 || fld w2 29 14 == 0)
        && bw ≤ fld w2 13 0)
      (.loop d a (fld w 9 7) (fld w 6 5) (fld w2 29 14) (fld w2 13 0))
  | 0x8 => ok7 (d == 0) (.bsw a i)
  | 0x9 => ok7 (fld w 21 0 == 0) .ifence
  | _ => .error 6

/-- S class, opcodes 0x70 to 0x7F. -/
def decodeS7 (_bw w _w2 : Nat) (_e : Bool) : Except Nat Instr :=
  let d := fld w 21 16
  let a := fld w 15 10
  let i := fld w 9 0
  match fld w 29 22 % 16 with
  | 0x0 => ok7 (i == 0) (.barinit d a)
  | 0x1 => .ok (.bararr d a i)
  | 0x2 => ok7 (i ≤ 1) (.barwait d a i)
  | 0x3 => ok7 (d ≤ 7 && a == 0) (.waitcc d i)
  | 0x4 => ok7 (fld w 21 0 == 0) .fenceL
  | 0x5 => ok7 (fld w 21 0 == 0) .fenceE
  | 0x8 => ok7 (a == 0 && i ≤ 3) (.gbar d i)
  | 0x9 => ok7 (d == 0 && a == 0 && i ≤ 3) (.gleave i)
  | 0xA => ok7 (i != 0) (.tdec d a i)
  | 0xB => ok7 (fld w 21 0 == 0) .endt
  | 0xC => ok7 (fld w 21 0 == 0) .yield
  | _ => .error 6

/-- S class, opcodes 0x80 to 0x8F. -/
def decodeS8 (_bw w w2 : Nat) (_e : Bool) : Except Nat Instr :=
  let d := fld w 21 16
  let a := fld w 15 10
  let b := fld w 9 4
  let f := fld w 3 0
  let tk := fld w2 23 18
  match fld w 29 22 % 16 with
  | 0x0 => ok7 (f == 0 && fld w2 29 24 == 0 && fld w2 17 0 == 0) (.tkopen d a b tk)
  | 0x1 => ok7 (f == 0 && d == 0 && fld w2 17 0 == 0) (.tkadd a b (fld w2 29 24) tk)
  | 0x2 => ok7 (f == 0 && d == 0 && fld w2 17 0 == 0) (.tkmin a b (fld w2 29 24) tk)
  | 0x3 => ok7 (f == 0 && d == 0 && fld w2 17 0 == 0) (.tkmax a b (fld w2 29 24) tk)
  | 0x4 => ok7 (f == 0 && fld w2 29 24 == 0 && fld w2 17 0 == 0) (.tkskip d a b tk)
  | 0x5 => ok7 (fld w 9 6 == 0) (.tkdrain d a (fld w 5 0))
  | 0x6 => ok7 (fld w 9 6 ≤ 4) (.tkstat d a (fld w 9 6) (fld w 5 0))
  | 0x7 => ok7 (fld w 9 7 == 0) (.tkclose d a (fld w 6 6) (fld w 5 0))
  | 0x8 => ok7 (f == 0 && fld w2 29 24 == 0 && fld w2 21 0 == 0) (.aadd d a b (fld w2 23 22))
  | 0x9 => ok7 (f == 0 && fld w2 29 24 == 0 && fld w2 21 0 == 0) (.amin d a b (fld w2 23 22))
  | 0xA => ok7 (f == 0 && fld w2 29 24 == 0 && fld w2 21 0 == 0) (.amax d a b (fld w2 23 22))
  | 0xB => ok7 (f == 0 && fld w2 29 24 == 0 && fld w2 21 0 == 0) (.axchg d a b (fld w2 23 22))
  | 0xC => ok7 (f == 0 && fld w2 21 0 == 0) (.acas d a b (fld w2 29 24) (fld w2 23 22))
  | _ => .error 6

/-- S class, opcodes 0x90 to 0x9F. -/
def decodeS9 (_bw w w2 : Nat) (_e : Bool) : Except Nat Instr :=
  let d := fld w 21 16
  let a := fld w 15 10
  let b := fld w 9 4
  let f := fld w 3 0
  match fld w 29 22 % 16 with
  | 0x0 =>
    let n1 := fld w2 26 16
    let i := match fld w2 29 27 with
      | 0 => Instr.xferOwned a b n1
      | 1 => Instr.xferShared a b n1
      | _ => Instr.xferEngine a b n1
    ok7 (d == 0 && f == 0 && fld w2 15 0 == 0 && fld w2 29 27 ≤ 2) i
  | 0x1 => r3 w .lock
  | 0x2 => r3 w .unlock
  | 0x8 => r3 w .tokacq
  | 0x9 => r3 w .tokrel
  | _ => .error 6

/-- S class, opcodes 0xA0 to 0xAF. -/
def decodeSA (_bw w w2 : Nat) (e : Bool) : Except Nat Instr :=
  let d := fld w 21 16
  let a := fld w 15 10
  let i := fld w 9 0
  match fld w 29 22 % 16 with
  | 0x0 => ok7 (d ≤ 7 && a % 4 == 0 && fld w 9 4 == 0 && qbindOk (fld w 0 0) (fld w 1 1) (fld w 2 2) (fld w 3 3)
        && (!e || (1 ≤ fld w2 29 0 && fld w2 29 0 ≤ 8)))
      (.qbind d a (fld w 0 0) (fld w 1 1) (fld w 2 2) (fld w 3 3) (if e then some (fld w2 29 0) else none))
  | 0x1 => ok7 (d ≤ 7 && fld w 15 0 == 0) (.qunbind d)
  | 0x2 => ok7 (d ≤ 7 && fld w 15 0 == 0) (.qsync d)
  | 0x3 => ok7 (a == 0 && i ≤ 7) (.qstat d i)
  | _ => .error 6

/-- S class, opcodes 0xF0 to 0xFF. -/
def decodeSF (_bw w _w2 : Nat) (_e : Bool) : Except Nat Instr :=
  let d := fld w 21 16
  let a := fld w 15 10
  let i := fld w 9 0
  match fld w 29 22 % 16 with
  | 0x0 => ok7 (d == 0 && a == 0) (.trap i)
  | 0x1 => ok7 (fld w 21 0 == 0) .rett
  | 0x2 => ok7 (d == 0 && a == 0) (.brk i)
  | _ => .error 6

/-- S class. `bw` is the number of words of the bundle (R361). -/
def decodeS (bw w w2 : Nat) (e : Bool) : Except Nat Instr :=
  match fld w 29 22 / 16 with
  | 0x0 => decodeS0 bw w w2 e
  | 0x1 => decodeS1 bw w w2 e
  | 0x2 => decodeS2 bw w w2 e
  | 0x3 => decodeS3 bw w w2 e
  | 0x4 => decodeS4 bw w w2 e
  | 0x5 => decodeS5 bw w w2 e
  | 0x6 => decodeS6 bw w w2 e
  | 0x7 => decodeS7 bw w w2 e
  | 0x8 => decodeS8 bw w w2 e
  | 0x9 => decodeS9 bw w w2 e
  | 0xA => decodeSA bw w w2 e
  | 0xF => decodeSF bw w w2 e
  | _ => .error 6

/-- V class. -/
def decodeV (w w2 : Nat) (e : Bool) : Except Nat Instr :=
  let op := fld w 29 22
  let t := fld w 25 22
  let z := fld w 23 22
  let d := fld w 21 16
  let a := fld w 15 10
  let b := fld w 9 4
  let p := fld w 3 0
  let mw := mwOf e w2
  let even := a % 2 == 0
  match op / 16 with
  | 0x0 => ok7 (typedOk t && optVwOk t true w2 (optVw e w2)) (.vadd t d a b p (optVw e w2))
  | 0x1 => ok7 (typedOk t && optVwOk t true w2 (optVw e w2)) (.vsub t d a b p (optVw e w2))
  | 0x2 => ok7 (typedOk t && optVwOk t true w2 (optVw e w2)) (.vmul t d a b p (optVw e w2))
  | 0x3 => ok7 (typedOk t && vwOk t true true (vwOf w2) && fld w2 19 0 == 0) (.vfma t d a b p (vwOf w2))
  | 0x4 => ok7 (typedOk t) (.vmin t d a b p)
  | 0x5 => ok7 (typedOk t) (.vmax t d a b p)
  | 0x6 =>
    let i := if b = 0 then Instr.vabs t d a p (optVw e w2) else Instr.vneg t d a p (optVw e w2)
    ok7 (typedOk t && t < 10 && b ≤ 1 && optVwOk t false w2 (optVw e w2)) i
  | 0x7 => ok7 (typedOk t && d ≤ 15 && fld w2 25 0 == 0 && condOk t (fld w2 29 26)) (.vcmp t d a b p (fld w2 29 26))
  | 0x8 => ok7 (typedOk t && b ≤ 2) (.vred t d a b p)
  | 0x9 => ok7 (typedOk t && b ≤ 2) (.vscan t d a b p)
  | 0xA =>
    match op / 4 % 4 with
    | 0 => .ok (.vshl z d a b p)
    | 1 => .ok (.vshrI z d a b p)
    | 2 => .ok (.vshrN z d a b p)
    | _ =>
      match z with
      | 0 => .ok (.vand d a b p)
      | 1 => .ok (.vor d a b p)
      | 2 => .ok (.vxor d a b p)
      | _ => ok7 (b == 0) (.vnot d a p)
  | 0xB =>
    match op / 4 % 4 with
    | 0 => .ok (.vsel z d a b p)
    | 1 => ok7 (b == 0) (.vmov z d a p)
    | 2 => ok7 (b == 0) (.vbcast z d a p)
    | _ => .ok (.vrot z d a b p)
  | 0xC =>
    match op / 4 % 4 with
    | 0 => .ok (.vperm z d a b p)
    | 1 => ok7 (d ≤ 55) (.vshuf z d a b p)
    | 2 => .ok (.vcompr z d a b p)
    | _ => .ok (.vexpd z d a b p)
  | 0xD =>
    let sw := optSw e w2
    let low := !e || fld w2 14 0 == 0
    match op % 16 with
    | 0 => ok7 (low && (!e || (fld w2 29 27 ≤ 6 && fld w2 17 15 == 0))) (.vbcmp d a b p sw)
    | 1 => ok7 (low && (!e || (fld w2 29 27 ≤ 6 && fld w2 26 18 == 0))) (.vbfind d a b p sw)
    | 2 => ok7 (!e || fld w2 28 0 == 0) (.vhash d a b p (if e then some (fld w2 29 29) else none))
    | 3 => ok7 (!e || (fld w2 27 0 == 0 && fld w2 29 28 ≤ 2)) (.vcrc d a b p (if e then some (fld w2 29 28) else none))
    | _ => .error 6
  | 0xE =>
    match op % 16 with
    | 0 => ok7 (even && mwOk 3 mw) (.vld d a b p mw)
    | 1 => ok7 (even && mwOk 2 mw) (.vst d a b p mw)
    | 2 => ok7 (even && mwOk 3 mw) (.vlda d a b p mw)
    | 3 => ok7 (even && mwOk 2 mw) (.vsta d a b p mw)
    | 4 => ok7 (even && mwOk 0 mw) (.vstaAdd d a b p mw)
    | _ => .error 6
  | _ =>
    let tkok := even && fld w2 17 0 == 0
    let vr := fld w2 29 24
    let ret := fld w2 23 23
    let uns := fld w2 22 22
    let aok := even && fld w2 21 0 == 0 && vr ≤ 55 && (ret == 1 || vr == 0)
    match op % 16 with
    | 0 => ok7 tkok (.vtkadd d a b p vr (fld w2 23 18))
    | 1 => ok7 tkok (.vtkmin d a b p vr (fld w2 23 18))
    | 2 => ok7 tkok (.vtkmax d a b p vr (fld w2 23 18))
    | 4 => ok7 aok (.vaadd d a b p vr ret uns)
    | 5 => ok7 aok (.vamin d a b p vr ret uns)
    | 6 => ok7 aok (.vamax d a b p vr ret uns)
    | 7 => ok7 aok (.vaxchg d a b p vr ret uns)
    | _ => .error 6

/-- The override word of the row unit (R198). -/
def optBlk (e : Bool) (w2 : Nat) : Option Nat := if e then some (fld w2 29 22) else none

/-- X class, opcodes 0x00 to 0x0F. -/
def decodeX0 (w _w2 : Nat) (_e : Bool) : Except Nat Instr :=
  let t := fld w 23 22
  let d := fld w 21 16
  let a := fld w 15 10
  let b := fld w 9 4
  let p := fld w 3 0
  match fld w 29 22 % 16 with
  | 0x0 | 0x1 | 0x2 => ok7 (b == 0) (.vexp2 t d a p)
  | 0x4 | 0x5 | 0x6 => ok7 (b == 0) (.vlog2 t d a p)
  | 0x8 | 0x9 | 0xA => ok7 (b == 0) (.vrcp t d a p)
  | 0xC | 0xD | 0xE => ok7 (b == 0) (.vrsq t d a p)
  | _ => .error 6

/-- X class, opcodes 0x10 to 0x1F. -/
def decodeX1 (w _w2 : Nat) (_e : Bool) : Except Nat Instr :=
  let t := fld w 23 22
  let d := fld w 21 16
  let a := fld w 15 10
  let b := fld w 9 4
  let p := fld w 3 0
  match fld w 29 22 % 16 with
  | 0x0 | 0x1 | 0x2 => ok7 (b == 0) (.vtanh t d a p)
  | 0x4 | 0x5 | 0x6 => ok7 (b == 0) (.vsigm t d a p)
  | _ => .error 6

/-- X class, opcodes 0x20 to 0x2F. -/
def decodeX2 (w w2 : Nat) (_e : Bool) : Except Nat Instr :=
  let d := fld w 21 16
  let a := fld w 15 10
  let b := fld w 9 4
  let p := fld w 3 0
  match fld w 29 22 % 16 with
  | 0x0 => ok7 (fld w2 16 0 == 0 && cvtFieldsOk d b p (cwOf w2)) (.vcvt d a b p (cwOf w2))
  | 0x1 => ok7 (a == 0 && b ≤ 2) (.vrng d b p)
  | _ => .error 6

/-- X class, opcodes 0x30 to 0x3F. -/
def decodeX3 (w w2 : Nat) (e : Bool) : Except Nat Instr :=
  let d := fld w 21 16
  let a := fld w 15 10
  let b := fld w 9 4
  let p := fld w 3 0
  let blkOk := !e || fld w2 21 0 == 0
  match fld w 29 22 % 16 with
  | 0x0 => ok7 (d ≤ 15 && a ≤ 15 && b ≤ 15 && p == 0) (.pand d a b)
  | 0x1 => ok7 (d ≤ 15 && a ≤ 15 && b ≤ 15 && p == 0) (.por d a b)
  | 0x2 => ok7 (d ≤ 15 && a ≤ 15 && b ≤ 15 && p == 0) (.pxor d a b)
  | 0x3 => ok7 (d ≤ 15 && a ≤ 15 && b == 0 && p == 0) (.pnot d a)
  | 0x4 => ok7 (a ≤ 15 && b ≤ 2) (.pcnt d a b p)
  | 0x8 =>
    let r : RowW := ⟨fld w2 29 26, fld w2 25 22, fld w2 21 20, fld w2 19 19⟩
    ok7 (d ≤ 15 && fld w2 18 0 == 0 && rowWOk r) (.rowpred d a b p r)
  | 0x9 => ok7 (b ≤ 15 && blkOk) (.rcwupd d a b p (optBlk e w2))
  | 0xA => ok7 (b == 0 && blkOk) (.rcwadv d a p (optBlk e w2))
  | 0xB => ok7 (d ≤ 15 && b ≤ 3 && blkOk) (.rcwld d a b p (optBlk e w2))
  | _ => .error 6

/-- X class, opcodes 0x40 to 0x4F. -/
def decodeX4 (w w2 : Nat) (e : Bool) : Except Nat Instr :=
  let d := fld w 21 16
  let a := fld w 15 10
  let b := fld w 9 4
  let p := fld w 3 0
  let tw := (⟨fld w2 29 28, fld w2 27 26, fld w2 25 25, fld w2 24 19, fld w2 18 13⟩ : TileW)
  match fld w 29 22 % 16 with
  | 0x0 =>
    if b = 2 then
      let r : RcpW := ⟨fld w2 29 22, fld w2 21 18, fld w2 17 14, fld w2 13 11, fld w2 10 10, fld w2 9 9⟩
      if e then ok7 (d ≤ 55 && a ≤ 55 && p == 0 && fld w2 8 0 == 0 && rcpWOk r) (.rcpdefEmbedded d a r) else .error 5
    else if e then .error 5
    else ok7 (d ≤ 55 && a == 0 && b ≤ 1 && p == 0) (.rcpdef d b)
  | 0x1 => ok7 (d ≤ 55 && fld w 15 0 == 0) (.drop d)
  | 0x2 =>
    let i := if b = 0 then Instr.rcpclr d else Instr.rcpclrAll
    ok7 (a == 0 && p == 0 && b ≤ 1 && (if b = 0 then d ≤ 55 else d == 0)) i
  | 0x3 => ok7 (a ≤ 55 && fld w 9 0 == 0) (.rcpstat d a)
  | 0x8 => ok7 (d == 0 && fld w 9 0 == 0 && fld w2 12 0 == 0 && tileWOk tw) (.ttw a tw)
  | 0x9 => ok7 (fld w 15 0 == 0 && fld w2 12 0 == 0 && tileWOk tw) (.ttr d tw)
  | _ => .error 6

/-- X class. -/
def decodeX (w w2 : Nat) (e : Bool) : Except Nat Instr :=
  match fld w 29 22 / 16 with
  | 0x0 => decodeX0 w w2 e
  | 0x1 => decodeX1 w w2 e
  | 0x2 => decodeX2 w w2 e
  | 0x3 => decodeX3 w w2 e
  | 0x4 => decodeX4 w w2 e
  | _ => .error 6

/-- M class. -/
def decodeM (w w2 : Nat) (e : Bool) : Except Nat Instr :=
  let op := fld w 29 22
  let d := fld w 21 16
  let a := fld w 15 10
  let n := fld w 9 7
  let mw : MmaW := ⟨fld w2 29 26, fld w2 25 22, fld w2 21 18, fld w2 17 11, fld w2 10 10, fld w2 9 9, fld w2 7 0⟩
  let mok := fld w 6 0 == 0 && fld w2 8 8 == 0
  match op with
  | 0x00 => ok7 (mok && mmaOk false d a n mw) (.mma d a n mw)
  | 0x01 => ok7 (mok && mmaOk true d a n mw) (.mmap d a n mw)
  | 0x08 => ok7 (d ≤ 3 && fld w 9 0 == 0) (.mscl d a)
  | 0x10 => ok7 (d == 0 && a == 0 && fld w 6 0 == 0) (.mzero n)
  | 0x18 =>
    let i := if e then Instr.mtileImm n (fld w2 28 0) else Instr.mtile n a
    ok7 (d == 0 && fld w 6 0 == 0 && (!e || (a == 0 && fld w2 29 29 == 0 && tileWordOk (fld w2 28 0)))) i
  | _ => .error 6

/-- C class. A FILL or NOTE word names its first row; the staged MODE selects among the rows of one word (R186, R436). -/
def decodeC (w : Nat) : Except Nat Instr :=
  let h : CHdr := ⟨fld w 21 21, fld w 20 15, fld w 14 13, fld w 12 10⟩
  let good := chdrOk h && fld w 9 0 == 0
  match fld w 29 22 with
  | 0x00 => ok7 good (.copy h)
  | 0x10 => ok7 good (.gath h)
  | 0x11 => ok7 good (.exsave h)
  | 0x12 => ok7 good (.trunc h)
  | 0x20 => ok7 good (.sieve h)
  | 0x21 => ok7 good (.resto h)
  | 0x30 => ok7 good (.fillGap h)
  | 0x40 => ok7 good (.coll h)
  | 0x50 => ok7 good (.noteSend h)
  | _ => .error 6

/-- Control flow, system operations, ENDT and YIELD (R41): the S0-only operations. -/
def s0Only (op : Nat) : Bool := (0x60 ≤ op && op ≤ 0x69) || op == 0x7B || op == 0x7C || (0xF0 ≤ op && op ≤ 0xF2)

/-- One slot word with its second word, the checks in the order 5, 6, 8, 7 of R44. `w2` is the second word as it
stands (0 where E = 0). A C-class word never has one (R54). -/
def decodeSlot (cls : Cls) (s1 : Bool) (bw w w2 : Nat) : Except Nat Instr :=
  let op := fld w 29 22
  let e := fld w 30 30 == 1
  if fld w 31 31 = 1 then .error 5
  else if e && (cls == .c || fld w2 31 31 == 1 || fld w2 30 30 == 1) then .error 5
  else
    match formOf cls op with
    | none => .error 6
    | some form =>
      if (form == .forbid && e) || (form == .req && !e) then .error 5
      else if cls == .s && s1 && s0Only op then .error 8
      else
        let v2 := if e then fld w2 29 0 else 0
        match cls with
        | .s => decodeS bw w v2 e
        | .v => decodeV w v2 e
        | .x => decodeX w v2 e
        | .m => decodeM w v2 e
        | .c => decodeC w

/-! ### The header and the bundle -/

/-- The header's fields (R30). -/
structure Hdr where
  pres : Nat
  keep : Nat
  bh : Nat
  ck : Bool
  ic : Nat
  ilv : Nat
deriving DecidableEq, Repr

def decodeHdr (w : Nat) : Hdr := ⟨fld w 30 23, fld w 22 15, fld w 14 13, fld w 12 12 == 1, fld w 11 10, fld w 9 7⟩

/-- Reason codes 1 and 2 of R31. -/
def hdrFault (w : Nat) : Option Nat :=
  let h := decodeHdr w
  if h.bh = 3 || h.ic = 3 || 5 < h.ilv || (h.ic = 0 && h.ilv != 0) || fld w 6 0 != 0 then some 1
  else if h.pres &&& h.keep != 0 then some 2
  else none

/-- Whether slot k is set in a mask whose bit 7 is S0 (R30). -/
def slotSet (m k : Nat) : Bool := fld m (7 - k) (7 - k) == 1

/-- Number of slots set. -/
def slotCount (m : Nat) : Nat := (List.range 8).foldl (fun n k => if slotSet m k then n + 1 else n) 0

/-- The length of a bundle (R40). `rest` are the words after the header to the end of the packet, `n` the length known
so far, `i` the next word, `isSlot` whether that word is a slot word. The error is reason code 4 or 3. -/
def bundleLen : List Nat → Nat → Nat → Bool → Except Nat Nat
  | [], n, i, _ => if i < n then .error 4 else .ok n
  | w :: ws, n, i, isSlot =>
    if i < n then
      let e := isSlot && fld w 30 30 == 1
      let n' := if e then n + 1 else n
      if 16 < n' then .error 3 else bundleLen ws n' (i + 1) (!e)
    else .ok n

/-- Pairs each present slot with its word and second word, in PRES order (R39). -/
def splitSlots : List Nat → List Nat → List (Nat × Nat × Nat)
  | [], _ => []
  | _, [] => []
  | k :: ks, w :: ws =>
    if fld w 30 30 = 1 then
      match ws with
      | w2 :: ws' => (k, w, w2) :: splitSlots ks ws'
      | [] => [(k, w, 0)]
    else (k, w, 0) :: splitSlots ks ws

/-- An operation of a bundle: its slot, whether it is re-issued, its words, the instruction. -/
structure SlotOp where
  slot : Nat
  kept : Bool
  w : Nat
  w2 : Nat
  i : Instr
deriving DecidableEq, Repr

/-- A decoded bundle. -/
structure Bundle where
  hdr : Hdr
  words : Nat
  ops : List SlotOp
deriving DecidableEq, Repr

/-- The irrevocable operations of R35. -/
def Instr.irrevocable : Instr → Bool
  | .ldl _ _ _ _ (some w) => w.qual == 2
  | .vld _ _ _ _ (some w) => w.qual == 2
  | .vlda _ _ _ _ (some w) => w.qual == 2
  | .bararr .. => true
  | .aadd .. => true
  | .amin .. => true
  | .amax .. => true
  | .axchg .. => true
  | .acas .. => true
  | .vaadd .. => true
  | .vamin .. => true
  | .vamax .. => true
  | .vaxchg .. => true
  | .xferOwned .. => true
  | .xferShared .. => true
  | .xferEngine .. => true
  | .tdec .. => true
  | .noteSend .. => true
  | .noteRegister .. => true
  | .noteDeregister .. => true
  | .notePurge .. => true
  | _ => false

/-- The operations a re-issue may not hold (R38): control flow, system operations, ENDT, YIELD. -/
def Instr.unfitKeep : Instr → Bool
  | .br .. => true | .j .. => true | .call .. => true | .jr .. => true | .callr .. => true | .ret .. => true
  | .brt .. => true | .loop .. => true | .bsw .. => true | .ifence => true | .trap .. => true | .rett => true
  | .brk .. => true | .endt => true | .yield => true | _ => false

/-- The V-class operations that R218 lets a recipe hold: PN and the vector registers they name, vd first. -/
def Instr.recipeRegs : Instr → Option (Nat × List Nat)
  | .vadd _ d a b p _ | .vsub _ d a b p _ | .vmul _ d a b p _ | .vmin _ d a b p | .vmax _ d a b p
  | .vshl _ d a b p | .vshrI _ d a b p | .vshrN _ d a b p | .vand d a b p | .vor d a b p | .vxor d a b p
  | .vsel _ d a b p | .vperm _ d a b p | .vshuf _ d a b p | .vcompr _ d a b p | .vexpd _ d a b p
  | .vbcmp d a b p _ | .vbfind d a b p _ | .vhash d a b p _ | .vcrc d a b p _ => some (p, [d, a, b])
  | .vfma _ d a b p w => some (p, [d, a, b, w.vc])
  | .vabs _ d a p _ | .vneg _ d a p _ | .vnot d a p | .vmov _ d a p | .vred _ d a _ p | .vscan _ d a _ p => some (p, [d, a])
  | .vbcast _ d _ p => some (p, [d])
  | .vrot _ d _ b p => some (p, [d, b])
  | .vld d _ _ p none => some (p, [d])
  | .vld d _ _ p (some w) => if w.qual = 0 then some (p, [d]) else none
  | _ => none

/-- Whether an operation writes vd and is fit for its recipe (R218, R219). -/
def Instr.recipeFit (i : Instr) (vd : Nat) : Bool :=
  match i.recipeRegs with
  | some (p, l) => p == 0 && l.headD 64 == vd && l.all (fun n => n < 56)
  | none => false

/-- Whether an RCPDEF names a fit operation of its bundle (R219); `ops` are the bundle's operations of the slots before it. A kept
RCPDEF is held to the same (DEDUCED, log 59). -/
def rcpdefOk (ops : List SlotOp) : Instr → Bool
  | .rcpdef d sl => ops.any (fun o => o.slot == 2 + sl && o.i.recipeFit d)
  | _ => true

/-- The operations of a bundle slot by slot (R44 step 3). `img k` is the re-issue image of slot k: its words and
instruction; `done` are the operations of earlier slots. The error is the slot and the reason code. -/
def bundleOps (h : Hdr) (bw : Nat) (present : List (Nat × Nat × Nat)) (img : List (Nat × Nat × Nat × Instr)) (done : List SlotOp) :
    List Nat → Except (Nat × Nat) (List SlotOp)
  | [] => .ok done
  | k :: ks =>
    if slotSet h.pres k then
      match present.find? (fun t => t.1 == k) with
      | none => .error (k, 5)
      | some (_, w, w2) =>
        match decodeSlot (slotClass k) (k == 1) bw w w2 with
        | .error r => .error (k, r)
        | .ok i =>
          if !rcpdefOk done i then .error (k, 7)
          else if i.irrevocable && !h.ck then .error (k, 9)
          else bundleOps h bw present img (done ++ [⟨k, false, w, w2, i⟩]) ks
    else if slotSet h.keep k then
      match img.find? (fun t => t.1 == k) with
      | none => .error (k, 10)
      | some (_, w, w2, i) =>
        if i.unfitKeep then .error (k, 10)
        else if !rcpdefOk done i then .error (k, 7)
        else if i.irrevocable && !h.ck then .error (k, 9)
        else bundleOps h bw present img (done ++ [⟨k, true, w, w2, i⟩]) ks
    else bundleOps h bw present img done ks

/-- A bundle from the words of its packet, header first. The error is the slot field (8 for the header, R43) and the
reason code. -/
def decodeBundle (ws : List Nat) (img : List (Nat × Nat × Nat × Instr)) : Except (Nat × Nat) Bundle :=
  match ws with
  | [] => .error (8, 11)
  | hw :: rest =>
    match hdrFault hw with
    | some r => .error (8, r)
    | none =>
      let h := decodeHdr hw
      match bundleLen rest (1 + slotCount h.pres) 1 true with
      | .error r => .error (8, r)
      | .ok n =>
        let present := splitSlots ((List.range 8).filter (fun k => slotSet h.pres k)) (rest.take (n - 1))
        match bundleOps h n present img [] (List.range 8) with
        | .error e => .error e
        | .ok ops => .ok ⟨h, n, ops⟩

/-- The first class, in the order S, V, X, M, C, in which the word decodes. -/
def firstClass (w w2 : Nat) : List Cls → Option Instr
  | [] => none
  | c :: cs =>
    match decodeSlot c false 2 w w2 with
    | .ok i => some i
    | .error _ => firstClass w w2 cs

/-- The table's word is a header (start bit 1) or a slot word; the table does not number the slot class, so a slot word
is read in the first class that has it. -/
def decodeTableWord (nbits w : Nat) : Option Instr :=
  let w1 := fld w 31 0
  let w2 := if nbits ≤ 32 then 0 else fld w 63 32
  if fld w1 31 31 = 1 then
    match hdrFault w1 with
    | some _ => none
    | none =>
      let h := decodeHdr w1
      if h.pres = 0 && h.keep = 0 then some (.nop h.bh (if h.ck then 1 else 0) h.ic h.ilv) else none
  else firstClass w1 w2 [.s, .v, .x, .m, .c]

/-! ### The encoder -/

/-- A slot word: E, opcode, bits 21:16, 15:10, 9:4, 3:0. -/
def mkR (e op d a b f : Nat) : Nat := e * 2 ^ 30 + op * 2 ^ 22 + d * 2 ^ 16 + a * 2 ^ 10 + b * 2 ^ 4 + f

/-- A slot word with an immediate in bits 9:0. -/
def mkI (e op d a i : Nat) : Nat := e * 2 ^ 30 + op * 2 ^ 22 + d * 2 ^ 16 + a * 2 ^ 10 + i

def encMw : Option MW → List Nat
  | none => []
  | some w => [w.qual * 2 ^ 27 + w.offh]

def encVw (w : VW) : Nat := w.vc * 2 ^ 24 + w.rm * 2 ^ 21 + w.sat * 2 ^ 20

def encOptVw : Option VW → List Nat
  | none => []
  | some w => [encVw w]

def encSw : Option SW → List Nat
  | none => []
  | some w => [w.segl * 2 ^ 27 + w.zt * 2 ^ 26 + w.tb * 2 ^ 18 + w.nlen * 2 ^ 15]

def encCw (w : CW) : Nat := w.ts * 2 ^ 26 + w.td * 2 ^ 22 + w.rm * 2 ^ 19 + w.sat * 2 ^ 18 + w.ftz * 2 ^ 17

def encBlk : Option Nat → List Nat
  | none => []
  | some b => [b * 2 ^ 22]

def encTileW (w : TileW) : Nat := w.wc * 2 ^ 28 + w.part * 2 ^ 26 + w.xs * 2 ^ 25 + w.idx * 2 ^ 19 + w.xi * 2 ^ 13

def encMmaW (w : MmaW) : Nat :=
  w.ta * 2 ^ 26 + w.tb * 2 ^ 22 + w.kg * 2 ^ 18 + w.mm1 * 2 ^ 11 + w.acc * 2 ^ 10 + w.av * 2 ^ 9 + w.gid

def encC (op : Nat) (h : CHdr) : List Nat := [op * 2 ^ 22 + h.set * 2 ^ 21 + h.dly * 2 ^ 15 + h.cmode * 2 ^ 13 + h.cc * 2 ^ 10]

/-- E bit of an optional second word. -/
def eOf {α : Type} : Option α → Nat
  | none => 0
  | some _ => 1

/-- The words of an instruction; none for an event of the table. -/
def encode : Instr → List Nat
  | .nop bh ck ic ilv => [2 ^ 31 + bh * 2 ^ 13 + ck * 2 ^ 12 + ic * 2 ^ 10 + ilv * 2 ^ 7]
  | .add d a b => [mkR 0 0x00 d a b 0] | .sub d a b => [mkR 0 0x01 d a b 0]
  | .mul d a b => [mkR 0 0x02 d a b 0] | .mulh d a b => [mkR 0 0x03 d a b 0]
  | .div d a b => [mkR 0 0x04 d a b 0] | .divn d a b => [mkR 0 0x05 d a b 0]
  | .rem d a b => [mkR 0 0x06 d a b 0] | .remn d a b => [mkR 0 0x07 d a b 0]
  | .and d a b => [mkR 0 0x08 d a b 0] | .or d a b => [mkR 0 0x09 d a b 0] | .xor d a b => [mkR 0 0x0A d a b 0]
  | .shl d a b => [mkR 0 0x0B d a b 0] | .shrl d a b => [mkR 0 0x0C d a b 0] | .shra d a b => [mkR 0 0x0D d a b 0]
  | .min d a b => [mkR 0 0x0E d a b 0] | .max d a b => [mkR 0 0x0F d a b 0]
  | .minn d a b => [mkR 0 0x10 d a b 0] | .maxn d a b => [mkR 0 0x11 d a b 0]
  | .cmp d a b c => [mkR 0 0x12 d a b c]
  | .sel d a b xc => [mkR 1 0x13 d a b 0, xc * 2 ^ 24]
  | .clz d a => [mkR 0 0x14 d a 0 0] | .popc d a => [mkR 0 0x15 d a 0 0]
  | .bfx d a pos lm1 sx => [mkR 1 0x16 d a 0 0, pos * 2 ^ 24 + lm1 * 2 ^ 18 + sx * 2 ^ 17]
  | .bfi d a b pos lm1 => [mkR 1 0x17 d a b 0, pos * 2 ^ 24 + lm1 * 2 ^ 18]
  | .addi d a i => [mkI 0 0x18 d a i] | .andi d a i => [mkI 0 0x19 d a i]
  | .ori d a i => [mkI 0 0x1A d a i] | .xori d a i => [mkI 0 0x1B d a i]
  | .shli d a n => [mkI 0 0x1C d a n] | .shrli d a n => [mkI 0 0x1D d a n] | .shrai d a n => [mkI 0 0x1E d a n]
  | .li d i w => (eOf w * 2 ^ 30 + 0x20 * 2 ^ 22 + d * 2 ^ 16 + i) :: w.toList
  | .lih d i => [0x21 * 2 ^ 22 + d * 2 ^ 16 + i]
  | .fadd d a b r => [mkR 0 0x28 d a b r] | .fmul d a b r => [mkR 0 0x29 d a b r]
  | .ffma d a b xc r => [mkR 1 0x2A d a b 0, xc * 2 ^ 24 + r * 2 ^ 21]
  | .fcmp d a b c => [mkR 0 0x2B d a b c]
  | .fcvt d a w => [mkR 1 0x2C d a 0 0, encCw w]
  | .movs d n => [mkI 0 0x30 d 0 n] | .movd a n => [mkI 0 0x31 0 a n]
  | .sete a k s i => [mkI 0 0x32 0 a (k * 2 ^ 7 + s * 2 ^ 6 + i)]
  | .ldg z d a i w => mkI (eOf w) (0x40 + z) d a i :: encMw w
  | .stg z s a i w => mkI (eOf w) (0x48 + z) s a i :: encMw w
  | .ldl z d a i w => mkI (eOf w) (0x50 + z) d a i :: encMw w
  | .stl z s a i w => mkI (eOf w) (0x58 + z) s a i :: encMw w
  | .br a b c off => [mkR 1 0x60 0 a b c, off]
  | .j o => [0x61 * 2 ^ 22 + o] | .call o => [0x63 * 2 ^ 22 + o]
  | .jr a => [mkR 0 0x62 0 a 0 0] | .callr d a => [mkR 0 0x64 d a 0 0] | .ret a => [mkR 0 0x65 0 a 0 0]
  | .brt ca cb cc neg cd off => [mkR 1 0x66 ca cb cc neg, cd * 2 ^ 24 + off]
  | .loop d a lvl src tripi last => [mkI 1 0x67 d a (lvl * 2 ^ 7 + src * 2 ^ 5), tripi * 2 ^ 14 + last]
  | .bsw a i => [mkI 0 0x68 0 a i] | .ifence => [mkI 0 0x69 0 0 0]
  | .barinit s a => [mkI 0 0x70 s a 0] | .bararr d a n => [mkI 0 0x71 d a n] | .barwait d a p => [mkI 0 0x72 d a p]
  | .waitcc c n => [mkI 0 0x73 c 0 n] | .fenceL => [mkI 0 0x74 0 0 0] | .fenceE => [mkI 0 0x75 0 0 0]
  | .gbar d g => [mkI 0 0x78 d 0 g] | .gleave g => [mkI 0 0x79 0 0 g] | .tdec d a n => [mkI 0 0x7A d a n]
  | .endt => [mkI 0 0x7B 0 0 0] | .yield => [mkI 0 0x7C 0 0 0]
  | .tkopen d a b td => [mkR 1 0x80 d a b 0, td * 2 ^ 18]
  | .tkadd a b xt td => [mkR 1 0x81 0 a b 0, xt * 2 ^ 24 + td * 2 ^ 18]
  | .tkmin a b xt td => [mkR 1 0x82 0 a b 0, xt * 2 ^ 24 + td * 2 ^ 18]
  | .tkmax a b xt td => [mkR 1 0x83 0 a b 0, xt * 2 ^ 24 + td * 2 ^ 18]
  | .tkskip d a b td => [mkR 1 0x84 d a b 0, td * 2 ^ 18]
  | .tkdrain d a td => [mkI 0 0x85 d a td]
  | .tkstat d a sel td => [mkI 0 0x86 d a (sel * 2 ^ 6 + td)]
  | .tkclose d a f td => [mkI 0 0x87 d a (f * 2 ^ 6 + td)]
  | .aadd d a b typ => [mkR 1 0x88 d a b 0, typ * 2 ^ 22] | .amin d a b typ => [mkR 1 0x89 d a b 0, typ * 2 ^ 22]
  | .amax d a b typ => [mkR 1 0x8A d a b 0, typ * 2 ^ 22] | .axchg d a b typ => [mkR 1 0x8B d a b 0, typ * 2 ^ 22]
  | .acas d a b xc typ => [mkR 1 0x8C d a b 0, xc * 2 ^ 24 + typ * 2 ^ 22]
  | .xferOwned a b n1 => [mkR 1 0x90 0 a b 0, n1 * 2 ^ 16]
  | .xferShared a b n1 => [mkR 1 0x90 0 a b 0, 1 * 2 ^ 27 + n1 * 2 ^ 16]
  | .xferEngine a b n1 => [mkR 1 0x90 0 a b 0, 2 * 2 ^ 27 + n1 * 2 ^ 16]
  | .lock d a b => [mkR 0 0x91 d a b 0] | .unlock d a b => [mkR 0 0x92 d a b 0]
  | .tokacq d a b => [mkR 0 0x98 d a b 0] | .tokrel d a b => [mkR 0 0x99 d a b 0]
  | .qbind n a dir fek add ai depth => mkI (eOf depth) 0xA0 n a (dir + fek * 2 + add * 4 + ai * 8) :: depth.toList
  | .qunbind n => [mkI 0 0xA1 n 0 0] | .qsync n => [mkI 0 0xA2 n 0 0] | .qstat d n => [mkI 0 0xA3 d 0 n]
  | .trap n => [mkI 0 0xF0 0 0 n] | .rett => [mkI 0 0xF1 0 0 0] | .brk n => [mkI 0 0xF2 0 0 n]
  | .vadd t d a b p w => mkR (eOf w) (0x00 + t) d a b p :: encOptVw w
  | .vsub t d a b p w => mkR (eOf w) (0x10 + t) d a b p :: encOptVw w
  | .vmul t d a b p w => mkR (eOf w) (0x20 + t) d a b p :: encOptVw w
  | .vfma t d a b p w => [mkR 1 (0x30 + t) d a b p, encVw w]
  | .vmin t d a b p => [mkR 0 (0x40 + t) d a b p] | .vmax t d a b p => [mkR 0 (0x50 + t) d a b p]
  | .vabs t d a p w => mkR (eOf w) (0x60 + t) d a 0 p :: encOptVw w
  | .vneg t d a p w => mkR (eOf w) (0x60 + t) d a 1 p :: encOptVw w
  | .vcmp t d a b p cond => [mkR 1 (0x70 + t) d a b p, cond * 2 ^ 26]
  | .vred t d a o p => [mkR 0 (0x80 + t) d a o p] | .vscan t d a o p => [mkR 0 (0x90 + t) d a o p]
  | .vshl w d a b p => [mkR 0 (0xA0 + w) d a b p] | .vshrI w d a b p => [mkR 0 (0xA4 + w) d a b p]
  | .vshrN w d a b p => [mkR 0 (0xA8 + w) d a b p]
  | .vand d a b p => [mkR 0 0xAC d a b p] | .vor d a b p => [mkR 0 0xAD d a b p] | .vxor d a b p => [mkR 0 0xAE d a b p]
  | .vnot d a p => [mkR 0 0xAF d a 0 p]
  | .vsel w d a b p => [mkR 0 (0xB0 + w) d a b p] | .vmov w d a p => [mkR 0 (0xB4 + w) d a 0 p]
  | .vbcast w d x p => [mkR 0 (0xB8 + w) d x 0 p] | .vrot w d x b p => [mkR 0 (0xBC + w) d x b p]
  | .vperm w d a b p => [mkR 0 (0xC0 + w) d a b p] | .vshuf w d a b p => [mkR 0 (0xC4 + w) d a b p]
  | .vcompr w d a b p => [mkR 0 (0xC8 + w) d a b p] | .vexpd w d a b p => [mkR 0 (0xCC + w) d a b p]
  | .vbcmp d a b p w => mkR (eOf w) 0xD0 d a b p :: encSw w
  | .vbfind d a b p w => mkR (eOf w) 0xD1 d a b p :: encSw w
  | .vhash d a b p fin => mkR (eOf fin) 0xD2 d a b p :: (fin.map (fun f => f * 2 ^ 29)).toList
  | .vcrc d a b p nb => mkR (eOf nb) 0xD3 d a b p :: (nb.map (fun n => n * 2 ^ 28)).toList
  | .vld d a k p w => mkR (eOf w) 0xE0 d a k p :: encMw w
  | .vst s a k p w => mkR (eOf w) 0xE1 s a k p :: encMw w
  | .vlda d a k p w => mkR (eOf w) 0xE2 d a k p :: encMw w
  | .vsta s a k p w => mkR (eOf w) 0xE3 s a k p :: encMw w
  | .vstaAdd s a k p w => mkR (eOf w) 0xE4 s a k p :: encMw w
  | .vtkadd s a k p xt td => [mkR 1 0xF0 s a k p, xt * 2 ^ 24 + td * 2 ^ 18]
  | .vtkmin s a k p xt td => [mkR 1 0xF1 s a k p, xt * 2 ^ 24 + td * 2 ^ 18]
  | .vtkmax s a k p xt td => [mkR 1 0xF2 s a k p, xt * 2 ^ 24 + td * 2 ^ 18]
  | .vaadd s a k p vr ret uns => [mkR 1 0xF4 s a k p, vr * 2 ^ 24 + ret * 2 ^ 23 + uns * 2 ^ 22]
  | .vamin s a k p vr ret uns => [mkR 1 0xF5 s a k p, vr * 2 ^ 24 + ret * 2 ^ 23 + uns * 2 ^ 22]
  | .vamax s a k p vr ret uns => [mkR 1 0xF6 s a k p, vr * 2 ^ 24 + ret * 2 ^ 23 + uns * 2 ^ 22]
  | .vaxchg s a k p vr ret uns => [mkR 1 0xF7 s a k p, vr * 2 ^ 24 + ret * 2 ^ 23 + uns * 2 ^ 22]
  | .vexp2 t d a p => [mkR 0 (0x00 + t) d a 0 p] | .vlog2 t d a p => [mkR 0 (0x04 + t) d a 0 p]
  | .vrcp t d a p => [mkR 0 (0x08 + t) d a 0 p] | .vrsq t d a p => [mkR 0 (0x0C + t) d a 0 p]
  | .vtanh t d a p => [mkR 0 (0x10 + t) d a 0 p] | .vsigm t d a p => [mkR 0 (0x14 + t) d a 0 p]
  | .vcvt d a pv pq w => [mkR 1 0x20 d a pv pq, encCw w]
  | .vrng d m p => [mkR 0 0x21 d 0 m p]
  | .pand d a b => [mkR 0 0x30 d a b 0] | .por d a b => [mkR 0 0x31 d a b 0] | .pxor d a b => [mkR 0 0x32 d a b 0]
  | .pnot d a => [mkR 0 0x33 d a 0 0] | .pcnt d a w p => [mkR 0 0x34 d a w p]
  | .rowpred d a b p w => [mkR 1 0x38 d a b p, w.cond * 2 ^ 26 + w.t * 2 ^ 22 + w.seg * 2 ^ 20 + w.bs * 2 ^ 19]
  | .rcwupd d a b c blk => mkR (eOf blk) 0x39 d a b c :: encBlk blk
  | .rcwadv d a p blk => mkR (eOf blk) 0x3A d a 0 p :: encBlk blk
  | .rcwld d a t p blk => mkR (eOf blk) 0x3B d a t p :: encBlk blk
  | .rcpdef d s => [mkR 0 0x40 d 0 s 0]
  | .rcpdefEmbedded d a w =>
    [mkR 1 0x40 d a 2 0, w.xop * 2 ^ 22 + w.ts * 2 ^ 18 + w.td * 2 ^ 14 + w.rm * 2 ^ 11 + w.sat * 2 ^ 10 + w.ftz * 2 ^ 9]
  | .drop d => [mkR 0 0x41 d 0 0 0] | .rcpclr d => [mkR 0 0x42 d 0 0 0] | .rcpclrAll => [mkR 0 0x42 0 0 1 0]
  | .rcpstat d a => [mkR 0 0x43 d a 0 0]
  | .ttw a w => [mkR 1 0x48 0 a 0 0, encTileW w] | .ttr d w => [mkR 1 0x49 d 0 0 0, encTileW w]
  | .mma s b n w => [mkI 1 0x00 s b (n * 2 ^ 7), encMmaW w] | .mmap s b n w => [mkI 1 0x01 s b (n * 2 ^ 7), encMmaW w]
  | .mscl n a => [mkI 0 0x08 n a 0] | .mzero n => [mkI 0 0x10 0 0 (n * 2 ^ 7)]
  | .mtile n a => [mkI 0 0x18 0 a (n * 2 ^ 7)] | .mtileImm n w => [mkI 1 0x18 0 0 (n * 2 ^ 7), w]
  | .copy h => encC 0x00 h | .gath h => encC 0x10 h | .exsave h => encC 0x11 h | .trunc h => encC 0x12 h
  | .sieve h => encC 0x20 h | .resto h => encC 0x21 h
  | .fillGap h => encC 0x30 h | .fillSeal h => encC 0x30 h | .fillRequant h => encC 0x30 h | .fillUnseal h => encC 0x30 h
  | .coll h => encC 0x40 h
  | .noteSend h => encC 0x50 h | .noteRegister h => encC 0x50 h | .noteDeregister h => encC 0x50 h | .notePurge h => encC 0x50 h
  | .implicitCheckpoint .. | .commandStart .. | .engineCompletion .. | .engineFault .. | .loadDataArrive .. | .lateData .. |
    .feWaitSatisfy .. | .streamFetch .. | .recipeReplay .. | .matrixResultWrite .. | .pairTimeout .. | .flowstoneDemand .. |
    .ticketPartArrive .. | .ticketPartRetry .. | .ticketGap .. | .asyncTrap .. | .selectorPromotion .. | .waitYield .. |
    .taskDispatch .. | .launchComplete .. | .preempt .. | .taskTerminate .. | .memoryError .. | .thermalSample .. |
    .blackboxMirror .. | .ceilingChangeApply .. | .hbSend .. | .silenceTest .. | .evictTimeout .. | .raiseDeadline .. |
    .joinDeadline .. | .hb .. | .lower .. | .raise .. | .ack .. | .commit .. | .cancel .. | .join .. | .joinack .. |
    .joinabort .. | .leave .. | .evict .. | .elwBadOp .. | .rdreq .. | .rdrsp .. | .wrreq .. | .wrack .. | .tkpart .. |
    .tkack .. | .aareq .. | .aarsp .. | .nack .. | .tkconf .. | .notice .. | .noteack .. | .tokreq .. | .tokgrant .. |
    .tokrecall .. | .tokreturn .. | .collrdy .. | .flitCrcRetry .. | .hopDown .. | .flitUnknownKind .. | .launch .. |
    .launchi .. | .waitc .. | .waitcObserved .. | .signalAdd .. | .signalSet .. | .signalTdec .. | .skipif .. |
    .listJump .. | .listCall .. | .listRet .. | .listLoop .. | .listXfer .. | .listFlush .. | .listFence .. | .submitGo .. |
    .nmcfgWrite .. | .carveoutComplete .. | .xlinvAll .. | .xlinvAsid .. | .xlinvPage .. | .xlinvDone .. | .xlresume .. |
    .accsvSave .. | .domainSaveDone .. | .accsvRestore .. | .elwctlJoin .. | .elwctlLeave .. | .elwctlCap .. |
    .elwevtPop .. | .hevtPop .. | .dbgStop .. | .dbgUnstop .. | .dbgdataRead .. | .rbaseWrite .. | .registerWrite .. |
    .resetRelease .. | .warmReset .. | .hdmWrite .. | .hdmRead .. | .configRequest | .readSensors .. | .setPowerCap .. |
    .attest .. | .readIdentity .. | .worulmonWarmReset .. | .setEndpointId .. | .getEndpointId | .getMctpVersionSupport |
    .getMessageTypeSupport | .getVendorDefinedMessageSupport | .mctpOtherType .. | .resumption .. | .retryAfterCancel .. |
    .powerCapReached .. | .powerRemoved | .cxlLinkTrained .. | .unknownCommand .. | .engctlResume .. | .engctlCancel .. |
    .xferComplete .. => []

end Sys2Proof
end

