-- ==== Sys2Proof/Machine/Bits.lean ====
section
/-! DEFINITION. Bit and integer helpers (R10, R13, R228). -/

namespace Sys2Proof.Machine

/-- Bit `i` of `x`. -/
def bit (x i : Nat) : Bool := x / 2 ^ i % 2 == 1

def b2n (b : Bool) : Nat := if b then 1 else 0

/-- sext(x, n) (R228). -/
def sextI (n x : Nat) : Int := if x % 2 ^ n < 2 ^ (n - 1) then (x % 2 ^ n : Nat) else ((x % 2 ^ n : Nat) : Int) - 2 ^ n

/-- The pattern of an integer in `n` bits, mod 2^n. -/
def modI (n : Nat) (i : Int) : Nat := (i % 2 ^ n).toNat

/-- x with bits `hi` to `lo` replaced by the low bits of `v`. -/
def setFld (x hi lo v : Nat) : Nat :=
  x - fld x hi lo * 2 ^ lo + (v % 2 ^ (hi + 1 - lo)) * 2 ^ lo

/-- Number of one bits among the lowest `n` of `x`. -/
def popcount : Nat → Nat → Nat
  | 0, _ => 0
  | n + 1, x => x % 2 + popcount n (x / 2)

/-- Number of leading zero bits of the `n`-bit pattern `x`. -/
def clz (n x : Nat) : Nat := if x % 2 ^ n = 0 then n else n - 1 - Nat.log2 (x % 2 ^ n)

/-- A mask of `n` ones. -/
def ones (n : Nat) : Nat := 2 ^ n - 1

/-- Little-endian bytes, `n` of them. -/
def bytesOf : Nat → Nat → List Nat
  | 0, _ => []
  | n + 1, x => x % 256 :: bytesOf n (x / 256)

/-- The number that little-endian bytes hold. -/
def ofBytes : List Nat → Nat
  | [] => 0
  | b :: bs => b % 256 + 256 * ofBytes bs

/-- Elements of `w` bits joined, element 0 lowest. -/
def joinEl (w : Nat) : List Nat → Nat
  | [] => 0
  | x :: xs => x % 2 ^ w + 2 ^ w * joinEl w xs

/-- Element `i` of `w` bits. -/
def el (w x i : Nat) : Nat := x / 2 ^ (w * i) % 2 ^ w

/-- Ceiling of a / b. -/
def ceilDiv (a b : Nat) : Nat := (a + b - 1) / b

/-- Whether `x` lies between `lo` and `hi`, both included. -/
def inRange (lo hi x : Nat) : Bool := lo ≤ x && x ≤ hi

/-- The first element of a list that satisfies `f`, with its position. -/
def findIdx? {α : Type} (f : α → Bool) : List α → Nat → Option (Nat × α)
  | [], _ => none
  | a :: as, i => if f a then some (i, a) else findIdx? f as (i + 1)

/-- Removes position `i`. -/
def removeAt {α : Type} : List α → Nat → List α
  | [], _ => []
  | _ :: as, 0 => as
  | a :: as, i + 1 => a :: removeAt as i

/-- Replaces position `i`. -/
def setAt {α : Type} : List α → Nat → α → List α
  | [], _, _ => []
  | _ :: as, 0, b => b :: as
  | a :: as, i + 1, b => a :: setAt as i b

end Sys2Proof.Machine
end

