-- ==== Sys2Proof/Machine/Num.lean ====
section
/-! DEFINITION. Number formats, rounding and the order of sums (R226 to R247). Types are the codes of R47, rounding modes
the codes of R48. -/

namespace Sys2Proof.Machine

/-- A float format (R226): fraction bits, least exponent, bias, pattern of the largest finite value, whether it has
infinities. -/
structure Fmt where
  width : Nat
  mb : Nat
  emin : Int
  bias : Int
  maxPat : Nat
  hasInf : Bool
deriving DecidableEq, Repr

def fmt (t : Nat) : Fmt :=
  match t with
  | 0 => ⟨32, 23, -126, 127, 0x7F7F_FFFF, true⟩
  | 1 => ⟨16, 7, -126, 127, 0x7F7F, true⟩
  | 2 => ⟨16, 10, -14, 15, 0x7BFF, true⟩
  | 3 => ⟨8, 3, -6, 7, 0x7E, false⟩
  | 4 => ⟨8, 2, -14, 15, 0x7B, true⟩
  | _ => ⟨4, 1, 0, 1, 0x7, false⟩

/-- An extended real with its NaN and zero detail (R227): (-1)^neg × m × 2^e. -/
inductive FV where
  | nan (b t : Nat)
  | inf (neg : Bool)
  | fin (neg : Bool) (m : Nat) (e : Int)
deriving DecidableEq, Repr

def signBit (b t : Nat) : Bool := bit b ((fmt t).width - 1)

/-- is_nan (R232), by the patterns of R226. -/
def isNan (b t : Nat) : Bool :=
  let f := fmt t
  let a := b % 2 ^ (f.width - 1)
  if t = 3 then a == 0x7F
  else if f.hasInf then f.maxPat + 1 < a
  else false

/-- value_of for a float type (R227). -/
def valueOf (b t : Nat) : FV :=
  let f := fmt t
  let a := b % 2 ^ (f.width - 1)
  if isNan b t then .nan (b % 2 ^ f.width) t
  else if f.hasInf && a == f.maxPat + 1 then .inf (signBit b t)
  else
    let ex := a / 2 ^ f.mb
    let m := a % 2 ^ f.mb
    if ex = 0 then .fin (signBit b t) m (f.emin - f.mb)
    else .fin (signBit b t) (2 ^ f.mb + m) ((ex : Int) - f.bias - f.mb)

/-- value_of for an integer type (R228). -/
def intVal (b t : Nat) : Int :=
  if t < 10 then sextI (typeWidth t) b else ((b % 2 ^ typeWidth t : Nat) : Int)

/-- Least and greatest value of an integer type (R228). -/
def intMin (t : Nat) : Int := if t < 10 then -(2 ^ (typeWidth t - 1)) else 0
def intMax (t : Nat) : Int := if t < 10 then 2 ^ (typeWidth t - 1) - 1 else 2 ^ typeWidth t - 1

/-- wrap_or_sat (R228). -/
def wrapOrSat (n : Int) (t : Nat) (sat : Bool) : Nat :=
  let w := typeWidth t
  if sat then modI w (min (max n (intMin t)) (intMax t)) else modI w n

/-- An integer as an extended real. -/
def FV.ofInt (n : Int) : FV := .fin (n < 0) n.natAbs 0

/-- quiet (R232). -/
def quiet (b t : Nat) : Nat :=
  let f := fmt t
  if t = 3 || t = 5 then b else if bit b (f.mb - 1) then b else b + 2 ^ (f.mb - 1)

/-- default_nan (R226). -/
def defaultNan (t : Nat) : Nat :=
  match t with
  | 0 => 0x7FC0_0000 | 1 => 0x7FC0 | 2 => 0x7E00 | 3 => 0x7F | 4 => 0x7E | _ => 0

/-- pick_nan (R232). -/
def pickNan (a b t : Nat) : Nat := if isNan a t then quiet a t else quiet b t

/-- nan_to (R233) from a NaN b of type ts to type t. -/
def nanTo (b ts t : Nat) : Nat :=
  let f := fmt t
  let s := b2n (signBit b ts)
  if t = 3 then s * 0x80 + 0x7F
  else if 5 ≤ t then 0
  else
    let wf := (fmt ts).mb - 1
    let fr := b % 2 ^ wf
    let wd := f.mb - 1
    let fr' := if wd ≤ wf then fr / 2 ^ (wf - wd) else fr * 2 ^ (wd - wf)
    s * 2 ^ (f.width - 1) + (f.maxPat / 2 ^ f.mb + 1) * 2 ^ f.mb + 2 ^ (f.mb - 1) + fr'

/-- What stochastic rounding needs (R242): the exponent of q_ts and the element's random word. -/
structure SRand where
  qts : Int
  w : Nat
deriving DecidableEq, Repr

/-- round_int of m / 2^s for the sign `neg` (R237, R242); `qe` is the exponent of the quantum. -/
def roundInt (mode : Nat) (neg : Bool) (sr : SRand) (qe : Int) (m s : Nat) : Nat :=
  let n := m / 2 ^ s
  let r := m % 2 ^ s
  if r = 0 then n
  else
    match mode with
    | 0 => if 2 * r < 2 ^ s then n else if 2 ^ s < 2 * r then n + 1 else if n % 2 = 0 then n else n + 1
    | 1 => n
    | 2 => if neg then n else n + 1
    | 3 => if neg then n + 1 else n
    | _ =>
      let k := (qe - sr.qts).toNat
      if k ≤ 32 then
        if 2 ^ k ≤ r * 2 ^ k / 2 ^ s + sr.w % 2 ^ k then n + 1 else n
      else if 2 ^ 32 ≤ r * 2 ^ 32 / 2 ^ s + sr.w then n + 1 else n

/-- overflow (R237). -/
def overflowBits (neg : Bool) (t mode : Nat) (sat : Bool) : Nat :=
  let f := fmt t
  let s := b2n neg * 2 ^ (f.width - 1)
  if t = 5 || sat then s + f.maxPat
  else
    let toInf := mode = 0 || mode = 4 || (mode = 2 && !neg) || (mode = 3 && neg)
    if toInf then if t = 3 then s + 0x7F else s + f.maxPat + 1
    else s + f.maxPat

/-- bits_of for a float type (R237) of a finite value, with the overflow condition of R243. -/
def finBits (neg : Bool) (m : Nat) (e : Int) (t mode : Nat) (sat : Bool) (sr : SRand) : Nat × Bool :=
  let f := fmt t
  let s := b2n neg * 2 ^ (f.width - 1)
  if m = 0 then (s, false)
  else
    let ev := max ((Nat.log2 m : Int) + e) f.emin
    let qe := ev - f.mb
    let n := if qe ≤ e then m * 2 ^ (e - qe).toNat else roundInt mode neg sr qe m (qe - e).toNat
    let pat := (ev - f.emin).toNat * 2 ^ f.mb + n
    if f.maxPat < pat then (overflowBits neg t mode sat, true) else (s + pat, false)

/-- int_bits (R238). -/
def intBits (x : FV) (t mode : Nat) (sat : Bool) (sr : SRand) : Nat :=
  let w := typeWidth t
  match x with
  | .nan _ _ => 0
  | .inf neg => modI w (if neg then intMin t else intMax t)
  | .fin neg m e =>
    let n := if 0 ≤ e then m * 2 ^ e.toNat else roundInt mode neg sr 0 m (-e).toNat
    wrapOrSat (if neg then -(n : Int) else n) t sat

/-- bits_of (R237). -/
def bitsOfSr (x : FV) (t mode : Nat) (sat : Bool) (sr : SRand) : Nat :=
  if 6 ≤ t then intBits x t mode sat sr
  else
    let f := fmt t
    match x with
    | .nan b ts => nanTo b ts t
    | .inf neg =>
      let s := b2n neg * 2 ^ (f.width - 1)
      if f.hasInf then s + f.maxPat + 1
      else if t = 3 && !sat then s + 0x7F
      else s + f.maxPat
    | .fin neg m e => (finBits neg m e t mode sat sr).1

def bitsOf (x : FV) (t mode : Nat) (sat : Bool) : Nat := bitsOfSr x t mode sat ⟨0, 0⟩

/-- FTZ (R239). -/
def ftz (b t : Nat) : Nat :=
  let f := fmt t
  if 6 ≤ t || 2 ^ f.mb ≤ b % 2 ^ (f.width - 1) then b else b - b % 2 ^ (f.width - 1)

/-! ### Exact sums and products -/

/-- Signed numerator over 2^e. -/
def scaled (neg : Bool) (m : Nat) (e base : Int) : Int :=
  let a : Int := (m * 2 ^ (e - base).toNat : Nat)
  if neg then -a else a

/-- exact_sum of finite entries (R244), zeros signed by R235 under `mode`. -/
def exactSum (l : List (Bool × Nat × Int)) (mode : Nat) : FV :=
  let base := l.foldl (fun b t => min b t.2.2) (match l with | [] => 0 | t :: _ => t.2.2)
  let n := l.foldl (fun a t => a + scaled t.1 t.2.1 t.2.2 base) 0
  if n = 0 then
    let negz := if l.all (fun t => t.2.1 == 0 && t.1) then true
      else if l.all (fun t => t.2.1 == 0 && !t.1) then false else mode == 3
    .fin negz 0 0
  else .fin (n < 0) n.natAbs base

/-- The product of two values that are not NaN; none for 0 × ∞ (R244). -/
def mulV : FV → FV → Option FV
  | .fin s m e, .fin s' m' e' => some (.fin (s != s') (m * m') (e + e'))
  | .inf s, .inf s' => some (.inf (s != s'))
  | .inf s, .fin s' m _ => if m = 0 then none else some (.inf (s != s'))
  | .fin s m _, .inf s' => if m = 0 then none else some (.inf (s != s'))
  | _, _ => none

/-- The sum of two values that are not NaN; none for ∞ - ∞. -/
def addV (mode : Nat) : FV → FV → Option FV
  | .fin s m e, .fin s' m' e' => some (exactSum [(s, m, e), (s', m', e')] mode)
  | .inf s, .inf s' => if s = s' then some (.inf s) else none
  | .inf s, .fin .. => some (.inf s)
  | .fin .., .inf s => some (.inf s)
  | _, _ => none

def negV : FV → FV
  | .nan b t => .nan b t
  | .inf s => .inf (!s)
  | .fin s m e => .fin (!s) m e

/-- a + b of float type t, rounded once (R232, R236). -/
def fAdd (a b t mode : Nat) : Nat :=
  if isNan a t || isNan b t then pickNan a b t
  else
    match addV mode (valueOf a t) (valueOf b t) with
    | none => defaultNan t
    | some x => bitsOf x t mode false

/-- a with its sign bit inverted. -/
def fNeg (a t : Nat) : Nat :=
  let h := 2 ^ ((fmt t).width - 1)
  if h ≤ a then a - h else a + h

/-- a - b of float type t (R232, R236): the NaN of b keeps its own pattern. -/
def fSub (a b t mode : Nat) : Nat :=
  if isNan a t || isNan b t then pickNan a b t
  else
    match addV mode (valueOf a t) (negV (valueOf b t)) with
    | none => defaultNan t
    | some x => bitsOf x t mode false

/-- a × b (R232, R236). -/
def fMul (a b t mode : Nat) : Nat :=
  if isNan a t || isNan b t then pickNan a b t
  else
    match mulV (valueOf a t) (valueOf b t) with
    | none => defaultNan t
    | some x => bitsOf x t mode false

/-- a × b + c with one rounding (R232, R236). -/
def fFma (a b c t mode : Nat) : Nat :=
  if isNan a t then quiet a t
  else if isNan b t then quiet b t
  else if isNan c t then quiet c t
  else
    match mulV (valueOf a t) (valueOf b t) with
    | none => defaultNan t
    | some x =>
      match addV mode x (valueOf c t) with
      | none => defaultNan t
      | some y => bitsOf y t mode false

/-- add_f32 (R245). -/
def addF32 (a b : Nat) : Nat := fAdd a b 0 0

/-- Order of two values that are not NaN: less, equal, greater as -1, 0, 1. -/
def cmpV : FV → FV → Int
  | .inf s, .inf s' => if s = s' then 0 else if s then -1 else 1
  | .inf s, _ => if s then -1 else 1
  | _, .inf s => if s then 1 else -1
  | .fin s m e, .fin s' m' e' =>
    let base := min e e'
    let d := scaled s m e base - scaled s' m' e' base
    if d < 0 then -1 else if d = 0 then 0 else 1
  | _, _ => 0

/-- op2 of R246: 0 add, 1 max, 2 min. -/
def op2 (a b o t : Nat) : Nat :=
  if isFloat t then
    if o = 0 then fAdd a b t 0
    else if isNan a t || isNan b t then pickNan a b t
    else
      let c := cmpV (valueOf a t) (valueOf b t)
      if c = 0 then
        if o = 1 then if signBit a t then b else a
        else if signBit a t then a else b
      else if (o = 1) = (c = 1) then a else b
  else
    let w := typeWidth t
    if o = 0 then (a + b) % 2 ^ w
    else if (o = 1) = (intVal b t ≤ intVal a t) then a % 2 ^ w else b % 2 ^ w

/-- One level of pair_tree. -/
def pairLevel (o t : Nat) : List Nat → List Nat
  | a :: b :: l => op2 a b o t :: pairLevel o t l
  | l => l

/-- pair_tree (R246) over `n` levels. -/
def pairTree (o t : Nat) : Nat → List Nat → Nat
  | 0, l => l.headD 0
  | n + 1, l => pairTree o t n (pairLevel o t l)

/-- The scan of R247. -/
def scanFrom (o t : Nat) (a : Nat) : List Nat → List Nat
  | [] => []
  | b :: l => let c := op2 a b o t; c :: scanFrom o t c l

def scan (o t : Nat) : List Nat → List Nat
  | [] => []
  | a :: l => a :: scanFrom o t a l

/-! ### Products and grouped sums (R244, R245) -/

/-- An entry of a sum: a NaN already of F32, or a value. -/
def prodOf (a b : FV) : FV :=
  match a, b with
  | .nan p t, _ => .nan (quiet p t) t
  | _, .nan p t => .nan (quiet p t) t
  | _, _ =>
    match mulV a b with
    | none => .nan (defaultNan 0) 0
    | some x => x

def isNanV : FV → Bool
  | .nan _ _ => true
  | _ => false

def isInfV (neg : Bool) : FV → Bool
  | .inf s => s == neg
  | _ => false

def finParts : FV → Bool × Nat × Int
  | .fin s m e => (s, m, e)
  | _ => (false, 0, 0)

/-- The F32 sum of one group (R245). -/
def groupSum (g : List FV) : Nat :=
  match g.find? isNanV with
  | some (.nan b t) => nanTo b t 0
  | _ =>
    let pi := g.any (isInfV false)
    let ni := g.any (isInfV true)
    if pi && ni then defaultNan 0
    else if pi then 0x7F80_0000
    else if ni then 0xFF80_0000
    else bitsOf (exactSum (g.map finParts) 0) 0 0 false

/-- group_sum32 (R245); `n` bounds the number of groups. -/
def groupSum32 : Nat → List FV → Nat → Nat
  | 0, _, acc => acc
  | n + 1, p, acc => if p.isEmpty then acc else groupSum32 n (p.drop 32) (addF32 acc (groupSum (p.take 32)))

/-! ### Microscaled blocks (R230, R231) -/

/-- The value of an E2M1 code under scale byte s. -/
def mxVal (code s : Nat) : FV :=
  if s = 0xFF then .nan (defaultNan 0) 0
  else
    match valueOf code 5 with
    | .fin n m e => .fin n m (e + (s : Int) - 127)
    | v => v

/-- floor(log2) of the greatest magnitude of finite non-zero values; none if there is none. -/
def maxLog (l : List FV) : Option Int :=
  l.foldl (fun a v =>
    match v with
    | .fin _ m e =>
      if m = 0 then a
      else
        let g := (Nat.log2 m : Int) + e
        match a with
        | none => some g
        | some h => some (max g h)
    | _ => a) none

/-- mx_scale (R231). -/
def mxScale (l : List FV) : Nat :=
  if l.any isNanV then 0xFF
  else
    match maxLog l with
    | none => 0x7F
    | some g => (min (max (g - 2 + 127) 0) 254).toNat

/-- The code of a value under scale s (R231). -/
def mxCode (x : FV) (s mode : Nat) (sr : SRand) : Nat :=
  if s = 0xFF then 0
  else
    match x with
    | .fin n m e => bitsOfSr (.fin n m (e + 127 - (s : Int))) 5 mode true { sr with qts := sr.qts + 127 - (s : Int) }
    | v => bitsOfSr v 5 mode true sr

/-! ### The generator (R240) -/

def mix (z k sh : Nat) : Nat := ((z ^^^ (z / 2 ^ sh)) * k) % 2 ^ 64

def rngWord (seed ctr i : Nat) : Nat :=
  let z := (seed % 2 ^ 64) ^^^ (ctr * 0x9E37_79B9_7F4A_7C15 % 2 ^ 64) ^^^ (i * 0xD1B5_4A32_D192_ED03 % 2 ^ 64)
  let z := mix z 0xBF58_476D_1CE4_E5B9 30
  let z := mix z 0x94D0_49BB_1331_11EB 27
  (z ^^^ (z / 2 ^ 31)) % 2 ^ 32

end Sys2Proof.Machine
end

