-- ==== Sys2Proof/Config.lean ====
section
/-! DEFINITION. What the manual leaves to the part or its images: the free values, which no proof can see, and the constants of the configuration image. -/

namespace Sys2Proof.Config

/-- An unpredictable value (R5) of a register, drawn by the counter State.free. -/
opaque freeWord : Nat → Word

/-- An unpredictable value (R5) of a vector register, drawn by the counter State.free. -/
opaque freeVec : Nat → Vec

/-- An unpredictable byte (R5, R316, R473), by the counter State.free and the byte's place. -/
opaque freeByte : Nat → Nat → Byte

/-- How what may go either way goes (R4): which cached entry or packet is no longer held, how far a command gets at once and in what order. -/
opaque choice : Nat → Nat

/-- Units of near memory that a die of another package has carved out (R69, R71, R76). -/
opaque farUnits : Nat → Nat → Nat

/-- Where the firmware places the context save area of a new task, by its identifier (R377, R412). -/
opaque saveArea : Nat → Nat

/-- SHA3-256 digests (R477) of the firmware image (0), the configuration image (1) and the self-test result map (2), by what they hold. -/
opaque digest : Nat → List Nat → List Nat

/-- The ML-DSA-44 signature of 2,420 bytes by the identity key over a report's first 144 bytes (R477). -/
opaque signature : List Nat → Fin 2420 → Byte

/-- The vendor certificate that flash holds (R472, R475). -/
opaque certificate : List Nat

/-- Whether power exceeds the cap at the floor, the firmware's division of a power cap among the dies: MHz limit by
cap and die (R479). -/
opaque powerLimit : Nat → Nat → Nat

end Sys2Proof.Config
end

