-- ==== Sys2Proof/Machine/State.lean ====
section
/-! DEFINITION. The state of the machine: everything the manual gives it, as plain data, and the state after reset. -/

namespace Sys2Proof.Machine

/-- Why the machine stops. No meaning of this model raises one: a trap of the part is a next state (R403). Safe. -/
inductive Fault where
  | none
deriving DecidableEq, Repr

/-- Why an instruction has no meaning. -/
inductive Refusal where
  /-- Raised by an arm of exec that has no meaning yet. Safe: nothing can be proved of such a run. -/
  | notModelled (mnemonic : String)
deriving DecidableEq, Repr

/-- Memory: listed bytes in strictly rising address order, none zero; an unlisted byte is zero (log 2). -/
abbrev Memory := List Host.Cell

/-- A memory with its poison marks and empty marks, by 16-byte granule number (R90, R116). -/
structure Bank where
  mem : Memory := []
  pois : NatSet := []
  empty : NatSet := []
deriving DecidableEq, Repr

/-! ### A context -/

/-- Register kinds, in the numbering of R414. -/
inductive RKind where
  | x | v | p | cc | sr | tile | latch | stg
deriving DecidableEq, Repr

/-- A fixed-latency result in flight (R60, R414): it lands at the end of context cycle `cyc`. `iss`, `slot` and `pc` name
the operation; vector numbers from 56 are appends to streams (R160); `pois` is a poison mark with its address (R95). -/
structure Landing where
  cyc : Nat
  iss : Nat
  slot : Nat
  pc : Nat
  kind : RKind
  num : Nat
  val : Nat
  pois : Option Nat
deriving DecidableEq, Repr

/-- A load whose data has not arrived (R121, R414). `dueAt` is the core cycle in which its landing cycle ended, `noWin`
exempts it from LATEWIN (R117, R222), `waits` says that its data comes from a bank or another package, `lag` after how many core
cycles past its due time its data arrives otherwise (log 5). `area` says what it reads, 1 for scratchpad or accumulator memory
plus 2 for a global address; `dead` that its data is discarded (R121). -/
structure PendLoad where
  id : Nat
  cyc : Nat
  iss : Nat
  slot : Nat
  pc : Nat
  kind : RKind
  num : Nat
  val : Nat
  pois : Option Nat
  addr : Nat
  qual : Nat
  size : Nat
  remote : Bool
  noWin : Bool
  waits : Bool
  dueAt : Option Nat
  lag : Nat
  area : Nat := 0
  dead : Bool := false
deriving DecidableEq, Repr

/-- A stream binding (R157, R158). -/
structure Stream where
  dir : Nat
  fek : Nat
  add : Nat
  ai : Nat
  depth : Nat
  d0 : Word
  d1 : Word
  d2 : Word
  d3 : Word
  pos : Nat
deriving DecidableEq, Repr

/-- Loop start, end and induction register of a level (R360); its TRIP, IDX and STEP are state registers. A context holds those of the
levels in progress and, beside them, those that a level keeps after its end. -/
structure LoopB where
  start : Nat
  last : Nat
  ind : Nat
deriving DecidableEq, Repr

/-- A re-issue image (R36). -/
structure Image where
  w : Nat
  w2 : Nat
  i : Instr
  addr : Nat
  stg : List Nat
deriving DecidableEq, Repr

/-- A recipe entry of register `vd` (R218). `addr` and `rc` are the captured address and rotation code of a load. -/
structure Recipe where
  vd : Nat
  i : Instr
  w : Nat
  w2 : Nat
  scal : List Nat
  addr : Nat
  rc : Nat
  stale : Bool
  code : Nat
  iss : Nat
  slot : Nat
  land : Nat
deriving DecidableEq, Repr

/-- The part of a context that a checkpoint captures and a rollback restores (R213, R395, R400). `old` holds, by stream number, a
binding that was replaced while results of its last bundle were in flight, and the context cycle of that bundle (R160). -/
structure Arch where
  pc : Nat := 0
  scyc : Nat := 0
  x : Tbl Word := []
  v : Tbl Vec := []
  p : Tbl Pred := []
  sr : Tbl Word := []
  xpois : Tbl Nat := []
  vpois : Tbl Nat := []
  ppois : Tbl Nat := []
  vst : Tbl Nat := []
  drops : Tbl Nat := []
  stg : Tbl Word := []
  tiles : Tbl Nat := []
  latches : Tbl Nat := []
  loops : Tbl LoopB := []
  ended : Tbl LoopB := []
  streams : Tbl Stream := []
  old : Tbl (Nat × Stream) := []
  images : Tbl Image := []
  recipes : List Recipe := []
  inflight : List Landing := []
  loads : List PendLoad := []
deriving DecidableEq, Repr

/-- A trap to be taken: cause (R403), detail words, slot of the record, and for an element of an output stream its
producing bundle with its schedule cycle (R160, R482). -/
structure Trap where
  cause : Nat
  d0 : Nat := 0
  d1 : Nat := 0
  d2 : Nat := 0
  d3 : Nat := 0
  slot : Nat := 9
  pc : Option Nat := none
  async : Bool := false
  post : Bool := false
  rlane : Nat := 0
  ncyc : Nat := 0
  nb : Nat := 0
  cyc : Option Nat := none
deriving DecidableEq, Repr

/-- A space of memory that a store or an engine names. -/
inductive Space where
  | glob | sp | acc | code
deriving DecidableEq, Repr

/-- How a withheld entry is performed (R397, R126, R131, R316). -/
inductive WKind where
  | weak | strong | fe | addF | addI | barinit
deriving DecidableEq, Repr

/-- An entry of the store-withholding buffer: one 64-byte line with a byte mask (R397). `unit` is the logical core of a
scratchpad or accumulator line, `rc` the rotation code of a vector store, 4 for the block's own, `ep` the context cycle after which
the last matrix result over the line that the store follows was issued (R300), `cov` which of its four granules one store covered whole (R91),
`iss` the context cycle of its store; one that is not `own` shares the entry of an earlier weak store to its line, whose bytes it follows. -/
structure WEnt where
  sp : Space
  unit : Nat
  line : Nat
  mask : Nat
  data : Nat
  kind : WKind
  rc : Nat
  pc : Nat
  slot : Nat
  ep : Nat
  cov : Nat
  iss : Nat := 0
  own : Bool := true
deriving DecidableEq, Repr

/-- A captured engine command (R137): its header, its staging set, its issuer, what was resolved at capture, the number of its release,
and the progress of a running one (R154): steps done, destination ranges written (core and code, offset, bytes), tiles whose bytes read unpredictable (R299), what
an operation in hand must remember. -/
structure Cmd where
  id : Nat
  kind : Nat
  op : Nat
  h : CHdr
  stg : List Nat
  pcore : Nat
  ctx : Nat
  task : Nat
  asid : Nat
  lcore : Nat
  swzoff : Bool
  gid : Nat
  capt : Nat
  released : Nat
  rel : Nat := 0
  started : Bool := false
  row : Nat := 0
  waitx : Option Nat := none
  fault : Option Trap := none
  fin : Bool := false
  loose : Bool := false
  past : NatSet := []
  cover : List (Nat × Nat × Nat) := []
  unpred : List (Nat × Nat × Nat) := []
  aux : List Nat := []
deriving DecidableEq, Repr

/-- What a commit still has to do at its step 4, with its operands as read at issue (R395, R407). -/
structure CommitOp where
  slot : Nat
  i : Instr
  vals : List Nat
  lane : Nat
  cmd : Option Cmd
deriving DecidableEq, Repr

/-- An element of an input stream's window: its value or the condition that marks it, and its 64-byte lines as space, unit, offset
or physical address (R159). -/
structure Elem where
  val : Nat
  lines : List (Space × Nat × Nat)
  mark : Option Trap
deriving DecidableEq, Repr

/-- A replay in progress (R222): it lands in `vd` at the end of core cycle `at_`. -/
structure Replay where
  vd : Nat
  val : Nat
  at_ : Nat
deriving DecidableEq, Repr

/-- A transfer, token operation or atomic that holds its context (R106, R427, R407; of the atomic log 62), its bundle, and what that
bundle still does after its commit; `ref` numbers the answer that an atomic awaits, `lane` is the lane from which it goes on. -/
structure Hold where
  slot : Nat
  i : Instr
  vals : List Nat
  rest : List CommitOp
  pc : Nat := 0
  after : Option Instr := none
  ref : Nat := 0
  lane : Nat := 0
deriving DecidableEq, Repr

/-- What is left of a delivery, save or reload that waits on a translation fault of its frame (R412). -/
inductive FrameJob where
  | user (t : Trap) | super (t : Trap) (dbl : Bool) | save | yieldSave | reload | rett (pc : Nat)
deriving DecidableEq, Repr

/-- A context: the live state, the checkpoint image, and what a rollback keeps or discards as a whole. `presented` names the pairing
group of a presented MMAP, the core cycle of its presentation and the partner's logical core (R307, R308), `drainOn` the domain on which
a drain waits, `drainGo` one whose gap event has released it (R322). -/
structure Ctx where
  task : Option Nat := none
  arch : Arch := {}
  image : Arch := {}
  held : List CommitOp := []
  wbuf : List WEnt := []
  win : Tbl (List Elem) := []
  post : List CommitOp := []
  hold : Option Hold := none
  job : Option FrameJob := none
  replay : Option Replay := none
  inh : Bool := false
  trpend : Option Trap := none
  ckexp : Nat := 0
  ckimp : Nat := 0
  nb : Nat := 0
  postPc : Nat := 0
  rets : List Nat := []
  pkts : Tbl (List Nat) := []
  pktPois : NatSet := []
  offer : Nat := 0
  wait : Nat := 0
  prom : Bool := false
  promCyc : Nat := 0
  waited : Nat := 0
  presented : Option (Nat × Nat × Nat) := none
  bnd : Bool := false
  drainOn : Option Nat := none
  drainGo : Option Nat := none
  swait : Tbl Nat := []
  jobIdx : Option Nat := none
  frameLoads : List PendLoad := []
  chain : Bool := false
  preempt : Bool := false
  stop : Bool := false
  stopped : Bool := false
  wrote : NatSet := []
deriving DecidableEq, Repr

/-! ### Cores -/

/-- A matrix result that is not written yet (R296, R297): the captured operand rows, scales and poison, the tile, and the core
cycle from which it may be written. `iss` is the context cycle of its issue; a written one stays listed while its context's cycles up
to `cyc` last (R299). -/
structure MRes where
  ctx : Nat
  iss : Nat
  cyc : Nat
  lcore : Nat
  tile : Nat
  acc : Bool
  ta : Nat
  tb : Nat
  k : Nat
  a : List Nat
  b : List Nat
  sa : Nat
  sb : Nat
  pa : NatSet
  pb : NatSet
  at_ : Nat
  committed : Bool
  written : Bool := false
deriving DecidableEq, Repr

/-- A TLB entry (R81): address space and 64 KiB page, the leaf and its level, and the region state that it caches, which a change of the
region's entry removes (R87). -/
structure TlbEnt where
  asid : Nat
  page : Nat
  leaf : Nat
  lvl : Nat
  reg : Option Nat
deriving DecidableEq, Repr

/-- A physical core: contexts, selector, ready queues, engines, control registers (R383, R384, R136, R290, R337, R480). `joint` is
the context whose half of a pair issued in the selector's cycle that comes (R307); `joins` holds, by level, the last core cycle in which tasks
joined the ready queue and how many (R378). -/
structure PCore where
  ctxs : Tbl Ctx := []
  rr : Nat := 0
  joint : Option Nat := none
  ready : Tbl (List Nat) := []
  joins : Tbl (Nat × Nat) := []
  cyc : Nat := 0
  copyQ : List Cmd := []
  sieveQ : List Cmd := []
  matBusy : Nat := 0
  matPend : List MRes := []
  accsvGo : Bool := false
  accsvAct : Nat := 0
  accsvErr : Bool := false
  accsvTd : Nat := 0
  accsvAddr : Nat := 0
  dup : Bool := false
  slog : Bool := false
  replay : Bool := false
  trace : Bool := false
  snap : Bool := false
  replayAt : Nat := 0
  replayRun : Nat := 0
  logCtx : Nat := 4
  logRun : Nat := 0
  orphans : Nat := 0
  ttBusy : Bool := false
  tlb : List TlbEnt := []
deriving DecidableEq, Repr

/-- A ticketed part (R318): one 64-byte word of lanes from `lane0`. `pcore` is the sending port, `cmd` the collective that
sends it, 0 for a context; `id` names it, `iss` and `slot` its operation. -/
structure Part where
  td : Nat
  ticket : Nat
  op : Nat
  mask : Nat
  lane0 : Nat
  off : Nat
  pay : List Nat
  asid : Nat
  lcore : Nat
  pcore : Nat
  task : Nat
  addr : Nat
  refused : Bool := false
  cmd : Nat := 0
  id : Nat := 0
  iss : Nat := 0
  slot : Nat := 0
deriving DecidableEq, Repr

/-- A ticket domain (R317). -/
structure Dom where
  state : Nat := 0
  owner : Nat := 0
  asid : Nat := 0
  base : Nat := 0
  count : Nat := 0
  next : Nat := 0
  nmask : Nat := 0
  ndone : Nat := 0
  skip : Nat := 0
  pend : Nat := 0
  applied : Nat := 0
  dup : Nat := 0
  skipped : Nat := 0
  invalid : Bool := false
  overflow : Bool := false
  gapev : Bool := false
  win : Nat := 0
  timer : Nat := 0
  opened : Bool := false
deriving DecidableEq, Repr

/-- A full/empty request waiting at a bank (R117): the load it serves and the bytes it reads. `own` are the stores that its context
withheld before it, and `nck` numbers the commit that performs them (R98, R125). -/
structure BankWait where
  id : Nat
  acc : Bool
  off : Nat
  len : Nat
  rc : Nat
  keep : Bool
  sx : Nat
  pn : Nat
  old : Nat
  own : List WEnt := []
  nck : Nat := 0
deriving DecidableEq, Repr

/-- A logical core's memories, held by the physical core that hosts it (R380). Scratchpad bytes, marks and empty bits stand
at their bank positions: row, bank, byte (R110). -/
structure LCore where
  sp : Bank := {}
  acc : Bank := {}
  code : Bank := {}
  tags : Tbl Nat := []
  perm : Tbl Nat := []
  ttile : Tbl Nat := []
  doms : Tbl Dom := []
  parts : List Part := []
  waits : List BankWait := []
deriving DecidableEq, Repr

/-- A pin of the block table (R177): entry address, version, the command that holds it. -/
structure Pin where
  entry : Nat
  ver : Nat
  cmd : Nat
deriving DecidableEq, Repr

/-- A cluster: the gather engine and the conflict matrix (R178, R485). -/
structure Cluster where
  gq : List Cmd := []
  pins : List Pin := []
  cells : Tbl Nat := []
  tlb : List TlbEnt := []
deriving DecidableEq, Repr

/-! ### Tasks and groups -/

/-- A task record (R377), with what stays with the task while no context runs it: its parked commands by kind (R155) and its
pending asynchronous causes (R323, R155). -/
structure Task where
  entry : Nat := 0
  arg : Nat := 0
  state : Nat := 0
  prio : Nat := 0
  asid : Nat := 0
  id : Nat := 0
  gidx : Nat := 0
  dep : Nat := 0
  lockq : Nat := 0
  lcore : Nat := 0
  gv : Tbl Bool := []
  gw : Tbl Bool := []
  gid : Tbl Nat := []
  gt : Tbl Nat := []
  dept0 : Nat := 0
  dept1 : Nat := 0
  trapvec : Nat := 0
  done : Nat := 0
  save : Nat := 0
  ran : Bool := false
  gp : Bool := false
  launch : Nat := 0
  parked : Tbl Cmd := []
  async : List Trap := []
  flush : Nat := 0
deriving DecidableEq, Repr

/-- A group entry (R386); `v` says that it is in use, and a freed one keeps its other fields. `toutFor` is the task that takes the recorded timeout (R308), `dies` are the dies that hold a spanning group's
entry (R382). -/
structure Group where
  v : Bool := false
  pair : Bool := false
  mcast : Bool := false
  gang : Bool := false
  xdie : Bool := false
  tout : Bool := false
  toutFor : Nat := 0
  nmem : Nat := 0
  nleft : Nat := 0
  arr : Nat := 0
  phase : Nat := 0
  dies : NatSet := []
deriving DecidableEq, Repr

/-- A launch in progress (R393); `sent` numbers the request for its completion word on another package, whose answer it awaits. -/
structure Launch where
  id : Nat
  die : Nat
  slot : Nat
  tasks : List Nat
  done : Nat
  asid : Nat
  sent : Option Nat := none
deriving DecidableEq, Repr

/-- A submission slot and its list (R367, R373, R467). `waitRef` is a request for a counter word of another package, `got` its
answer with its poison mark. -/
structure Sub where
  addr : Nat := 0
  asid : Nat := 0
  busy : Bool := false
  done : Bool := false
  fail : Bool := false
  code : Nat := 0
  entry : Nat := 0
  pc : Nat := 0
  calls : List Nat := []
  loops : List (Nat × Nat) := []
  launches : List Nat := []
  waitRef : Option Nat := none
  got : Option (Nat × Bool) := none
  skip : Nat := 0
deriving DecidableEq, Repr

/-! ### A die -/

/-- A fill demand (R181, R183): table, layer, block, and the command that raised it. -/
structure Demand where
  tbl : Nat
  layer : Nat
  lb : Nat
  cmd : Cmd
  waitx : Option Nat := none
deriving DecidableEq, Repr

/-- A held copy of an outstanding message (R419, R422), how often it was refused, and what its answer serves: the load or part
`ref`, its lane, whether the value is sign-extended, or the requester `req` of a line. `task` sent it as its number `num`; the line
that a `stale` one brings is not kept, since it was written or given up meanwhile. -/
structure Copy where
  m : Msg
  tries : Nat
  ref : Nat
  lane : Nat
  sx : Bool
  task : Nat := 0
  num : Nat := 0
  req : Nat := 0
  stale : Bool := false
deriving DecidableEq, Repr

/-- A line that a read has brought to its requester (R426), with the poison of its 16 granules. -/
structure Got where
  req : Nat
  line : Nat
  data : Nat
  pois : Nat
deriving DecidableEq, Repr

/-- An operation on a ticket domain of another package, as it leaves for its controller (R326): what sends it, the address, the
domain, its operands. -/
structure Away where
  die : Nat
  task : Nat
  i : Instr
  pa : Nat
  vals : List Nat
deriving DecidableEq, Repr

/-- A registration of the exit-notice unit (R438): key (STEP above STREAM) and where the table lies. -/
structure Reg where
  key : Nat
  lcore : Nat
  off : Nat
deriving DecidableEq, Repr

/-- A queued notice (R439). -/
structure Notice where
  key : Nat
  origin : Nat
  blk : Nat
deriving DecidableEq, Repr

/-- A member of an Elwiset view (R441 to R449): its limit, the stamp of its last heartbeat, the newest sequence number seen, none
before its first notice, and its one pending change: its tick, the limit from then on, or its removal. -/
structure Member where
  limit : Nat
  silent : Bool := false
  last : Nat := 0
  seq : Option Nat := none
  pendTick : Option Nat := none
  pendLimit : Nat := 0
  removal : Bool := false
  evict : Bool := false
  joining : Bool := false
deriving DecidableEq, Repr

/-- A proposed raise of a subject: its tick, its limit, who has acknowledged (R445). -/
structure Proposal where
  tick : Nat
  mhz : Nat
  acks : NatSet := []
deriving DecidableEq, Repr

/-- The Elwiset block of a die and its view of the group, the die itself included (R441 to R453). `frac` counts core cycles within
the microsecond, `slew` ticks that a fast counter holds back. `hosting` is the joiner that this die serves as its contact and `hostEgid`
the group of that join, `founded` says that the die has its EGID from a join that it served, `joinMhz` is the limit that its JOIN named. -/
structure Elw where
  egid : Nat := 0
  seq : Nat := 0
  gtime : Nat := 0
  frac : Nat := 0
  slew : Nat := 0
  members : Tbl Member := []
  lastTick : Nat := 0
  ceiling : Nat := 700
  cap : Nat := 700
  thermal : Nat := 700
  powerLim : Nat := 700
  current : Nat := 700
  announced : Nat := 700
  props : Tbl Proposal := []
  retry : Tbl (Nat × Nat) := []
  raises : Tbl (Nat × Nat × Nat) := []
  joinEgid : Nat := 0
  joinContact : Nat := 0
  joinTick : Option Nat := none
  joinN : Nat := 0
  joinView : Tbl Member := []
  joinMhz : Nat := 0
  hosting : Option Nat := none
  hostEgid : Nat := 0
  founded : Bool := false
  leaveAt : Option Nat := none
  cmd : Nat := 0
  err : Bool := false
  go : Bool := false
  mhz : Nat := 700
  events : List (Nat × Nat × Nat) := []
  halted : Bool := false
deriving DecidableEq, Repr

/-- The debug block, rings, black box and counters of a die (R480 to R489). -/
structure Dbg where
  space : Nat := 0
  err : Bool := false
  unit : Nat := 0
  offset : Nat := 0
  rbase : Tbl Nat := []
  rlen : Tbl Nat := []
  rhead : Tbl Nat := []
  rdrop : Tbl Nat := []
  seq : Nat := 0
  bbox : List (Nat × Nat × Nat × Nat × Nat) := []
  corr : Tbl Nat := []
  unc : Tbl Nat := []
  proto : Nat := 0
  data : Nat := 0
deriving DecidableEq, Repr

/-- A compute die with its cache die, control blocks, tables and die-level engines. -/
structure Die where
  units : Nat := 0
  nmErr : Bool := false
  nmBusy : Bool := false
  nmNew : Nat := 0
  xlAsidBase : Nat := 0
  xlGo : Bool := false
  xlScope : Nat := 0
  xlAsid : Nat := 0
  xlVa : Nat := 0
  fqBase : Nat := 0
  fqHead : Nat := 0
  fqTail : Nat := 0
  locks : List (Nat × Nat) := []
  tasks : Tbl Task := []
  groups : Tbl Group := []
  remap : Tbl Nat := []
  subs : Tbl Sub := []
  demands : List Demand := []
  fillQ : List Cmd := []
  collQ : List Cmd := []
  collRdy : List (Nat × Nat) := []
  noteQ : List Cmd := []
  regs : List Reg := []
  notices : List Notice := []
  pkg : Nat := 0
  npkgm1 : Nat := 0
  p0en : Bool := false
  p1en : Bool := false
  tag : Nat := 0
  copies : List Copy := []
  tokQ : List Msg := []
  recalls : List Msg := []
  hopErr : Tbl Nat := []
  hopDown : NatSet := []
  ready : Bool := false
  failed : Bool := false
  noid : Bool := false
  stage : Nat := 0
  hevt : List (Nat × Nat × Nat) := []
  fwEvents : List (Nat × Nat) := []
  elw : Elw := {}
  dbg : Dbg := {}
deriving DecidableEq, Repr

/-- The signed configuration image (R470); the values are the model's (log 4). -/
structure Cfg where
  remap : Tbl Nat := []
  p1en : Bool := false
  p0en : Bool := false
  npkgm1 : Nat := 0
  pkg : Nat := 0
  units : Nat := 0
  mhz : Nat := 700
  hdmSize : Nat := 0x4000_0000
  hdmOff : Nat := 0
  tthr : Nat := 95
deriving DecidableEq, Repr

/-- What the module shows to host and baseboard (R464 to R479). `booting` holds what start-up will find while it runs, `selfTest` the cores
and gather engines that the self-test mapped out, `capped` whether a power cap has been set, `pending` the response of the Worulmon request in
progress, and `mailbox` the responses that the firmware has posted for the host. -/
structure HostS where
  lanes : Nat := 0
  started : Bool := false
  booting : Option StartFind := none
  selfTest : List Nat × List Nat := ([], [])
  capped : Bool := false
  pending : Option (List Nat) := none
  mailbox : List (List Nat) := []
  line : Nat := 3
  minor : Nat := 0
  build : Nat := 0
  serial : Nat := 0
  cap : Nat := 2600
  eid : Nat := 0
  responses : List (List Nat) := []
  msix : NatSet := []
  reads : List (List Nat × Bool) := []
  cfgReplies : List Nat := []
deriving DecidableEq, Repr

/-! ### The bundle in progress -/

/-- A write that lands at the end of the bundle's own context cycle (R158, R241, R361). -/
inductive EndOp where
  | bind (n : Nat) (st : Option Stream)
  | loopSet (lvl trip start last ind : Nat) (act : Bool)
  | rng
  | sync (n : Nat)
deriving DecidableEq, Repr

/-- The bundle that issues: its address, its fall-through, what its operations leave for its end. `checked` says that the
checks of all its operations have been made (R43, R404), `stores` the scratchpad lines that its slots store to,
`target` and `cost` where the context goes on and after how many core cycles (R354), `out` the address whose bodies alone stay in
progress, `outAll` that no body does (R363), `heads` the stream elements that the bundle reads (R46), `incs` the counters that
earlier slots increment (R137), `tile` the tile that its M slot writes, as its word and
rows (R299). -/
structure Bun where
  checked : Bool := false
  pc : Nat := 0
  next : Nat := 0
  words : Nat := 0
  ck : Bool := false
  asif : Bool := false
  target : Option Nat := none
  cost : Nat := 1
  out : Option Nat := none
  outAll : Bool := false
  noEnd : Bool := false
  bh : Nat := 0
  ops : List CommitOp := []
  ends : List EndOp := []
  apps : List Nat := []
  incs : List Nat := []
  reads : NatSet := []
  stores : List (Nat × Nat × Nat) := []
  heads : Tbl Nat := []
  after : Option Instr := none
  pages : List Nat := []
  tile : Option (Nat × Nat) := none
  snap : Option Nat := none
deriving DecidableEq, Repr

/-- The machine. `agenda`, `order`, `turn`, `nextKind`, `lastList`, `late`, `free`, `lot` and `fresh` are the model's own (log 3, log 5,
log 6, log 14): events due, cores in turn, whether an event inside the machine comes next and of which kind, the list stepped last, the
lags of loads to come, counters of free values and of names, the lot of what may go either way. `mem` is the global memory of this
package with the lines that it holds of others; `memGen` and `nearGen` number what its unlisted bytes read as: 0 after power-on (log 2),
free values after a warm reset (R473) or, by die, after a change of the near-memory carve-out (R76). `station` holds messages that wait at a station of the fabric (R420), `got` lines that reached a
stream, an engine or a list and that it has not used, `away` what is known of the ticket domains of other packages (R326), `shadow` the
registers of an interrupted task and `cmds` its captured commands, for what its frame does not hold (R156, R409, log 10, log 20). A listed byte stands as its difference (exclusive or) from that. -/
structure State where
  agenda : List Instr := []
  order : List Nat := []
  turn : Bool := false
  nextKind : Nat := 0
  lastList : Nat := 0
  cur : Nat := 0
  ctx : Nat := 0
  slot : Nat := 0
  bun : Bun := {}
  kept : Option Image := none
  late : List Nat := []
  free : Nat := 0
  lot : Nat := 0
  fresh : Nat := 1
  cores : Tbl PCore := []
  lcores : Tbl LCore := []
  clusters : Tbl Cluster := []
  dies : Tbl Die := []
  mem : Bank := {}
  memGen : Nat := 0
  nearGen : Tbl Nat := []
  rlines : NatSet := []
  got : List Got := []
  station : List (Nat × Msg) := []
  away : List Away := []
  regions : Tbl Nat := []
  parts : List Part := []
  fabric : List Msg := []
  launches : List Launch := []
  saved : Tbl (List PendLoad) := []
  savedH : Tbl (List PendLoad) := []
  rows : Tbl (List Nat) := []
  shadow : Tbl Arch := []
  cmds : Tbl (List Cmd) := []
  cfg : Cfg := {}
  host : HostS := {}
deriving DecidableEq, Repr

/-- The machine right after reset: every field at the value the manual states, else at the value of log 1 and log 4. -/
def State.reset : State := {}

end Sys2Proof.Machine
end

