-- ==== Sys2Proof/Machine/Mem.lean ====
section
/-! DEFINITION. Memories as lists of bytes in canonical form, with poison and empty marks (R10, R90, R91, R116). -/

namespace Sys2Proof.Machine

/-- The canonical form: strictly rising addresses, no listed byte equal to the unlisted byte 0. -/
def Memory.wf : Memory → Bool
  | [] => true
  | [(_, b)] => b != 0
  | (a, b) :: (a', b') :: m => a < a' && b != 0 && Memory.wf ((a', b') :: m)

/-- What an address reads as; an unlisted byte is 0 (log 2). -/
def Memory.read (m : Memory) (a : Nat) : Byte := Tbl.get 0 m a

/-- One byte written. -/
def Memory.write (m : Memory) (a : Nat) (b : Byte) : Memory := if b = 0 then Tbl.del m a else Tbl.put m a b

/-- Little-endian number of `n` bytes from `a`. -/
def Memory.readN (m : Memory) (a : Nat) : Nat → Nat
  | 0 => 0
  | n + 1 => (Memory.read m a).toNat + 256 * Memory.readN m (a + 1) n

/-- A list of bytes written, the later of two at one address last. -/
def Memory.writeL (m : Memory) : List (Nat × Nat) → Memory
  | [] => m
  | (a, b) :: l => Memory.writeL (Memory.write m a (BitVec.ofNat 8 b)) l

/-- Whether a granule's 16 bytes are all among the addresses. -/
def covers (l : List (Nat × Nat)) (g : Nat) : Bool := (List.range 16).all (fun i => l.any (fun t => t.1 == 16 * g + i))

/-- Whether the granule of an address is poisoned. -/
def Bank.isPois (k : Bank) (a : Nat) : Bool := NatSet.mem k.pois (a / 16)

/-- The first address of the list that lies in a poisoned granule. -/
def Bank.firstPois (k : Bank) (l : List Nat) : Option Nat := l.find? (fun a => k.isPois a)

/-- A clean write: a granule wholly covered loses its poison (R91). -/
def Bank.store (k : Bank) (l : List (Nat × Nat)) : Bank :=
  { k with mem := k.mem.writeL l, pois := k.pois.filter (fun g => !covers l g) }

/-- A write of poisoned data: every granule touched is poisoned whole (R91). -/
def Bank.storePois (k : Bank) (l : List (Nat × Nat)) : Bank :=
  { k with mem := k.mem.writeL l, pois := l.foldl (fun s t => NatSet.insert s (t.1 / 16)) k.pois }

/-- Sets the granules of the addresses full (R116). -/
def Bank.fill (k : Bank) (l : List Nat) : Bank := { k with empty := l.foldl (fun s a => NatSet.erase s (a / 16)) k.empty }

/-- Empties the granules of the addresses (R116). -/
def Bank.drain (k : Bank) (l : List Nat) : Bank := { k with empty := l.foldl (fun s a => NatSet.insert s (a / 16)) k.empty }

/-- Whether every granule of the addresses is full. -/
def Bank.full (k : Bank) (l : List Nat) : Bool := l.all (fun a => !NatSet.mem k.empty (a / 16))

/-- Bytes of the numbers `v` at addresses `a`, a + 1, … -/
def spread (a : Nat) : Nat → Nat → List (Nat × Nat)
  | 0, _ => []
  | n + 1, v => (a, v % 256) :: spread (a + 1) n (v / 256)

/-- Those of the bytes that the mask names, bit i for byte i. -/
def maskBytes (a : Nat) : Nat → Nat → Nat → List (Nat × Nat)
  | 0, _, _ => []
  | n + 1, m, v => if m % 2 = 1 then (a, v % 256) :: maskBytes (a + 1) n (m / 2) (v / 256) else maskBytes (a + 1) n (m / 2) (v / 256)

end Sys2Proof.Machine
end

