-- ==== Sys2Proof/Machine/Access.lean ====
section
/-! DEFINITION. Where each piece of state lies: cores, contexts, dies, tasks, registers; one reader and one writer each. -/

namespace Sys2Proof.Machine

/-! ### Units -/

def State.core (s : State) (p : Nat) : PCore := Tbl.get {} s.cores p
def State.setCore (s : State) (p : Nat) (c : PCore) : State := { s with cores := Tbl.put s.cores p c }
def State.modCore (s : State) (p : Nat) (f : PCore → PCore) : State := s.setCore p (f (s.core p))

def State.ctxAt (s : State) (p c : Nat) : Ctx := Tbl.get {} (s.core p).ctxs c
def State.setCtxAt (s : State) (p c : Nat) (k : Ctx) : State :=
  s.modCore p (fun q => { q with ctxs := Tbl.put q.ctxs c k })
def State.modCtxAt (s : State) (p c : Nat) (f : Ctx → Ctx) : State := s.setCtxAt p c (f (s.ctxAt p c))

/-- The context whose bundle issues. -/
def State.cx (s : State) : Ctx := s.ctxAt s.cur s.ctx
def State.setCx (s : State) (k : Ctx) : State := s.setCtxAt s.cur s.ctx k
def State.modCx (s : State) (f : Ctx → Ctx) : State := s.setCx (f s.cx)

/-- Its live registers. -/
def State.ar (s : State) : Arch := s.cx.arch
def State.setAr (s : State) (a : Arch) : State := s.modCx (fun k => { k with arch := a })
def State.modAr (s : State) (f : Arch → Arch) : State := s.setAr (f s.ar)

def State.modBun (s : State) (f : Bun → Bun) : State := { s with bun := f s.bun }

def State.lcore (s : State) (l : Nat) : LCore := Tbl.get {} s.lcores l
def State.setLcore (s : State) (l : Nat) (c : LCore) : State := { s with lcores := Tbl.put s.lcores l c }
def State.modLcore (s : State) (l : Nat) (f : LCore → LCore) : State := s.setLcore l (f (s.lcore l))

def State.cluster (s : State) (n : Nat) : Cluster := Tbl.get {} s.clusters n
def State.modCluster (s : State) (n : Nat) (f : Cluster → Cluster) : State :=
  { s with clusters := Tbl.put s.clusters n (f (s.cluster n)) }

def State.die (s : State) (d : Nat) : Die := Tbl.get {} s.dies d
def State.setDie (s : State) (d : Nat) (x : Die) : State := { s with dies := Tbl.put s.dies d x }
def State.modDie (s : State) (d : Nat) (f : Die → Die) : State := s.setDie d (f (s.die d))

/-- Die and cluster of a core number, physical or logical (R20): die × 96 + cluster × 24 + core. -/
def dieOf (core : Nat) : Nat := core / 96
def clusterOf (core : Nat) : Nat := core / 24
def coreIn (core : Nat) : Nat := core % 24

/-- LCORE's layout (R216) from a core number. -/
def lcoreWord (l : Nat) : Nat := dieOf l * 2 ^ 16 + clusterOf l % 4 * 2 ^ 8 + coreIn l

/-- The physical core that hosts a logical core: the remap table (R379). -/
def State.hostOf (s : State) (l : Nat) : Nat :=
  24 * clusterOf l + Tbl.get (coreIn l) (s.die (dieOf l)).remap (l % 96)

/-! ### Tasks -/

/-- A task record by identifier (R376). -/
def State.task (s : State) (id : Nat) : Task := Tbl.get {} (s.die (fld id 18 16)).tasks (fld id 15 0)
def State.setTask (s : State) (id : Nat) (t : Task) : State :=
  s.modDie (fld id 18 16) (fun d => { d with tasks := Tbl.put d.tasks (fld id 15 0) t })
def State.modTask (s : State) (id : Nat) (f : Task → Task) : State := s.setTask id (f (s.task id))

/-- The identifier of a context's task; 0 where it holds none. -/
def Ctx.tid (k : Ctx) : Nat := k.task.getD 0
def State.tid (s : State) : Nat := s.cx.tid
def State.myTask (s : State) : Task := s.task s.tid
def State.asid (s : State) : Nat := s.myTask.asid
/-- The logical core of the issuing context's task. -/
def State.lc (s : State) : Nat := s.myTask.lcore

/-! ### Registers -/

/-- A scalar register: x0 reads as zero (R45). -/
def Arch.getX (a : Arch) (n : Nat) : Word := if n = 0 then 0 else Tbl.get 0 a.x n
/-- A write of x0 is discarded (R45). -/
def Arch.setX (a : Arch) (n : Nat) (v : Word) : Arch := if n = 0 then a else { a with x := Tbl.put a.x n v }

/-- A vector register: one that is not RESIDENT reads as zero (R214). -/
def Arch.getV (a : Arch) (n : Nat) : Vec := if Tbl.get 0 a.vst n = 1 then Tbl.get 0 a.v n else 0
def Arch.setV (a : Arch) (n : Nat) (v : Vec) : Arch := { a with v := Tbl.put a.v n v }

/-- A predicate register: p0 reads as all true (R45). -/
def Arch.getP (a : Arch) (n : Nat) : Pred := if n = 0 then BitVec.allOnes 256 else Tbl.get 0 a.p n
def Arch.setP (a : Arch) (n : Nat) (v : Pred) : Arch := if n = 0 then a else { a with p := Tbl.put a.p n v }

/-- The reset value of a state register (R96, R123, R197, R216). -/
def srReset (n : Nat) : Word :=
  match n with
  | 0x005 => 0x8888_8888_8888_8888
  | 0x008 => 0x1000_0100
  | 0x009 => 4096
  | 0x00A => 65536
  | _ => 0

def Arch.getSr (a : Arch) (n : Nat) : Word := Tbl.get (srReset n) a.sr n
def Arch.setSr (a : Arch) (n : Nat) (v : Word) : Arch := { a with sr := Tbl.put a.sr n v }

def State.rx (s : State) (n : Nat) : Word := s.ar.getX n
def State.rp (s : State) (n : Nat) : Pred := s.ar.getP n

/-- A staging register (R141): kind, set, index. -/
def stgNum (k set i : Nat) : Nat := k * 32 + set * 16 + i
def Arch.getStg (a : Arch) (n : Nat) : Word := Tbl.get 0 a.stg n

/-- A fresh number for loads and commands. -/
def State.freshId (s : State) : Nat := s.fresh
def State.bump (s : State) : State := { s with fresh := s.fresh + 1 }

/-- The next free value (log 6). -/
def State.drawWord (s : State) : Word × State := (Config.freeWord s.free, { s with free := s.free + 1 })

/-! ### Events and counters of a die -/

/-- Posts an event for the command processors: 1 a translation fault (R83), 2 a trap (R405), 3 an engine fault after ENDT (R392), 4
a link event (R420), 5 an Elwiset event (R452); and a detail. -/
def State.fwEvent (s : State) (d kind detail : Nat) : State :=
  s.modDie d (fun x => { x with fwEvents := x.fwEvents ++ [(kind, detail)] })

/-- A black-box record (R487): kind, unit, detail; the last 4,096 are kept. -/
def State.blackBox (s : State) (d kind unit detail : Nat) : State :=
  s.modDie d (fun x =>
    let g := x.dbg
    let l := g.bbox ++ [(g.seq, kind, unit, x.elw.gtime, detail)]
    { x with dbg := { g with seq := g.seq + 1, bbox := l.drop (l.length - 4096) } })

end Sys2Proof.Machine
end

