-- ==== Sys2Proof/Machine/Global.lean ====
section
/-! DEFINITION. Global memory: the physical map, translation, regions, bytes at physical addresses (R69 to R92). -/

namespace Sys2Proof.Machine

/-! ### The physical map (R69 to R71) -/

/-- What stands at a physical address of this package's map. -/
inductive Home where
  | mem (die : Nat)
  | acc (lcore off : Nat)
  | hole
deriving DecidableEq, Repr

/-- UNITS of a die of the package that a physical address names: a die of another package is judged by what that one has carved out (R69). -/
def State.unitsAt (s : State) (pkg k : Nat) : Nat := if pkg = (s.die k).pkg then (s.die k).units else Config.farUnits pkg k % 17

/-- R70, R71. The near-memory carve-out of die k is UNITS × 16 MiB. -/
def State.home (s : State) (pa : Nat) : Home :=
  let o := pa % 2 ^ 44
  if o < 0x80_0000_0000 then .mem (o / 2 ^ 36)
  else if 0x200_0000_0000 ≤ o && o < 0x400_0000_0000 then .mem ((o - 0x200_0000_0000) / 2 ^ 38)
  else if 0x400_0000_0000 ≤ o && o < 0x400_8000_0000 then
    let n := o - 0x400_0000_0000
    if n % 2 ^ 28 < s.unitsAt (pa / 2 ^ 44) (n / 2 ^ 28) * 2 ^ 24 then .mem (n / 2 ^ 28) else .hole
  else if 0x500_0000_0000 ≤ o && o < 0x500_8000_0000 then
    let n := o - 0x500_0000_0000
    let core := n / 2 ^ 21 % 32
    if core < 24 && n % 2 ^ 21 < 0x8_0000 then .acc (n / 2 ^ 28 * 96 + n / 2 ^ 26 % 4 * 24 + core) (n % 2 ^ 21) else .hole
  else .hole

/-- Whether the address lies on this package, as the accessing die's RINGCFG numbers it (R69, R424). -/
def State.isLocal (s : State) (d pa : Nat) : Bool := pa / 2 ^ 44 == (s.die d).pkg

/-- Near memory, accumulator windows and other packages take no line locks (R99). -/
def isNear (pa : Nat) : Bool := inRange 0x400_0000_0000 0x400_7FFF_FFFF (pa % 2 ^ 44)
def isAccWin (pa : Nat) : Bool := inRange 0x500_0000_0000 0x500_7FFF_FFFF (pa % 2 ^ 44)

/-- Whether a page lies wholly or partly in a hole (R82 code 5, R424). -/
def State.pageHole (s : State) (d pa size : Nat) : Bool :=
  if (s.die d).npkgm1 < pa / 2 ^ 44 then true
  else if isNear pa then (List.range (ceilDiv size (2 ^ 24))).any (fun i => s.home (pa + i * 2 ^ 24) == .hole)
  else s.home pa == .hole || s.home (pa + size - 1) == .hole || (isAccWin pa && 2 ^ 19 < size)

/-! ### Bytes at physical addresses -/

/-- Firmware-reserved area of the black-box mirror in a die's own stack (R487); the place is the model's (log 4). -/
def mirrorBase (pkg d : Nat) : Nat := pkg * 2 ^ 44 + d * 2 ^ 36 + (2 ^ 36 - 0x2_1000)

/-- Whether an address lies in a mirror area, which a warm reset leaves as it is (R473). -/
def inMirror (pa : Nat) : Bool := pa % 2 ^ 44 < 0x80_0000_0000 && 2 ^ 36 - 0x2_1000 ≤ pa % 2 ^ 36

/-- The number of what an unlisted byte reads as. -/
def State.genOf (s : State) (pa : Nat) : Nat :=
  if isNear pa && s.isLocal (pa % 2 ^ 31 / 2 ^ 28) pa then Tbl.get s.memGen s.nearGen (pa % 2 ^ 31 / 2 ^ 28) else if inMirror pa then 0 else s.memGen

/-- What an unlisted byte of memory reads as: 0 or a free value (R76, R473, log 2, log 6). -/
def State.blank (s : State) (pa : Nat) : Byte := if s.genOf pa = 0 then 0 else Config.freeByte (s.genOf pa) pa

/-- A byte of memory. -/
def State.memByte (s : State) (pa : Nat) : Byte := s.mem.mem.read pa ^^^ s.blank pa

/-- Bytes written to memory. -/
def State.memStore (s : State) (l : List (Nat × Nat)) (pois : Bool) : State :=
  let l := l.map (fun t => (t.1, (t.2 % 256) ^^^ (s.blank t.1).toNat))
  { s with mem := if pois then s.mem.storePois l else s.mem.store l }

/-- Little-endian number of `n` bytes of memory from `pa`. -/
def State.memN (s : State) (pa : Nat) : Nat → Nat
  | 0 => 0
  | n + 1 => (s.memByte pa).toNat + 256 * s.memN (pa + 1) n

def State.readPA (s : State) (pa : Nat) : Byte :=
  match s.home pa with
  | .acc l o => (s.lcore l).acc.mem.read o
  | _ => s.memByte pa

def State.poisPA (s : State) (pa : Nat) : Bool :=
  match s.home pa with
  | .acc l o => (s.lcore l).acc.isPois o
  | _ => s.mem.isPois pa

/-- Little-endian number of `n` bytes from `pa`. -/
def State.readPAn (s : State) (pa : Nat) : Nat → Nat
  | 0 => 0
  | n + 1 => (s.readPA pa).toNat + 256 * s.readPAn (pa + 1) n

/-- Bytes written at physical addresses of one home, clean or poisoned (R91). Engine writes into an accumulator window set
the granules full (R315). -/
def State.storePA (s : State) (l : List (Nat × Nat)) (pois engine : Bool) : State :=
  match l with
  | [] => s
  | (pa, _) :: _ =>
    match s.home pa with
    | .acc lc _ =>
      let l' := l.map (fun t => (t.1 % 2 ^ 21, t.2))
      s.modLcore lc (fun c =>
        let b := if pois then c.acc.storePois l' else c.acc.store l'
        { c with acc := if engine then b.fill (l'.map (fun t => t.1)) else b })
    | _ => s.memStore l pois

/-! ### Region entries (R85) -/

/-- An entry's fields (R85). -/
structure RegEnt where
  owner : Nat
  asid : Nat
  st : Nat
  writer : Nat
  tokpkg : Nat
  tokdie : Nat
deriving DecidableEq, Repr

def decRegion (w : Nat) : RegEnt := ⟨fld w 63 32, fld w 31 20, fld w 19 18, fld w 17 2, fld w 127 120, fld w 119 117⟩
def encRegion (r : RegEnt) : Nat :=
  r.owner % 2 ^ 32 * 2 ^ 32 + r.asid % 2 ^ 12 * 2 ^ 20 + r.st % 4 * 2 ^ 18 + r.writer % 2 ^ 16 * 4
    + r.tokpkg % 2 ^ 8 * 2 ^ 120 + r.tokdie % 8 * 2 ^ 117

def State.region (s : State) (pa : Nat) : RegEnt := decRegion (Tbl.get 0 s.regions (pa / 2 ^ 21))

/-! ### Translation (R78 to R82) -/

/-- Index of a walk level: high bit, low bit of the address. -/
def lvlIndex (l va : Nat) : Nat :=
  match l with
  | 0 => fld va 56 43
  | 1 => fld va 42 30
  | 2 => fld va 29 21
  | _ => fld va 20 16

/-- log2 of the page that a leaf at a level maps. -/
def lvlPage (l : Nat) : Nat :=
  match l with
  | 1 => 30
  | 2 => 21
  | _ => 16

/-- log2 of the size of the table below a level. -/
def lvlTable (l : Nat) : Nat :=
  match l with
  | 0 => 16
  | 1 => 12
  | _ => 8

/-- The walk from level `l` at table `base`; the answer is the leaf word and its level. -/
def State.walk (s : State) (va : Nat) : Nat → Nat → Nat → Except Nat (Nat × Nat)
  | 0, _, _ => .error 4
  | fuel + 1, l, base =>
    let w := s.readPAn (base + 8 * lvlIndex l va) 8
    if fld w 63 63 = 0 then .error 2
    else if fld w 59 52 != 0 || fld w 7 0 != 0 then .error 4
    else
      let addr := fld w 51 8 * 256
      if fld w 62 62 = 1 then
        if l = 0 || addr % 2 ^ lvlPage l != 0 then .error 4 else .ok (w, l)
      else if l = 3 || fld w 61 60 != 0 || addr % 2 ^ lvlTable l != 0 then .error 4
      else s.walk va fuel (l + 1) addr

/-- Whose TLBs an access goes through (R81): a core's and its cluster's, a cluster's, or none, for what the die itself does. -/
inductive Xl where
  | core (p : Nat)
  | clus (k : Nat)
  | die (d : Nat)
deriving DecidableEq, Repr

def Xl.home : Xl → Nat
  | .core p => dieOf p
  | .clus k => k / 4
  | .die d => d

/-- The issuing context's. -/
def State.xl (s : State) : Xl := .core s.cur

/-- Whether an entry is that of a page. -/
def TlbEnt.is (asid va : Nat) (e : TlbEnt) : Bool := e.asid == asid && e.page == va / 2 ^ 16

/-- Physical address of an entry's page. -/
def TlbEnt.pa (e : TlbEnt) : Nat := fld e.leaf 51 8 * 256 + e.page * 2 ^ 16 % 2 ^ lvlPage e.lvl

/-- What the TLBs of an access hold for a page: the core's first, then the cluster's (R81). -/
def State.tlbHit (s : State) (x : Xl) (asid va : Nat) : Option TlbEnt :=
  match x with
  | .core p => ((s.core p).tlb.find? (TlbEnt.is asid va)).or ((s.cluster (clusterOf p)).tlb.find? (TlbEnt.is asid va))
  | .clus k => (s.cluster k).tlb.find? (TlbEnt.is asid va)
  | .die _ => none

/-- The leaf that the TLBs or the walk gives (R80 to R82). -/
def State.leafOf (s : State) (x : Xl) (asid va : Nat) : Except Nat (Nat × Nat) :=
  if 2 ^ 57 ≤ va then .error 1
  else
    match s.tlbHit x asid va with
    | some e => .ok (e.leaf, e.lvl)
    | none =>
      let a := (s.die x.home).xlAsidBase + 16 * asid
      let w := s.readPAn a 8
      if fld w 63 63 = 0 then .error 2
      else if fld w 62 52 != 0 || fld w 16 0 != 0 || s.readPAn (a + 8) 8 != 0 then .error 4
      else s.walk va 4 0 (fld w 51 17 * 2 ^ 17)

/-- A translated address, its NC attribute, and the region state that the translation carries (R81). -/
structure Phys where
  pa : Nat
  nc : Bool
  reg : RegEnt
deriving DecidableEq, Repr

/-- A physical address with its region as the region table has it. -/
def State.phys (s : State) (pa : Nat) : Phys := ⟨pa, false, s.region pa⟩

/-- Translation for an access (R82: code 5 before code 3). -/
def State.xlate (s : State) (x : Xl) (asid va : Nat) (write : Bool) : Except Nat Phys :=
  match s.leafOf x asid va with
  | .error c => .error c
  | .ok (w, l) =>
    let page := 2 ^ lvlPage l
    let base := fld w 51 8 * 256
    let pa := base + va % page
    if s.pageHole x.home base page then .error 5
    else if write && fld w 61 61 = 0 then .error 3
    else .ok ⟨pa, fld w 60 60 == 1, match (s.tlbHit x asid va).bind (fun e => e.reg) with
      | some r => decRegion r
      | none => s.region pa⟩

/-- An entry enters a TLB of `cap` entries; entry `n` leaves it, if it holds as many (R4, R81). -/
def tlbPut (cap n : Nat) (e : TlbEnt) (l : List TlbEnt) : List TlbEnt :=
  (e :: (l.filter (fun k => !(k.asid == e.asid && k.page == e.page)))).eraseIdx ((n + cap) % (cap + 1))

/-- The entry of a page as the TLBs or the walk give it, with the state of its region. -/
def State.tlbEntry (s : State) (x : Xl) (asid va : Nat) : Option TlbEnt :=
  match s.leafOf x asid va with
  | .error _ => none
  | .ok (w, l) =>
    let e : TlbEnt := ⟨asid, va / 2 ^ 16, w, l, none⟩
    some { e with reg := some (Tbl.get 0 s.regions (e.pa / 2 ^ 21)) }

/-- The core's and the cluster's TLB keep a translation of an access that has been made; which entry leaves them is the lot's (log 14). -/
def State.tlbFill (s : State) (p asid va : Nat) : State :=
  match s.tlbEntry (.core p) asid va with
  | none => s
  | some e =>
    let s := s.modCore p (fun c => { c with tlb := tlbPut 64 (s.lot / 2 ^ 24) e c.tlb })
    s.modCluster (clusterOf p) (fun c => { c with tlb := tlbPut 2048 (s.lot / 2 ^ 32) e c.tlb })

/-- A cluster's TLB keeps a translation of an engine of the cluster (R81). -/
def State.tlbFillClus (s : State) (k asid va : Nat) : State :=
  match s.tlbEntry (.clus k) asid va with
  | none => s
  | some e => s.modCluster k (fun c => { c with tlb := tlbPut 2048 (s.lot / 2 ^ 32) e c.tlb })

/-- The lot of what may go either way is drawn anew (R4). -/
def State.draw (s : State) : State := { s with lot := Config.choice s.free, free := s.free + 1 }

/-! ### Messages (R421, R422) -/

/-- Kinds whose source keeps a copy (R422): those that wait for an answer, and COLLRDY, which may be refused (R433). -/
def keepsCopy (kind : Nat) : Bool := kind == 1 || kind == 3 || kind == 5 || kind == 7 || kind == 11 || kind == 14 || kind == 18

/-- Kinds that address a line of memory (R423). -/
def lineAddressed (kind : Nat) : Bool := kind == 1 || kind == 3 || kind == 5 || kind == 7

/-! ### Regions (R85, R86) -/

/-- Removes the state of a region that TLB entries cache (R87). -/
def TlbEnt.forget (r : Nat) (e : TlbEnt) : TlbEnt := if e.pa / 2 ^ 21 = r then { e with reg := none } else e

/-- A region's entry is rewritten; no TLB holds its earlier state any more (R87). -/
def State.setRegion (s : State) (pa : Nat) (r : RegEnt) : State :=
  let f (l : List TlbEnt) : List TlbEnt := l.map (TlbEnt.forget (pa / 2 ^ 21))
  { s with regions := Tbl.put s.regions (pa / 2 ^ 21) (encRegion r), cores := s.cores.map (fun p => (p.1, { p.2 with tlb := f p.2.tlb }))
           clusters := s.clusters.map (fun c => (c.1, { c.2 with tlb := f c.2.tlb })) }

/-- Who accesses: a context's plain access or an engine of a selector, for a task. -/
inductive Who where
  | plain
  | engine (sel : Nat)
deriving DecidableEq, Repr

/-- Whether an address lies in the HDM carve-out (R465). -/
def State.inHdm (s : State) (pa : Nat) : Bool :=
  let a := pa % 2 ^ 44
  pa / 2 ^ 44 == (s.die 0).pkg && 0x200_0000_0000 ≤ a && a < 0x200_0000_0000 + 8 * 2 ^ 38
    && s.cfg.hdmOff ≤ a % 2 ^ 38 && a % 2 ^ 38 < s.cfg.hdmOff + s.cfg.hdmSize / 8

/-- The region check (R86); `d` is the accessing die. The ASID is compared first (log 16), then the state's own rule; in the HDM carve-out,
which stays the firmware's, a task's access has reason code 1 whatever its ASID (R465). -/
def State.regionCheck (s : State) (d : Nat) (ph : Phys) (task asid : Nat) (who : Who) (write : Bool) : Option Nat :=
  if isAccWin ph.pa then none
  else
    let r := ph.reg
    if s.inHdm ph.pa && r.owner != task then some 1
    else if r.asid != asid then some 6
    else
      match r.st with
      | 0 => if r.owner = task then none else some 1
      | 1 => if write then some 2 else none
      | 2 =>
        match who with
        | .plain => some 3
        | .engine sel => if write && sel != r.writer then some 4 else none
      | _ =>
        if r.owner != task then some 1
        else if r.tokdie = d % 8 && r.tokpkg = (s.die d).pkg then none else some 5

/-- The engine selector of R92 for a command's unit. -/
def selectorOf (kind p : Nat) : Nat :=
  let d := dieOf p
  let cl := clusterOf p % 4
  if kind = 0 || kind = 2 then d * 2 ^ 13 + cl * 2 ^ 11 + coreIn p * 2 ^ 6 + kind * 4
  else if kind = 1 then d * 2 ^ 13 + cl * 2 ^ 11 + kind * 4
  else d * 2 ^ 13 + kind * 4 + 1

/-- A well-formed selector (R92). -/
def selectorOk (w : Nat) : Bool :=
  let kind := fld w 5 2
  let scope := fld w 1 0
  w < 2 ^ 16 && kind ≤ 5 && scope ≤ 1 && fld w 10 6 < 24 &&
    (if kind = 0 || kind = 2 then scope == 0
     else if kind = 1 then scope == 0 && fld w 10 6 == 0
     else scope == 1 && fld w 12 6 == 0)

/-- The outcome of forming a global access: where it lies, or the trap of its bundle. -/
abbrev GRes := Except Trap Phys

def trapTranslation (code va : Nat) : Trap := { cause := 3, d0 := code, d1 := va }
def trapRegion (code va : Nat) : Trap := { cause := 4, d0 := code, d1 := va }
def trapAddress (code a : Nat) : Trap := { cause := 5, d0 := code, d1 := a }
def trapAlign (a : Nat) : Trap := { cause := 6, d1 := a }
def trapPoison (a : Nat) : Trap := { cause := 7, d1 := a }

/-- Translation and region check of a plain access of the issuing context (R83, R86, R95). -/
def State.plainPA (s : State) (va : Nat) (write : Bool) : GRes :=
  match s.xlate s.xl s.asid va write with
  | .error c => .error (trapTranslation c va)
  | .ok ph =>
    match s.regionCheck (dieOf s.lc) ph s.tid s.asid .plain write with
    | some c => .error (trapRegion c va)
    | none => .ok ph

/-- Address checks of LDG and STG (R94, R95), then translation and region. -/
def State.globalAddr (s : State) (ea size : Nat) (write : Bool) : GRes :=
  if 2 ^ 57 ≤ ea then .error (trapTranslation 1 ea)
  else if ea % size != 0 then .error (trapAlign ea)
  else s.plainPA ea write

end Sys2Proof.Machine
end

