-- ==== Sys2Proof/Machine/Route.lean ====
section
/-! DEFINITION. The way between dies and packages (R417, R420, R425), what holds a message back at its station (R423, R440), and which
bytes of global memory an access reaches at once (R69, R89). -/

namespace Sys2Proof.Machine

/-! ### Rings and bridges -/

/-- Whether a flit from station `a` to station `b` of a package takes ring A (R417). -/
def ringUp (a b : Nat) : Bool :=
  let k := (b + 8 - a % 8) % 8
  k < 4 || (k = 4 && a % 2 = 0)

/-- The hops of its way, each as a die and its ring: 0 for ring A, 1 for ring B. -/
def ringHops (a b : Nat) : List (Nat × Nat) :=
  let k := (b + 8 - a % 8) % 8
  if ringUp a b then (List.range k).map (fun i => ((a + i) % 8, 0)) else (List.range (8 - k)).map (fun i => ((a + 8 - i) % 8, 1))

/-- The die whose bridge station a flit bound for a package passes (R425). -/
def bridgeOf (pkg addr : Nat) : Nat := 2 * ((fld addr 9 8) ^^^ (pkg % 4))

/-- The rack port that the bridge of package `own` sends by, of `n` packages on the ring (R425). -/
def rackPort (own pkg n : Nat) : Nat := if ((pkg + n - own % n) % n) ≤ n / 2 then 0 else 1

/-- Whether a hop carries flits: it is not marked down (R420). Hops 2 and 3 are rack ports 0 and 1. -/
def State.hopOk (s : State) (h : Nat × Nat) : Bool := !NatSet.mem (s.die h.1).hopDown h.2

/-- Whether the way between two stations of a package is open. -/
def State.ringOpen (s : State) (a b : Nat) : Bool := (ringHops a b).all s.hopOk

/-- Whether the bridge station of die `b` sends toward a package: its port is enabled and its link up (R424, R425). -/
def State.bridgeOpen (s : State) (b pkg : Nat) : Bool :=
  let x := s.die b
  let r := rackPort x.pkg pkg (x.npkgm1 + 1)
  (if r = 0 then x.p0en else x.p1en) && s.hopOk (b, 2 + r)

/-- The hops of a message's way from die `d`: to its die, or to the bridge and over its rack port (R417, R425). -/
def State.wayHops (s : State) (d : Nat) (m : Msg) : List (Nat × Nat) :=
  let x := s.die d
  if m.dpkg = x.pkg then ringHops d m.ddie
  else
    let b := bridgeOf m.dpkg m.addr
    ringHops d b ++ [(b, 2 + rackPort x.pkg m.dpkg (x.npkgm1 + 1))]

/-- Whether a message that stands at the station of die `d` has an open way out of it: to its die, or to the bridge and over it. -/
def State.wayOpen (s : State) (d : Nat) (m : Msg) : Bool :=
  if m.dpkg = (s.die d).pkg then s.ringOpen d m.ddie
  else
    let b := bridgeOf m.dpkg m.addr
    s.ringOpen d b && s.bridgeOpen b m.dpkg

/-! ### What waits at a station -/

/-- The die of a physical address (R70). -/
def homeDie (pa : Nat) : Nat :=
  let o := pa % 2 ^ 44
  if o < 0x80_0000_0000 then o / 2 ^ 36
  else if o < 0x400_0000_0000 then (o - 0x200_0000_0000) / 2 ^ 38 % 8
  else o / 2 ^ 28 % 8

/-- Whether the station of a task holds back what it sent as number `num` to a die of a package: an earlier NOTE send to that die has
not completed (R440). -/
def State.noteHolds (s : State) (task num pkg die : Nat) : Bool :=
  let holds (n : Cmd) : Bool := n.op == 0 && n.task == task && n.rel < num
    && fld (n.stg.getD 3 0) 15 8 == pkg && fld (n.stg.getD 3 0) 2 0 == die
  s.dies.any (fun d => d.2.noteQ.any holds || d.2.tasks.any (fun t => t.2.parked.any (fun p => p.1 == 5 && holds p.2)))

/-- Whether one of the outstanding messages is a write or an atomic on the 256-byte line of an address (R423). -/
def lineHeld (pkg addr : Nat) (l : List Copy) : Bool :=
  l.any (fun k => (k.m.kind == 3 || k.m.kind == 7) && k.m.dpkg == pkg && k.m.addr / 256 == addr / 256)

/-- The copies that a message's station keeps of the messages before it, and its own. -/
def copiesOf (m : Msg) (l : List Copy) : List Copy × Option Copy :=
  let mine (k : Copy) : Bool := k.m.kind == m.kind && k.m.tag == m.tag
  (l.takeWhile (fun k => !mine k), l.find? mine)

/-- Whether a message that stands at the station of die `d` may leave it (R420, R423, R425, R440). -/
def State.mayLeave (s : State) (d : Nat) (m : Msg) : Bool :=
  s.wayOpen d m &&
    (if m.sdie = d && m.spkg = (s.die d).pkg && keepsCopy m.kind then
      match copiesOf m (s.die d).copies with
      | (_, none) => true
      | (before, some k) => !(lineAddressed m.kind && lineHeld m.dpkg m.addr before)
          && !(m.kind ≤ 8 && s.noteHolds k.task k.num m.dpkg m.ddie)
    else true)

/-! ### What an access reaches at once -/

/-- Whether die `d` and the home of an address of this package reach one another. -/
def State.linked (s : State) (d pa : Nat) : Bool :=
  s.isLocal d pa && s.ringOpen d (homeDie pa) && s.ringOpen (homeDie pa) d

/-- Whether accesses of die `d` for a task, numbered `num`, to `n` bytes of one home in this package reach it with nothing in their way
(log 5). -/
def State.spanAtOnce (s : State) (d pa n task num : Nat) : Bool :=
  s.linked d pa && !s.noteHolds task num (s.die d).pkg (homeDie pa)
    && !(s.die d).copies.any (fun k => (k.m.kind == 3 || k.m.kind == 7) && k.m.dpkg == pa / 2 ^ 44
      && inRange (pa % 2 ^ 44 / 256) ((pa % 2 ^ 44 + n - 1) / 256) (k.m.addr / 256))

def State.atOnce (s : State) (d pa task num : Nat) : Bool := s.spanAtOnce d pa 1 task num

/-- Whether die `d` holds the token of a region of another package, so that its lines may stay (R89). -/
def State.holdsToken (s : State) (d pa : Nat) : Bool :=
  let r := s.region pa
  !isAccWin pa && r.st == 3 && r.tokdie == d % 8 && r.tokpkg == (s.die d).pkg

/-- Whether die `d` holds the line of an address under a token (R89). -/
def State.linePresent (s : State) (d pa : Nat) : Bool :=
  NatSet.mem s.rlines (pa / 256) && !s.isLocal d pa && s.holdsToken d pa

/-- The line that a read of requester `req` has brought. -/
def State.gotLine (s : State) (req pa : Nat) : Option Got := s.got.find? (fun g => g.req == req && g.line == pa / 256)

/-- Whether requester `req` of die `d` has the bytes of an address at hand. -/
def State.lineHere (s : State) (d req pa task num : Nat) : Bool :=
  s.atOnce d pa task num || s.linePresent d pa || (s.gotLine req pa).isSome

/-- `n` bytes from `pa`, within a line, as requester `req` of die `d` has them at hand. -/
def State.bytesHere (s : State) (d req pa task num n : Nat) : Nat :=
  if s.atOnce d pa task num then s.readPAn pa n
  else if s.linePresent d pa then s.memN pa n
  else match s.gotLine req pa with
    | some g => g.data / 2 ^ (8 * (pa % 256)) % 2 ^ (8 * n)
    | none => s.readPAn pa n

/-- Whether the granule of `pa` is poisoned as requester `req` of die `d` has it at hand. -/
def State.poisHere (s : State) (d req pa task num : Nat) : Bool :=
  if s.atOnce d pa task num then s.poisPA pa
  else if s.linePresent d pa then s.mem.isPois pa
  else match s.gotLine req pa with
    | some g => bit g.pois (pa % 256 / 16)
    | none => s.poisPA pa

/-- What requesters were brought is dropped, and what they have asked for is not kept. -/
def State.dropGot (s : State) (f : Nat → Bool) : State :=
  { s with got := s.got.filter (fun g => !f g.req)
           dies := s.dies.map (fun d => (d.1, { d.2 with copies := d.2.copies.map (fun k =>
             if k.m.kind == 1 && k.req != 0 && f k.req then { k with stale := true } else k) })) }

/-- The number that names stream `q` of a context among requesters, and a command. -/
def streamKey (p c q : Nat) : Nat := 2 * (32 * p + 8 * c + q) + 1
def cmdKey (id : Nat) : Nat := 2 * id + 2

/-- The number that names a command list. -/
def listKey (d n : Nat) : Nat := 2 * (2 ^ 20 + 64 * d + n) + 1

/-- What the streams of a context were brought. -/
def State.dropGotOf (s : State) (p c : Nat) : State := s.dropGot (fun r => r % 2 == 1 && r / 2 / 8 == 4 * p + c)

/-- The global address of accumulator memory of a logical core (R71). -/
def accPa (pkg unit off : Nat) : Nat :=
  pkg * 2 ^ 44 + 0x500_0000_0000 + dieOf unit * 2 ^ 28 + clusterOf unit % 4 * 2 ^ 26 + coreIn unit * 2 ^ 21 + off

end Sys2Proof.Machine
end

