-- ==== Sys2Proof/Machine/Local.lean ====
section
/-! DEFINITION. Scratchpad and accumulator memory: addresses, rotation codes, tags, full/empty bits, withheld bytes and the
performing of withheld stores (R98, R108 to R118, R312 to R316, R397). -/

namespace Sys2Proof.Machine

/-! ### Addresses -/

/-- The bank of word j of block b under rotation code c (R110). -/
def bankOf (c b j : Nat) : Nat :=
  match c with
  | 0 => j
  | 1 => (j + b) % 32
  | 2 => j ^^^ (b % 32)
  | _ => j ^^^ (4 * b % 32)

/-- The physical byte, row by row of banks, that offset `o` names under code c. -/
def physOf (c o : Nat) : Nat := o / 2048 * 2048 + bankOf c (o / 2048) (o / 64 % 32) * 64 + o % 64

def spSize : Nat := 0x18_0000
def accSize : Nat := 0x8_0000

/-- CODE and MIXED of a block's tag (R111). -/
def LCore.tagOf (c : LCore) (o : Nat) : Nat := Tbl.get 0 c.tags (o / 2048)
def LCore.codeOf (c : LCore) (o : Nat) : Nat := LCore.tagOf c o % 4

/-- The physical byte under a named code, or under the block's own (R112). -/
def LCore.phys (c : LCore) (code : Option Nat) (o : Nat) : Nat := physOf (code.getD (LCore.codeOf c o)) o

/-- A scratchpad or accumulator address in cluster form, checked in the order of R109 for `n` bytes: logical core and
offset, or the reason code. -/
def clusterAddr (lc size ea n : Nat) : Except Nat (Nat × Nat) :=
  if 2 ^ 27 ≤ ea then .error 1
  else
    let core := if fld ea 26 26 = 1 then coreIn lc else fld ea 25 21
    if 24 ≤ core then .error 2
    else if size < fld ea 20 0 + n then .error 3
    else .ok (clusterOf lc * 24 + core, fld ea 20 0)

/-- R109 and the alignment check of a scalar access. -/
def spScalar (lc ea n al : Nat) : Except Trap (Nat × Nat) :=
  match clusterAddr lc spSize ea n with
  | .error c => .error (trapAddress c ea)
  | .ok r => if ea % al != 0 then .error (trapAlign ea) else .ok r

/-- Row k of a tile descriptor (R115) for an access of `n` bytes: logical core, offset and rotation code. -/
def tileRow (lc size : Nat) (base shape : Nat) (k : Int) (n al : Nat) : Except Trap (Nat × Nat × Nat) :=
  if 2 ^ 29 ≤ base || 2 ^ 33 ≤ shape then .error (trapAddress 1 base)
  else
    let core := if fld base 26 26 = 1 then coreIn lc else fld base 25 21
    if 24 ≤ core then .error (trapAddress 2 base)
    else
      let rows : Int := if fld shape 32 21 = 0 then 4096 else (fld shape 32 21 : Nat)
      let stride := fld shape 20 0
      let ea := modI 64 (((base % 2 ^ 27 : Nat) : Int) + k * stride)
      if k < 0 || rows ≤ k then .error (trapAddress 4 ea)
      else
        let o := fld base 20 0 + k.toNat * stride
        if size < o + n then .error (trapAddress 3 ea)
        else if stride % al != 0 || o % al != 0 then .error (trapAlign ea)
        else .ok (clusterOf lc * 24 + core, o, fld base 28 27)

/-! ### Bytes -/

/-- The bank that a space names on a logical core. -/
def LCore.bank (c : LCore) : Space → Bank
  | .sp => c.sp
  | .acc => c.acc
  | .code => c.code
  | .glob => {}

def LCore.setBank (c : LCore) (sp : Space) (b : Bank) : LCore :=
  match sp with
  | .sp => { c with sp := b }
  | .acc => { c with acc := b }
  | .code => { c with code := b }
  | .glob => c

/-- Where byte `o` of a space physically stands. -/
def LCore.place (c : LCore) (sp : Space) (code : Option Nat) (o : Nat) : Nat :=
  if sp = .sp then LCore.phys c code o else o

/-- `n` bytes from offset `o`. -/
def LCore.readN (c : LCore) (sp : Space) (code : Option Nat) (o : Nat) : Nat → Nat
  | 0 => 0
  | n + 1 => ((c.bank sp).mem.read (c.place sp code o)).toNat + 256 * c.readN sp code (o + 1) n

/-- The physical addresses of `n` bytes from `o`. -/
def LCore.places (c : LCore) (sp : Space) (code : Option Nat) (o n : Nat) : List Nat :=
  (List.range n).map (fun i => c.place sp code (o + i))

/-- The tag check of a read under code c (R112): {MIXED, CODE, c} of the first failing block. -/
def LCore.tagFail (c : LCore) (code o n : Nat) : Option Nat :=
  ((List.range (ceilDiv (o % 2048 + n) 2048)).map (fun i => Tbl.get 0 c.tags (o / 2048 + i))).findSome?
    (fun t => if t = code then none else some (t / 4 * 16 + t % 4 * 4 + code))

/-- The tag of each block that the bytes touch, after a write under code c (R111). -/
def retag (code : Nat) (offs : List Nat) (tags : Tbl Nat) : Tbl Nat :=
  let blocks := offs.foldl (fun s o => NatSet.insert s (o / 2048)) []
  blocks.foldl (fun t b =>
    let whole := (List.range 2048).all (fun i => offs.contains (b * 2048 + i))
    if whole then Tbl.put t b code
    else if Tbl.get 0 t b % 4 = code then t
    else Tbl.put t b (code + 4)) tags

/-- Bytes written to a space of a logical core under a rotation code, without a change of tags. -/
def LCore.storeRaw (c : LCore) (sp : Space) (code : Option Nat) (l : List (Nat × Nat)) (pois fill : Bool) : LCore :=
  let l' := l.map (fun t => (c.place sp code t.1, t.2))
  let b := if pois then (c.bank sp).storePois l' else (c.bank sp).store l'
  c.setBank sp (if fill then b.fill (l'.map (fun t => t.1)) else b)

/-- Bytes written to a space of a logical core, clean or poisoned. `fill` sets the granules full (R116), `code` is the
rotation code of a vector or engine write, none for a scalar store, which keeps the tag (R111). -/
def LCore.store (c : LCore) (sp : Space) (code : Option Nat) (l : List (Nat × Nat)) (pois fill : Bool) : LCore :=
  let c' := c.storeRaw sp code l pois fill
  match sp, code with
  | .sp, some k => { c' with tags := retag k (l.map (fun t => t.1)) c'.tags }
  | _, _ => c'

/-! ### Tiles (R291) -/

/-- Byte offset of row m of a tile (R291). -/
def tileOff (w m : Nat) : Nat := 64 * fld w 12 0 + m * 64 * fld w 28 16

/-- Whether a result touches any of `n` bytes at an accumulator place. -/
def MRes.touches (r : MRes) (unit off n : Nat) : Bool :=
  r.lcore == unit && (List.range r.a.length).any (fun m => tileOff r.tile m < off + n && off < tileOff r.tile m + 512)

/-- Whether the tile that the issuing bundle's M slot writes has any of `n` bytes of an accumulator place (R299). -/
def State.inBunTile (s : State) (unit off n : Nat) : Bool :=
  match s.bun.tile with
  | none => false
  | some (w, rows) => unit == s.lc && (List.range rows).any (fun m => tileOff w m < off + n && off < tileOff w m + 512)

/-! ### The store-withholding buffer -/

/-- A withheld byte of the context, the youngest store to it; an add is not forwarded (R98, R316). -/
def fwdByte (sp : Space) (unit a : Nat) : List WEnt → Option Nat
  | [] => none
  | e :: l =>
    match fwdByte sp unit a l with
    | some b => some b
    | none =>
      if e.sp = sp && e.unit == unit && e.kind != .addF && e.kind != .addI && e.line ≤ a && a < e.line + 64
          && bit e.mask (a - e.line)
      then some (el 8 e.data (a - e.line)) else none

/-- `n` bytes of memory with the context's withheld bytes over them (R98, R125). -/
def overlay (w : List WEnt) (sp : Space) (unit a : Nat) : Nat → Nat → Nat
  | 0, _ => 0
  | n + 1, v => (fwdByte sp unit a w).getD (v % 256) + 256 * overlay w sp unit (a + 1) n (v / 256)

/-- Whether a withheld store covers the granule of `a` whole, so that its poison in memory does not reach a load (R91). -/
def coveredGranule (w : List WEnt) (sp : Space) (unit a : Nat) : Bool :=
  w.any (fun e => e.sp == sp && e.unit == unit && e.line == a / 64 * 64 && bit e.cov (a % 64 / 16))

/-- Whether a withheld write-port add touches any of `n` bytes (R316). -/
def addTouches (w : List WEnt) (sp : Space) (unit a n : Nat) : Bool :=
  w.any (fun e => e.sp == sp && e.unit == unit && (e.kind == .addF || e.kind == .addI)
    && (List.range n).any (fun i => e.line ≤ a + i && a + i < e.line + 64 && bit e.mask (a + i - e.line)))

/-- The granules of a line whose 16 bytes a mask names. -/
def grainsOf (m : Nat) : Nat := ((List.range 4).filter (fun g => m / 2 ^ (16 * g) % 2 ^ 16 == ones 16)).foldl (fun c g => c + 2 ^ g) 0

/-- A store of `n` bytes as its line entries (R397). -/
def lineEntries (sp : Space) (unit : Nat) (kind : WKind) (rc pc slot : Nat) (a n mask v : Nat) : List WEnt :=
  (List.range (ceilDiv (a % 64 + n) 64)).map (fun i =>
    let m := mask * 2 ^ (a % 64) / 2 ^ (64 * i) % 2 ^ 64
    let d := v * 2 ^ (8 * (a % 64)) / 2 ^ (512 * i) % 2 ^ 512
    ⟨sp, unit, a / 64 * 64 + 64 * i, m, d, kind, rc, pc, slot, 0, grainsOf m, 0, true⟩)

/-- Merging of masked bytes, the younger over the older. -/
def mergeBytes (m d m' d' : Nat) : Nat :=
  joinEl 8 ((List.range 64).map (fun i => if bit m' i then el 8 d' i else if bit m i then el 8 d i else 0))

/-- Position of the youngest entry of a line. -/
def youngest (sp : Space) (unit line : Nat) (w : List WEnt) : Option Nat :=
  ((List.range w.length).filter (fun i =>
    match w[i]? with
    | some e => e.sp == sp && e.unit == unit && e.line == line
    | none => false)).getLast?

/-- Whether (iss, slot) comes before (iss', slot') in program order (R42). -/
def before (i s i' s' : Nat) : Bool := i < i' || (i == i' && s < s')

/-- How many entries come before the place of `e` in program order (R42). -/
def placeOf (w : List WEnt) (e : WEnt) : Nat :=
  w.length - (w.reverse.takeWhile (fun o => before e.iss e.slot o.iss o.slot)).length

/-- One entry takes its place in program order. A weak store merges into the youngest entry of its line when that is weak (R397); its bytes
stay apart, in that same entry, where they have another code, where a matrix result over the line was issued between (R300), or where `apart`
says that something else comes between in program order. -/
def pushEntry (apart : Bool) (w : List WEnt) (e : WEnt) : List WEnt :=
  if e.mask = 0 then w
  else
    let n := placeOf w e
    let put (own : Bool) : List WEnt := w.take n ++ { e with own := own } :: w.drop n
    match youngest e.sp e.unit e.line (w.take n) with
    | none => put true
    | some i =>
      match w[i]? with
      | none => put true
      | some o =>
        if e.kind = .weak && o.kind = .weak then
          if apart || o.rc != e.rc || o.ep != e.ep then put false
          else setAt w i { o with mask := o.mask ||| e.mask, data := mergeBytes o.mask o.data e.mask e.data, cov := o.cov ||| e.cov }
        else put true

def pushEntries (apart : Bool) (w : List WEnt) : List WEnt → List WEnt
  | [] => w
  | e :: l => pushEntries apart (pushEntry apart w e) l

/-- The element adds of a withheld add: each masked element becomes add_f32(acc, x) or acc + x (R316). -/
def addElems (old mask v : Nat) (f : Bool) : Nat :=
  joinEl 32 ((List.range 16).map (fun i =>
    let o := el 32 old i
    let x := el 32 v i
    if bit mask (4 * i) then if f then addF32 o x else (o + x) % 2 ^ 32 else o))

/-- Whether swizzle checking is off (R113, R114). -/
def State.swzOff (s : State) : Bool := bit (s.ar.getSr 0x00B).toNat 0

/-- An entry as writes: a granule whose bytes came from several partial stores is written in two parts, since none of them
clears its poison (R91). -/
def WEnt.parts (e : WEnt) : List WEnt :=
  if grainsOf e.mask &&& e.cov = grainsOf e.mask then [e]
  else
    let first := joinEl 16 ((List.range 4).map (fun g => if bit e.cov g then ones 16 else 1))
    [{ e with mask := e.mask &&& first }, { e with mask := e.mask - (e.mask &&& first) }]

/-- A logical core's memories as the context's withheld stores would leave them. -/
def LCore.withStores (c : LCore) (unit : Nat) (w : List WEnt) : LCore :=
  (w.filter (fun e => e.sp == .sp && e.unit == unit)).foldl (fun c e => e.parts.foldl (fun c e =>
    c.store .sp (if e.rc = 4 then none else some e.rc) (maskBytes e.line 64 e.mask e.data) false false) c) c

/-- The memories that a read under a code of its own finds where swizzle checking is off: the banks as the context's withheld stores
would leave them (R98, R113). Every other read finds withheld bytes by their offset. -/
def State.seenBanks (s : State) (sp : Space) (unit : Nat) (rc : Option Nat) : Option LCore :=
  if sp = .sp && rc.isSome && s.swzOff then some ((s.lcore unit).withStores unit s.cx.wbuf) else none

/-- `n` bytes of scratchpad or accumulator memory as the context reads them (R98, R113, R125). -/
def State.ownBytes (s : State) (sp : Space) (unit : Nat) (rc : Option Nat) (off n : Nat) : Nat :=
  match s.seenBanks sp unit rc with
  | some c => c.readN sp rc off n
  | none => overlay s.cx.wbuf sp unit off n ((s.lcore unit).readN sp rc off n)

/-- Whether poison reaches a read by the context of the granules that hold the bytes at the offsets, unless withheld bytes cover them
(R91). -/
def State.ownPois (s : State) (sp : Space) (unit : Nat) (rc : Option Nat) (offs : List Nat) : Bool :=
  match s.seenBanks sp unit rc with
  | some c => offs.any (fun o => (c.bank sp).isPois (c.place sp rc o))
  | none =>
    let c := s.lcore unit
    offs.any (fun o => (c.bank sp).isPois (c.place sp rc o) && !coveredGranule s.cx.wbuf sp unit o)

/-- A withheld entry is performed (R126, R316, R395). A write to another package leaves as WRREQ from the caller. -/
def State.performEnt (s : State) (e : WEnt) : State :=
  match e.sp with
  | .glob => s.storePA (maskBytes e.line 64 e.mask e.data) false false
  | _ =>
    s.modLcore e.unit (fun c =>
      let add := e.kind = .addF || e.kind = .addI
      let d := if add then addElems (c.readN e.sp none e.line 64) e.mask e.data (e.kind == .addF) else e.data
      let l := maskBytes e.line 64 e.mask d
      if add then { c with acc := { c.acc with mem := c.acc.mem.writeL l } }
      else c.store e.sp (if e.rc = 4 then none else some e.rc) l false (e.kind == .fe))

end Sys2Proof.Machine
end

