-- ==== Sys2Proof/Machine/Operands.lean ====
section
/-! DEFINITION. Which registers an operation reads and writes (R45, R46, R263, R264), and what holds a bundle back (R25). -/

namespace Sys2Proof.Machine

/-- Why a bundle is ineligible (R25). `ckpt` asks for an implicit checkpoint at the boundary before the bundle (R398). -/
inductive Wait where
  | late | fe | barrier | counter | drain | refused | engine | stream | replay | group | pair | ckpt | stopped
deriving DecidableEq, Repr

/-- What the checks of an operation answer: it may issue, it waits, or it traps. -/
inductive Chk where
  | ok
  | wait (w : Wait)
  | trap (t : Trap)
deriving DecidableEq, Repr

/-- The first of two answers that is not `ok`. -/
def Chk.andThen : Chk → Chk → Chk
  | .ok, c => c
  | c, _ => c

def Chk.all : List Chk → Chk
  | [] => .ok
  | c :: cs => c.andThen (Chk.all cs)

def Chk.waits : Chk → Bool
  | .wait _ => true
  | _ => false

/-- A wait on a recipe replay, which a stale recipe comes before (R223). -/
def Chk.replays : Chk → Bool
  | .wait .replay => true
  | _ => false

/-- RECIPE_STALE. -/
def Chk.isStale : Chk → Bool
  | .trap t => t.cause == 9
  | _ => false

/-- A wait among the answers where there is one, since a bundle that waits is not at issue (R25), else the first that is not `ok`; a stale recipe
comes before every replay (R223). -/
def Chk.join (l : List Chk) : Chk :=
  match l.find? (fun c => c.waits && !c.replays), l.find? Chk.isStale with
  | some w, _ => w
  | none, some t => t
  | none, none => (l.find? Chk.waits).getD (Chk.all l)

def Chk.when (b : Bool) (c : Chk) : Chk := if b then c else .ok

/-- The checks of an operand form that answers a place or a trap. -/
def Chk.ofRes {α : Type} (f : α → Chk) : Except Trap α → Chk
  | .error t => .trap t
  | .ok a => f a

/-! ### Memory operands -/

/-- The byte offset of a format I memory operand (R51, R94), or the row index of a VM one with `wd` 6 (R115). -/
def memOff (wd imm : Nat) : Option MW → Int
  | none => sextI wd imm
  | some w => sextI (27 + wd) (w.offh * 2 ^ wd + imm % 2 ^ wd)

/-- The qualifier (R51): 0 weak, 1 strong, 2 full/empty, 3 full/empty keeping. -/
def qualOf : Option MW → Nat
  | none => 0
  | some w => w.qual

/-- Bytes of a scalar access by the low opcode bits (R93, R124). -/
def sizeOf (z : Nat) : Nat := 2 ^ (z % 4)

/-- The effective address of a kept slot's operation where the bundle keeps it (R37), else the one formed from registers. -/
def State.effAddr (s : State) (a : Nat) : Nat :=
  match s.kept with
  | some im => im.addr
  | none => a

/-- An address formed from a base and an offset (R94). -/
def State.scalarEa (s : State) (a i : Nat) (w : Option MW) : Nat :=
  s.effAddr (modI 64 ((s.rx a).toNat + memOff 10 i w))

end Sys2Proof.Machine

namespace Sys2Proof

/-! ### Sources -/

/-- Scalar registers an operation reads, pairs and quads spelled out (R52, R157). -/
def Instr.xsrcs : Instr → List Nat
  | .add _ a b | .sub _ a b | .mul _ a b | .mulh _ a b | .div _ a b | .divn _ a b | .rem _ a b | .remn _ a b
  | .and _ a b | .or _ a b | .xor _ a b | .shl _ a b | .shrl _ a b | .shra _ a b
  | .min _ a b | .max _ a b | .minn _ a b | .maxn _ a b | .cmp _ a b _ | .bfi _ a b _ _
  | .fadd _ a b _ | .fmul _ a b _ | .fcmp _ a b _ | .br a b _ _ => [a, b]
  | .sel _ a b c | .ffma _ a b c _ | .acas _ a b c _ => [a, b, c]
  | .clz _ a | .popc _ a | .bfx _ a _ _ _ | .addi _ a _ | .andi _ a _ | .ori _ a _ | .xori _ a _
  | .shli _ a _ | .shrli _ a _ | .shrai _ a _ | .fcvt _ a _ | .movd a _ | .sete a _ _ _ => [a]
  | .lih d _ => [d]
  | .ldg _ _ a _ _ | .ldl _ _ a _ _ => [a]
  | .stg _ s a _ _ | .stl _ s a _ _ => [s, a]
  | .jr a | .callr _ a | .ret a | .bsw a _ => [a]
  | .brt a b c _ d _ => [a, b, c, d]
  | .loop _ a _ src _ _ => if src = 1 then [a] else []
  | .barinit s a => [s, a]
  | .bararr _ a _ | .barwait _ a _ | .tdec _ a _ => [a]
  | .tkopen _ a b _ | .tkskip _ a b _ => [a, b]
  | .tkadd a b t _ | .tkmin a b t _ | .tkmax a b t _ => [a, b, t]
  | .tkdrain _ a _ | .tkstat _ a _ _ | .tkclose _ a _ _ => [a]
  | .aadd _ a b _ | .amin _ a b _ | .amax _ a b _ | .axchg _ a b _ => [a, b]
  | .xferOwned a b _ | .xferShared a b _ | .xferEngine a b _ => [a, b]
  | .lock _ a b | .unlock _ a b | .tokacq _ a b | .tokrel _ a b => [a, b]
  | .qbind _ a _ _ _ _ _ => [a, a + 1, a + 2, a + 3]
  | .vbcast _ _ x _ => [x]
  | .vrot _ _ x _ _ => [x]
  | .vld _ a _ _ _ | .vst _ a _ _ _ | .vlda _ a _ _ _ | .vsta _ a _ _ _ | .vstaAdd _ a _ _ _ => [a, a + 1]
  | .vtkadd _ a _ _ t _ | .vtkmin _ a _ _ t _ | .vtkmax _ a _ _ t _ => [a, a + 1, t]
  | .vaadd _ a _ _ _ _ _ | .vamin _ a _ _ _ _ _ | .vamax _ a _ _ _ _ _ | .vaxchg _ a _ _ _ _ _ => [a, a + 1]
  | .rowpred _ _ b _ w => if w.bs = 1 then [b] else []
  | .ttw _ w | .ttr _ w => if w.xs = 1 then [w.xi] else []
  | .mma s b _ w | .mmap s b _ w => if w.av = 1 then [b, b + 1] else [s, s + 1, b, b + 1]
  | .mtile _ a => [a]
  | _ => []

/-- The old vector destination that a merge-class operation reads (R264). -/
def oldVd (d p : Nat) : List Nat := if p != 0 && d < 56 then [d] else []

/-- Vector registers and streams an operation reads (R263, R264). -/
def Instr.vsrcs : Instr → List Nat
  | .vadd _ d a b p _ | .vsub _ d a b p _ | .vmul _ d a b p _ | .vmin _ d a b p | .vmax _ d a b p
  | .vshl _ d a b p | .vshrI _ d a b p | .vshrN _ d a b p | .vand d a b p | .vor d a b p | .vxor d a b p
  | .vhash d a b p _ | .vcrc d a b p _ => [a, b] ++ oldVd d p
  | .vfma _ d a b p w => [a, b, w.vc] ++ oldVd d p
  | .vabs _ d a p _ | .vneg _ d a p _ | .vnot d a p | .vmov _ d a p => [a] ++ oldVd d p
  | .vcmp _ _ a b _ _ | .vsel _ _ a b _ | .vperm _ _ a b _ | .vcompr _ _ a b _ | .vexpd _ _ a b _
  | .vbcmp _ a b _ _ | .vbfind _ a b _ _ => [a, b]
  | .vred _ _ a _ _ | .vscan _ _ a _ _ => [a]
  | .vbcast _ d _ p => oldVd d p
  | .vrot _ _ _ b _ => [b]
  | .vshuf _ d a b _ => [a, b, d]
  | .vld d _ _ p _ | .vlda d _ _ p _ => oldVd d p
  | .vst s _ _ _ _ | .vsta s _ _ _ _ | .vstaAdd s _ _ _ _ => [s]
  | .vtkadd s _ _ _ _ _ | .vtkmin s _ _ _ _ _ | .vtkmax s _ _ _ _ _ => [s]
  | .vaadd s _ _ p r rt _ | .vamin s _ _ p r rt _ | .vamax s _ _ p r rt _ | .vaxchg s _ _ p r rt _ =>
    if rt = 1 then s :: oldVd r p else [s]
  | .vexp2 _ d a p | .vlog2 _ d a p | .vrcp _ d a p | .vrsq _ d a p | .vtanh _ d a p | .vsigm _ d a p => [a] ++ oldVd d p
  | .vcvt d a pv pq w =>
    if w.ts = 5 || w.td = 5 then [a, pv] ++ (if typeWidth w.td < typeWidth w.ts && d < 56 then [d] else [])
    else [a] ++ (if (typeWidth w.td < typeWidth w.ts || pq != 0) && d < 56 then [d] else [])
  | .vrng d _ p => oldVd d p
  | .rowpred _ a b _ w => if w.bs = 1 then [a] else [a, b]
  | .rcwupd _ a _ _ _ | .rcwadv _ a _ _ | .rcwld _ a _ _ _ => [a]
  | .rcpdefEmbedded d a w => a :: (if w.xop = 0x20 && typeWidth w.td < typeWidth w.ts then [d] else [])
  | .ttw a _ => [a]
  | .ttr d w => if d < 56 && w.wc != 2 then [d] else []
  | .mma s _ _ w | .mmap s _ _ w => if w.av = 1 then [s, s + 1] else []
  | .mscl _ a => [a]
  | _ => []

/-- Predicate registers an operation reads. -/
def Instr.psrcs : Instr → List Nat
  | .vadd _ _ _ _ p _ | .vsub _ _ _ _ p _ | .vmul _ _ _ _ p _ | .vfma _ _ _ _ p _ | .vmin _ _ _ _ p | .vmax _ _ _ _ p
  | .vabs _ _ _ p _ | .vneg _ _ _ p _ | .vcmp _ _ _ _ p _ | .vred _ _ _ _ p | .vscan _ _ _ _ p
  | .vshl _ _ _ _ p | .vshrI _ _ _ _ p | .vshrN _ _ _ _ p | .vand _ _ _ p | .vor _ _ _ p | .vxor _ _ _ p | .vnot _ _ p
  | .vsel _ _ _ _ p | .vmov _ _ _ p | .vbcast _ _ _ p | .vrot _ _ _ _ p | .vperm _ _ _ _ p | .vshuf _ _ _ _ p
  | .vcompr _ _ _ _ p | .vexpd _ _ _ _ p | .vbcmp _ _ _ p _ | .vbfind _ _ _ p _ | .vhash _ _ _ p _ | .vcrc _ _ _ p _
  | .vld _ _ _ p _ | .vst _ _ _ p _ | .vlda _ _ _ p _ | .vsta _ _ _ p _ | .vstaAdd _ _ _ p _
  | .vtkadd _ _ _ p _ _ | .vtkmin _ _ _ p _ _ | .vtkmax _ _ _ p _ _
  | .vaadd _ _ _ p _ _ _ | .vamin _ _ _ p _ _ _ | .vamax _ _ _ p _ _ _ | .vaxchg _ _ _ p _ _ _
  | .vexp2 _ _ _ p | .vlog2 _ _ _ p | .vrcp _ _ _ p | .vrsq _ _ _ p | .vtanh _ _ _ p | .vsigm _ _ _ p
  | .vrng _ _ p | .rowpred _ _ _ p _ | .rcwadv _ _ p _ | .rcwld _ _ _ p _ | .pnot _ p => [p]
  | .vcvt _ _ pv pq w => if w.ts = 5 || w.td = 5 then [pq] else [pv, pq]
  | .pand _ a b | .por _ a b | .pxor _ a b | .pcnt _ a _ b | .rcwupd _ _ a b _ => [a, b]
  | _ => []

/-- Vector registers and streams an operation writes. -/
def Instr.vdests : Instr → List Nat
  | .vadd _ d _ _ _ _ | .vsub _ d _ _ _ _ | .vmul _ d _ _ _ _ | .vfma _ d _ _ _ _ | .vmin _ d _ _ _ | .vmax _ d _ _ _
  | .vabs _ d _ _ _ | .vneg _ d _ _ _ | .vred _ d _ _ _ | .vscan _ d _ _ _
  | .vshl _ d _ _ _ | .vshrI _ d _ _ _ | .vshrN _ d _ _ _ | .vand d _ _ _ | .vor d _ _ _ | .vxor d _ _ _ | .vnot d _ _
  | .vsel _ d _ _ _ | .vmov _ d _ _ | .vbcast _ d _ _ | .vrot _ d _ _ _ | .vperm _ d _ _ _ | .vshuf _ d _ _ _
  | .vcompr _ d _ _ _ | .vexpd _ d _ _ _ | .vbcmp d _ _ _ _ | .vbfind d _ _ _ _ | .vhash d _ _ _ _ | .vcrc d _ _ _ _
  | .vld d _ _ _ _ | .vlda d _ _ _ _
  | .vexp2 _ d _ _ | .vlog2 _ d _ _ | .vrcp _ d _ _ | .vrsq _ d _ _ | .vtanh _ d _ _ | .vsigm _ d _ _
  | .vrng d _ _ | .rcwupd d _ _ _ _ | .rcwadv d _ _ _ | .rcpdefEmbedded d _ _ | .ttr d _ => [d]
  | .vcvt d _ pv _ w => if w.td = 5 then [d, pv] else [d]
  | .vaadd _ _ _ _ r rt _ | .vamin _ _ _ _ r rt _ | .vamax _ _ _ _ r rt _ | .vaxchg _ _ _ _ r rt _ =>
    if rt = 1 then [r] else []
  | _ => []

/-- Whether the operation has a memory operand whose address an image records (R36). -/
def Instr.hasMem : Instr → Bool
  | .ldg .. | .stg .. | .ldl .. | .stl .. | .barinit .. | .bararr .. | .barwait ..
  | .tkopen .. | .tkskip .. | .tkdrain .. | .tkstat .. | .tkclose .. | .tkadd .. | .tkmin .. | .tkmax ..
  | .aadd .. | .amin .. | .amax .. | .axchg .. | .acas ..
  | .vld .. | .vst .. | .vlda .. | .vsta .. | .vstaAdd .. | .vtkadd .. | .vtkmin .. | .vtkmax ..
  | .vaadd .. | .vamin .. | .vamax .. | .vaxchg .. | .mma .. | .mmap .. => true
  | _ => false

/-- Kind, operation and header of a command: operations are numbered within a kind, FILL and NOTE by their mode. -/
def Instr.cmdOf : Instr → Option (Nat × Nat × CHdr)
  | .copy h => some (0, 0, h)
  | .gath h => some (1, 0, h) | .exsave h => some (1, 1, h) | .trunc h => some (1, 2, h)
  | .sieve h => some (2, 0, h) | .resto h => some (2, 1, h)
  | .fillGap h => some (3, 0, h) | .fillSeal h => some (3, 1, h) | .fillRequant h => some (3, 2, h) | .fillUnseal h => some (3, 3, h)
  | .coll h => some (4, 0, h)
  | .noteSend h => some (5, 0, h) | .noteRegister h => some (5, 1, h) | .noteDeregister h => some (5, 2, h)
  | .notePurge h => some (5, 3, h)
  | _ => none

/-- FILL and NOTE resolved by the mode that the staging set holds (R186, R436). -/
def Instr.withMode (stg : List Nat) : Instr → Instr
  | .fillGap h => let m := fld (stg.getD 3 0) 9 8
    if m = 0 then .fillGap h else if m = 1 then .fillSeal h else if m = 2 then .fillRequant h else .fillUnseal h
  | .noteSend h => let m := fld (stg.getD 5 0) 9 8
    if m = 0 then .noteSend h else if m = 1 then .noteRegister h else if m = 2 then .noteDeregister h else .notePurge h
  | i => i

/-- Whether the operation holds an access of memory, of a region or of another task, which waits behind an acquire that is still to be
performed (R347). A QBIND or QSYNC starts fetches of its stream. -/
def Instr.accesses : Instr → Bool
  | .xferOwned .. | .xferShared .. | .xferEngine .. | .lock .. | .unlock .. | .tokacq .. | .tokrel ..
  | .tdec .. | .endt | .gbar .. | .qbind .. | .qsync .. | .mzero .. => true
  | i => i.hasMem || i.cmdOf.isSome

/-- Whether the operation needs the matrix engine (R297). -/
def Instr.needsMatrix : Instr → Bool
  | .mma .. | .mmap .. | .mzero .. => true
  | _ => false

/-- Whether an operation is a store; the commit that carries a consuming load performs its bundle's stores before it (R125). -/
def Instr.isStore : Instr → Bool
  | .stl .. | .stg .. | .vst .. | .vsta .. | .vstaAdd .. | .barinit .. => true
  | _ => false

/-- Whether an operation asks for the checkpoint at its boundary once, whatever it finds (R163, R387). -/
def Instr.wantsBoundary : Instr → Bool
  | .gbar .. | .qsync .. => true
  | _ => false

/-- Whether the operation is an XFER (R102). -/
def Instr.isXfer : Instr → Bool
  | .xferOwned .. | .xferShared .. | .xferEngine .. => true
  | _ => false

/-- Whether the operation is control flow, a system operation, ENDT or YIELD: never kept (R38, R41). -/
def Instr.isTransfer : Instr → Bool
  | .br .. | .j .. | .jr .. | .call .. | .callr .. | .ret .. | .brt .. | .bsw .. | .loop .. => true
  | _ => false

/-- The operations whose bundle commits as if CK were set (R398). An output QSYNC is judged where it issues. -/
def Instr.commits : Instr → Bool
  | .fenceL | .fenceE | .mmap .. | .ifence | .gbar .. | .gleave .. | .tokacq .. | .tokrel .. | .endt | .yield
  | .trap .. | .brk .. | .rett => true
  | _ => false

end Sys2Proof
end

