-- ==== Sys2Proof/Machine/Regs.lean ====
section
/-! DEFINITION. State registers (R215 to R217), landings (R60 to R62), loads with a declared latency (R121, R122), the
storage of vector registers (R214, R220, R221). -/

namespace Sys2Proof.Machine

/-! ### The Elwiset view (R441 to R446) -/

/-- A die's identity in Elwiset. -/
def State.elwId (s : State) (d : Nat) : Nat := (s.die d).pkg * 8 + d

/-- Whether a core's die has halted its cores at the shutdown temperature (R478). -/
def State.asleep (s : State) (p : Nat) : Bool := (s.die (dieOf p)).elw.halted

/-- The limit in effect of a member: a SILENT one counts as 300 MHz (R442). -/
def Member.eff (m : Member) : Nat := if m.silent then 300 else m.limit

/-- The least limit in effect among members that are in the view; a joining member counts from its tick. -/
def ceilOf (own : Nat) (l : Tbl Member) : Nat :=
  l.foldl (fun c t => if t.2.joining then c else Nat.min c t.2.eff) own

/-- The earliest pending tick of a view. -/
def pendTick (l : Tbl Member) : Option Nat :=
  l.foldl (fun o t => match o, t.2.pendTick with
    | none, q => q
    | some a, some b => some (Nat.min a b)
    | some a, none => some a) none

/-- The view after the changes scheduled for tick `t` or earlier. -/
def applyPend (t : Nat) (l : Tbl Member) : Tbl Member :=
  (l.filter (fun m => !(m.2.removal && (m.2.pendTick.map (fun q => decide (q ≤ t))).getD false))).map (fun m =>
    match m.2.pendTick with
    | some q => if q ≤ t then (m.1, { m.2 with limit := m.2.pendLimit, pendTick := none, joining := false }) else m
    | none => m)

/-- GCEILNEXT and GTICKEFF (R446). -/
def Elw.next (e : Elw) : Bool × Nat × Nat :=
  match pendTick e.members with
  | none => (false, e.ceiling, e.lastTick)
  | some t => (true, ceilOf 700 (applyPend t e.members), t)

/-! ### State registers -/

/-- Lines a task has locked, over all dies (R77). -/
def State.lockUse (s : State) (t : Nat) : Nat :=
  ((List.range 8).map (fun d => ((s.die d).locks.filter (fun l => l.2 == t)).length)).foldl (fun a b => a + b) 0

/-- A state register as visible (R216, R217): write-only fields and reserved bits read 0. -/
def State.readSr (s : State) (n : Nat) : Word :=
  let e := (s.die (dieOf s.lc)).elw
  match n with
  | 0x000 => BitVec.ofNat 64 (s.tid * 2 ^ 32 + s.asid * 2 ^ 16 + s.ctx)
  | 0x001 => BitVec.ofNat 64 (lcoreWord s.lc)
  | 0x00C => BitVec.ofNat 64 (((List.range 6).map (fun k => b2n (Tbl.has s.myTask.parked k) * 2 ^ k)).foldl (fun a b => a + b) 0)
  | 0x00D => 0
  | 0x00E => BitVec.ofNat 64 s.myTask.lockq
  | 0x00F => BitVec.ofNat 64 (s.lockUse s.tid)
  | 0x040 => BitVec.ofNat 64 e.ceiling
  | 0x041 => BitVec.ofNat 64 (b2n e.next.1 * 2 ^ 63 + e.next.2.1)
  | 0x042 => BitVec.ofNat 64 e.next.2.2
  | 0x043 => BitVec.ofNat 64 (Nat.max 1 ((e.members.filter (fun m => !m.2.joining)).length))
  | 0x044 => BitVec.ofNat 64 e.gtime
  | _ => s.ar.getSr n

/-- Sign copies of bit 31 (R216, R360). -/
def sx32 (v : Nat) : Nat := modI 64 (sextI 32 v)

/-- A MOVD's write of a register's writable fields, clamped where the map says (R96, R123, R216, R217, R360). -/
def srMerge (n : Nat) (old v : Word) : Word :=
  let o := old.toNat
  let x := v.toNat
  let r : Nat :=
    if n = 0x002 then x % 2 ^ 32
    else if n = 0x003 then fld x 19 16 * 2 ^ 16 + fld x 12 0
    else if n = 0x004 then x % 2 ^ 25
    else if n = 0x005 || n = 0x006 || n = 0x007 then x
    else if n = 0x008 then Nat.max 16 (fld x 31 16) * 2 ^ 16 + Nat.max 16 (fld x 15 0)
    else if n = 0x009 then Nat.min 4096 (Nat.max 16 (x % 2 ^ 13))
    else if n = 0x00A then Nat.max 256 (x % 2 ^ 32)
    else if n = 0x00B then x % 2
    else if inRange 0x010 0x017 n then x % 2 ^ 16
    else if inRange 0x018 0x01F n || inRange 0x02C 0x031 n then sx32 x
    else if inRange 0x020 0x025 n then fld o 63 63 * 2 ^ 63 + x % 2 ^ 32
    else if inRange 0x026 0x02B n then x % 2 ^ 32
    else o
  BitVec.ofNat 64 r

/-- Declared latency GLAT (R96). -/
def State.glat (s : State) : Nat := (s.ar.getSr 0x009).toNat % 2 ^ 13

/-! ### Landing -/

def RKind.code : RKind → Nat
  | .x => 0 | .v => 1 | .p => 2 | .cc => 3 | .sr => 4 | .tile => 5 | .latch => 6 | .stg => 7

def RKind.ofCode : Nat → RKind
  | 0 => .x | 1 => .v | 2 => .p | 3 => .cc | 4 => .sr | 5 => .tile | 6 => .latch | _ => .stg

/-- Results in flight stand in landing order, and those of one cycle in the order of R61. -/
def insertLanding (l : Landing) : List Landing → List Landing
  | [] => [l]
  | m :: ms =>
    if l.cyc < m.cyc || (l.cyc == m.cyc && before l.iss l.slot m.iss m.slot) then l :: m :: ms
    else m :: insertLanding l ms

/-- Loads of the register that a landing of a later bundle overtakes: their data is discarded when it arrives (R121). A load whose own
landing cycle is still to come is not overtaken: on time it would land after the write (DEDUCED, log 60). -/
def Arch.overtake (a : Arch) (l : Landing) : Arch :=
  { a with loads := a.loads.map (fun q =>
      if q.kind == l.kind && q.num == l.num && q.iss < l.iss && q.cyc ≤ l.cyc then { q with dead := true } else q) }

/-- Whether a landing is the recipe's own result (R220). -/
def Recipe.own (r : Recipe) (l : Landing) : Bool := l.cyc == r.land && l.slot == r.slot && (l.iss == r.iss || l.iss == 0)

/-- What a landing in vector register `l.num` does to the recipe table (R220). -/
def landRecipes (l : Landing) (t : List Recipe) : List Recipe :=
  (t.filter (fun r => r.vd != l.num || r.own l || (l.cyc == r.land && before l.iss l.slot r.iss r.slot))).map (fun r =>
    if !r.stale && r.i.vsrcs.contains l.num && r.iss ≤ l.cyc then { r with stale := true, code := 1 } else r)

/-- One result lands in a register (R60, R95 step 3). A counter's landing is an increment (R137). Appends to streams are
the caller's. What lands in x0 is discarded, a poison mark with it (R45, R125; of the mark DESIGN CHOICE, log 60). -/
def Arch.landReg (a : Arch) (l : Landing) : Arch :=
  match l.kind with
  | .x =>
    if l.num = 0 then a
    else
      let a := a.overtake l
      match l.pois with
      | some ad => { a with xpois := Tbl.put a.xpois l.num ad }
      | none => { a.setX l.num (BitVec.ofNat 64 l.val) with xpois := Tbl.del a.xpois l.num }
  | .v =>
    let a := { a.overtake l with recipes := landRecipes l a.recipes
                                 vst := if Tbl.get 0 a.vst l.num = 3 then Tbl.put a.vst l.num 1 else a.vst }
    match l.pois with
    | some ad => { a with vpois := Tbl.put a.vpois l.num ad }
    | none => { a.setV l.num (BitVec.ofNat 2048 l.val) with vpois := Tbl.del a.vpois l.num }
  | .p => { a.setP l.num (BitVec.ofNat 256 l.val) with ppois := Tbl.del a.ppois l.num }
  | .cc => a.setSr (0x010 + l.num) (BitVec.ofNat 64 (((a.getSr (0x010 + l.num)).toNat + l.val) % 2 ^ 16))
  | .sr => a.setSr l.num (srMerge l.num (a.getSr l.num) (BitVec.ofNat 64 l.val))
  | .tile => { a with tiles := Tbl.put a.tiles l.num l.val }
  | .latch => { a with latches := Tbl.put a.latches l.num l.val }
  | .stg => { a with stg := Tbl.put a.stg l.num (BitVec.ofNat 64 l.val) }

/-- The recipe of a register. -/
def Arch.recipe (a : Arch) (v : Nat) : Option Recipe := a.recipes.find? (fun r => r.vd == v)

/-- A drop takes effect (R221). -/
def Arch.dropNow (a : Arch) (v : Nat) : Arch :=
  { a with vst := Tbl.put a.vst v (if (a.recipe v).isSome then 2 else 0)
           v := Tbl.del a.v v, vpois := Tbl.del a.vpois v, drops := Tbl.del a.drops v }

/-- Drops whose last write has landed take effect; `owed` are the registers that operations of a commit still to be performed
write (R221). -/
def Arch.settleDrops (a : Arch) (owed : List Nat) : Arch :=
  a.drops.foldl (fun a t =>
    if owed.contains t.1 || a.inflight.any (fun l => l.kind == .v && l.num == t.1 && l.iss ≤ t.2)
        || a.loads.any (fun l => l.kind == .v && l.num == t.1 && l.iss ≤ t.2 && !l.dead)
    then a else a.dropNow t.1) a

/-- Vector registers that operations of a commit write. -/
def owedBy (l : List CommitOp) : List Nat := (l.map (fun o => o.i.vdests)).flatten

/-- Vector registers that operations of the context's commits, still to be performed, write. -/
def Ctx.owed (k : Ctx) : List Nat :=
  owedBy k.post ++ (match k.hold with
    | some h => h.i.vdests ++ owedBy h.rest
    | none => [])

/-- A write of a vector register issues: it becomes RESIDENT, and a later write cancels a pending drop (R214, R221). A write
over a dropped value leaves that value to its recipe until it lands. -/
def Arch.allocV (a : Arch) (iss v : Nat) : Arch :=
  if 56 ≤ v then a
  else
    let st := Tbl.get 0 a.vst v
    { a with vst := Tbl.put a.vst v (if 2 ≤ st then 3 else 1)
             drops := if Tbl.has a.drops v && Tbl.get 0 a.drops v < iss then Tbl.del a.drops v else a.drops }

/-- Resident registers, pending drops counted (R224). -/
def Arch.resident (a : Arch) : Nat := (a.vst.filter (fun t => t.2 == 1 || t.2 == 3)).length

/-! ### Results of the issuing bundle -/

/-- The context cycle in which the bundle that comes to issue issues (R8). -/
def State.cyc (s : State) : Nat := s.ar.scyc + 1

/-- Adds a result in flight of the issuing operation, `lat` context cycles after its own. -/
def State.out (s : State) (kind : RKind) (num lat val : Nat) (pois : Option Nat := none) : State :=
  s.modAr (fun a =>
    let a := if kind = .v then a.allocV s.cyc num else a
    { a with inflight := insertLanding ⟨s.cyc + lat, s.cyc, s.slot, s.bun.pc, kind, num, val, pois⟩ a.inflight })

/-- A scalar result (R60, R250). -/
def State.outX (s : State) (d lat : Nat) (v : Word) : State := s.out .x d lat v.toNat
/-- A vector result; a stream code appends it (R160). -/
def State.outV (s : State) (d lat v : Nat) : State := s.out .v d lat v
def State.outP (s : State) (d lat v : Nat) : State := s.out .p d lat v

/-- How a declared-latency result comes back: register, latency, value, poison, and what a late arrival and its record
need (R121, R122, R414). `area` says what the load reads (R345). -/
structure LoadRes where
  kind : RKind
  num : Nat
  lat : Nat
  val : Nat
  pois : Option Nat := none
  addr : Nat
  qual : Nat := 0
  size : Nat := 3
  remote : Bool := false
  noWin : Bool := false
  area : Nat := 0
deriving DecidableEq, Repr

/-- The next entry of the list of arrivals: 0 on time, else how many core cycles after its due time (log 5). -/
def State.popLate (s : State) : Nat × State :=
  match s.late with
  | [] => (0, s)
  | b :: l => (b, { s with late := l })

/-- The pending load that a late result becomes. -/
def LoadRes.pend (r : LoadRes) (id c slot pc lag : Nat) (waits : Bool) : PendLoad :=
  ⟨id, c + r.lat, c, slot, pc, r.kind, r.num, r.val, r.pois, r.addr, r.qual, r.size, r.remote, r.noWin, waits, none, lag, r.area, false⟩

/-- The change of a context that a load makes: on time it is a result in flight, late it is a pending load. -/
def Arch.addLoad (a : Arch) (r : LoadRes) (id c slot pc lag : Nat) (waits : Bool) : Arch :=
  let a := if r.kind = .v then a.allocV c r.num else a
  if waits || lag != 0 then { a with loads := a.loads ++ [r.pend id c slot pc lag waits] }
  else { a with inflight := insertLanding ⟨c + r.lat, c, slot, pc, r.kind, r.num, r.val, r.pois⟩ a.inflight }

/-- A load of the issuing operation (R95, R120, R122). Its value is the memory's own at the moment the load is performed;
R119 and R348 also allow a weak read that races with another party an older qualifying write (DESIGN CHOICE, log 74). -/
def State.load (s : State) (r : LoadRes) : State :=
  let (lag, s) := s.popLate
  (s.modAr (fun a => a.addLoad r s.fresh s.cyc s.slot s.bun.pc lag false)).bump

/-- A load of the issuing operation whose data is still to come: from another package, or from a bank where it waits. -/
def State.loadWait (s : State) (r : LoadRes) : State :=
  (s.modAr (fun a => a.addLoad r s.fresh s.cyc s.slot s.bun.pc 0 true)).bump

/-- A load performed by the commit of the bundle in slot `slot`: the bundle has issued, and image and live state both
take the result (R395 step 4, R402). -/
def State.loadBoth (s : State) (slot : Nat) (r : LoadRes) (waits : Bool) : State :=
  let (lag, s) := s.popLate
  let c := s.ar.scyc
  let f (a : Arch) := a.addLoad r s.fresh c slot s.bun.pc lag waits
  (s.modCx (fun k => { k with arch := f k.arch, image := f k.image })).bump

/-- Runs `f` for context `c` of core `p`, and returns to the issuing context. -/
def State.within (s : State) (p c : Nat) (f : State → State) : State :=
  let t := f { s with cur := p, ctx := c }
  { t with cur := s.cur, ctx := s.ctx }

/-- An asynchronous write of a context: live state and image alike (R62, R402). -/
def State.asyncWrite (s : State) (p c : Nat) (f : Arch → Arch) : State :=
  s.modCtxAt p c (fun k => { k with arch := f k.arch, image := f k.image })

end Sys2Proof.Machine
end

