-- ==== Sys2Proof/Machine/Code.lean ====
section
/-! DEFINITION. Fetching: packets, fill words, fall-through order, targets of transfers (R26 to R29, R353, R357). -/

namespace Sys2Proof.Machine

/-- Byte in the two instruction banks of a code address (R353): bank × 0x2_0000 + offset. -/
def codeEnd : Nat := 0x1_8000

/-- The 16 words of a packet of a context, from its fetched packets (R151, R365) or from its logical core's banks. -/
def State.packet (s : State) (pk : Nat) : List Nat :=
  let k := s.cx
  if Tbl.has k.pkts pk then Tbl.get [] k.pkts pk
  else
    let m := (s.lcore s.lc).code.mem
    (List.range 16).map (fun i => m.readN (64 * pk + 4 * i) 4)

/-- Whether a packet carries poison (R153). -/
def State.packetPois (s : State) (pk : Nat) : Bool :=
  if Tbl.has s.cx.pkts pk then NatSet.mem s.cx.pktPois pk
  else (List.range 4).any (fun i => (s.lcore s.lc).code.isPois (64 * pk + 16 * i))

/-- The word at a code address. -/
def State.word (s : State) (a : Nat) : Nat := (s.packet (a / 64)).getD (a / 4 % 16) 0

/-- A packet that a context fetches stays fetched until IFENCE (R151, R365). -/
def State.fetchPacket (s : State) (pk : Nat) : State :=
  if Tbl.has s.cx.pkts pk then s
  else s.modCx (fun k => { k with pkts := Tbl.put k.pkts pk (s.packet pk)
                                  pktPois := if s.packetPois pk then NatSet.insert k.pktPois pk else k.pktPois })

/-- Detail words and slot of BAD_TARGET (R353). -/
def trapTarget (code a slot : Nat) : Trap := { cause := 2, d0 := code, d1 := a, slot := slot }
def trapIllegal (code slot : Nat) (d1 : Nat := 0) : Trap := { cause := 1, d0 := code, d1 := d1, slot := slot }

/-- BAD_TARGET at the end of a bank, which the record's PC names (R353). -/
def trapBankEnd (a : Nat) : Trap :=
  { trapTarget 1 (a / 2 ^ 17 * 2 ^ 17 + codeEnd) 8 with pc := some (a / 2 ^ 17 * 2 ^ 17 + codeEnd) }

/-- Packets of a bank, and one more for its end. -/
def seekFuel : Nat := 1537

/-- The address at which fetch in fall-through order finds its next header, past fill words (R28). -/
def State.seek (s : State) : Nat → Nat → Except Trap Nat
  | 0, a => .error (trapBankEnd a)
  | fuel + 1, a =>
    if codeEnd ≤ a % 2 ^ 17 then .error (trapBankEnd a)
    else
      let w := s.word a
      if fld w 31 31 = 1 then .ok a
      else if w != 0 then .error { trapIllegal 11 8 a with pc := some a }
      else
        match ((List.range 16).filter (fun i => a / 4 % 16 < i)).find? (fun i => s.word (a / 64 * 64 + 4 * i) != 0) with
        | some i => .error { trapIllegal 11 8 (a / 64 * 64 + 4 * i) with pc := some a }
        | none => s.seek fuel (a / 64 * 64 + 64)


/-- The words of a packet from a header to the packet's end. -/
def State.wordsFrom (s : State) (a : Nat) : List Nat := (s.packet (a / 64)).drop (a / 4 % 16)

/-- The images as the decoder takes them: slot, words, instruction. -/
def Arch.imgList (a : Arch) : List (Nat × Nat × Nat × Instr) := a.images.map (fun t => (t.1, t.2.w, t.2.w2, t.2.i))

/-- The bundle at a header's address. -/
def State.bundleAt (s : State) (a : Nat) : Except (Nat × Nat) Bundle := decodeBundle (s.wordsFrom a) s.ar.imgList

/-- Number of words of the bundle at a header's address, 1 where it has no length. -/
def State.bundleWords (s : State) (a : Nat) : Nat :=
  let h := decodeHdr (s.word a)
  match bundleLen ((s.wordsFrom a).drop 1) (1 + slotCount h.pres) 1 true with
  | .ok n => n
  | .error _ => 1

/-- The code address of the next bundle in fall-through order, as a link value (R357): the word after the bundle where it
lies in the packet and is not 0, else the next packet. -/
def State.linkOf (s : State) (a n : Nat) : Nat :=
  let b := a + 4 * n
  if b / 64 = a / 64 && s.word b != 0 then b else a / 64 * 64 + 64

/-- Where fetch goes on after a bundle of `n` words (R28): past the fill of its packet, unless that fill is broken. -/
def State.fallOf (s : State) (a n : Nat) : Nat :=
  let b := a + 4 * n
  if b / 64 = a / 64 && s.word b = 0 && ((s.wordsFrom b).any (fun w => w != 0)) then b else s.linkOf a n

/-- The next bundle to issue from an address in fall-through order, for NEXT and RESUME of a frame (R413); the address itself where
none follows. -/
def State.nextHeader (s : State) (a : Nat) : Nat :=
  match s.seek seekFuel a with
  | .ok b => b
  | .error t => t.pc.getD a

/-- The check of a transfer's target (R353): an offset within the bank, or the reason code. -/
def State.targetCheck (s : State) (t : Int) (bank : Nat) (shown : Nat) : Except Trap Nat :=
  if t < 0 || (codeEnd : Int) ≤ t then .error (trapTarget 1 shown 0)
  else if t % 4 != 0 then .error (trapTarget 2 shown 0)
  else
    let a := bank * 2 ^ 17 + t.toNat
    if fld (s.word a) 31 31 = 0 then .error (trapTarget 3 shown 0) else .ok a

/-- A relative target: offset plus a byte displacement, in the current bank. -/
def State.relTarget (s : State) (a : Nat) (disp : Int) : Except Trap Nat :=
  let t := ((a % 2 ^ 17 : Nat) : Int) + disp
  s.targetCheck t (a / 2 ^ 17) (modI 64 (((a / 2 ^ 17 * 2 ^ 17 : Nat) : Int) + t))

/-- A target held in a register. -/
def State.regTarget (s : State) (v : Nat) : Except Trap Nat :=
  if 2 ^ 18 ≤ v then .error (trapTarget 1 v 0) else s.targetCheck ((v % 2 ^ 17 : Nat) : Int) (v / 2 ^ 17) v

/-- Whether a code address names a bundle (R353), for NEXT, RESUME and trap vectors. -/
def State.codeOk (s : State) (v : Nat) : Bool :=
  match s.regTarget v with
  | .ok _ => true
  | .error _ => false

/-- The header that the fall-through of the bundle at `a` reaches, checked under R353 for a transfer within a bank (R361). -/
def State.fallTarget (s : State) (bank a n : Nat) : Except Trap Nat :=
  let b := s.linkOf a n
  if codeEnd ≤ b % 2 ^ 17 || b / 2 ^ 17 != bank then .error (trapTarget 1 b 0)
  else if fld (s.word b) 31 31 = 0 then .error (trapTarget 3 b 0) else .ok b

end Sys2Proof.Machine
end

