-- ==== Sys2Proof/Machine/Stream.lean ====
section
/-! DEFINITION. Streams (R157 to R165): elements, windows, appends; and reads of vector operands. -/

namespace Sys2Proof.Machine

def Stream.space (st : Stream) : Nat := fld st.d0.toNat 63 62
def Stream.rc (st : Stream) : Nat := fld st.d0.toNat 61 60
def Stream.addr (st : Stream) : Nat := fld st.d0.toNat 56 0
def Stream.n0 (st : Stream) : Nat := fld st.d1.toNat 15 0
def Stream.n1 (st : Stream) : Nat := fld st.d1.toNat 31 16
def Stream.n2 (st : Stream) : Nat := fld st.d1.toNat 47 32
def Stream.count (st : Stream) : Nat := st.n0 * st.n1 * st.n2

/-- A binding that R157, R158 or R313 refuses. -/
def Stream.malformed (st : Stream) : Bool :=
  st.space == 3 || fld st.d0.toNat 59 57 != 0 || st.n0 == 0 || st.n1 == 0 || st.n2 == 0 || fld st.d1.toNat 63 48 != 0
  || fld st.d3.toNat 63 32 != 0 || st.addr % 64 != 0
  || fld st.d2.toNat 31 0 % 64 != 0 || fld st.d2.toNat 63 32 % 64 != 0 || fld st.d3.toNat 31 0 % 64 != 0
  || (st.space == 1 && (st.rc != 0 || fld st.d0.toNat 56 27 != 0))
  || (st.fek == 1 && st.space != 0) || (st.add == 1 && st.space != 1)

/-- The address of element n (R157). -/
def Stream.elem (st : Stream) (n : Nat) : Nat :=
  let i0 := n % st.n0
  let i1 := n / st.n0 % st.n1
  let i2 := n / (st.n0 * st.n1)
  modI 64 ((st.addr : Nat) + (i0 : Int) * sextI 32 (fld st.d2.toNat 31 0) + (i1 : Int) * sextI 32 (fld st.d2.toNat 63 32)
    + (i2 : Int) * sextI 32 (fld st.d3.toNat 31 0))

/-- Where 64-byte line i of an element lies: space, unit, offset or physical address. -/
structure Place where
  sp : Space
  unit : Nat
  off : Nat
deriving DecidableEq, Repr

def Place.key (p : Place) : Space × Nat × Nat := (p.sp, p.unit, p.off)

/-- Physical places of the four lines of a global access of 256 bytes. -/
def State.globLines (s : State) (ea : Nat) (write : Bool) : Nat → Nat → Except Trap (List Nat)
  | 0, _ => .ok []
  | n + 1, i =>
    match (if 2 ^ 57 ≤ ea + 64 * i then (.error (trapTranslation 1 (ea + 64 * i)) : GRes) else s.plainPA (ea + 64 * i) write) with
    | .error t => .error t
    | .ok ph =>
      match s.globLines ea write n (i + 1) with
      | .error t => .error t
      | .ok l => .ok (ph.pa :: l)

/-- The four lines of an element with its address checks (R159, R160). -/
def State.elemPlaces (s : State) (st : Stream) (n : Nat) (write : Bool) : Except Trap (List Place) :=
  let ea := st.elem n
  if st.space = 2 then
    match s.globLines ea write 4 0 with
    | .error t => .error t
    | .ok l => .ok (l.map (fun pa => match s.isLocal (dieOf s.lc) pa, s.home pa with
      | true, .acc u o => ⟨.acc, u, o⟩
      | _, _ => ⟨.glob, 0, pa⟩))
  else
    match clusterAddr s.lc (if st.space = 0 then spSize else accSize) ea 256 with
    | .error c => .error (trapAddress c ea)
    | .ok (u, o) => .ok ((List.range 4).map (fun i => ⟨if st.space = 0 then .sp else .acc, u, o + 64 * i⟩))

/-- The bank code of a read under code `rc` of a space. -/
def codeFor (sp : Space) (rc : Nat) : Option Nat := if sp = .sp then some rc else none

/-- The global address of a line that is reached as one: memory, and accumulator memory outside the cluster (R71). -/
def State.placePa (s : State) (p : Place) : Option Nat :=
  match p.sp with
  | .glob => some p.off
  | .acc => if clusterOf p.unit = clusterOf s.lc then none else some (accPa (s.die (dieOf s.lc)).pkg p.unit p.off)
  | _ => none

/-- The number of stream `q` of the issuing context among requesters. -/
def State.myStream (s : State) (q : Nat) : Nat := streamKey s.cur s.ctx q

/-- 64 bytes of a line as stream `q` reads them, the context's withheld bytes over them (R98, R159). -/
def State.readLine (s : State) (q : Nat) (p : Place) (rc : Nat) : Nat :=
  match s.placePa p with
  | some pa => overlay s.cx.wbuf p.sp p.unit p.off 64 (s.bytesHere (dieOf s.lc) (s.myStream q) pa s.tid s.fresh 64)
  | none => s.ownBytes p.sp p.unit (codeFor p.sp rc) p.off 64

/-- Whether poison of a line reaches stream `q`. -/
def State.poisLine (s : State) (q : Nat) (p : Place) (rc : Nat) : Bool :=
  let offs := (List.range 4).map (fun g => 16 * g)
  match s.placePa p with
  | some pa => offs.any (fun g => s.poisHere (dieOf s.lc) (s.myStream q) (pa + g) s.tid s.fresh && !coveredGranule s.cx.wbuf p.sp p.unit (p.off + g))
  | none => s.ownPois p.sp p.unit (codeFor p.sp rc) (offs.map (fun g => p.off + g))

/-- The stream of a context. -/
def State.stream (s : State) (q : Nat) : Option Stream := (s.ar.streams.find? (fun t => t.1 == q)).map (fun t => t.2)

/-- A window of fetched elements. -/
def State.win (s : State) (q : Nat) : List Elem := Tbl.get [] s.cx.win q

/-- The first 256-byte line of an element that stream `q` has to ask for (R89, R426). -/
def State.farGap (s : State) (q : Nat) (l : List Place) : Option Nat :=
  l.findSome? (fun p => match s.placePa p with
    | some pa => if s.lineHere (dieOf s.lc) (s.myStream q) pa s.tid s.fresh then none else some (pa / 256 * 256)
    | none => none)

/-- Element n of an input stream as a fetch returns it; none while a line of it is still to be brought, a keeping fetch waits at the
bank, a withheld add overlaps it, or its translation fails: no trap is taken then, and the fetch waits (R83, R117, R159, R316). -/
def State.fetchElem (s : State) (q : Nat) (st : Stream) (n : Nat) : Option Elem :=
  let ea := st.elem n
  match s.elemPlaces st n false with
  | .error t => if t.cause = 3 then none else some ⟨0, [], some { t with d2 := q }⟩
  | .ok ps =>
    if (s.farGap q ps).isSome || ps.any (fun p => addTouches s.cx.wbuf p.sp p.unit p.off 64) then none
    else
      let p0 := ps.headD ⟨.sp, 0, 0⟩
      let tag := if st.space = 0 && !s.swzOff then LCore.tagFail (s.lcore p0.unit) st.rc p0.off 256 else none
      match tag with
      | some d => some ⟨0, ps.map Place.key, some { cause := 18, d0 := d, d1 := ea, d2 := q }⟩
      | none =>
        if st.fek = 1 && !ps.all (fun p => (s.lcore p.unit).sp.full ((s.lcore p.unit).places .sp (some st.rc) p.off 64)) then none
        else if ps.any (fun p => s.poisLine q p st.rc) then some ⟨0, ps.map Place.key, some { trapPoison ea with d2 := q }⟩
        else some ⟨joinEl 512 (ps.map (fun p => s.readLine q p st.rc)), ps.map Place.key, none⟩

/-- Whether a stream may fetch its next element now (R159); one whose translation fault waits for its repair may not (R83). -/
def State.canFetch (s : State) (q : Nat) : Bool :=
  match s.stream q with
  | none => false
  | some st =>
    let w := s.win q
    st.dir == 0 && !Tbl.has s.cx.swait q && w.length < st.depth && st.pos + w.length < st.count
      && (s.fetchElem q st (st.pos + w.length)).isSome

/-- One element is fetched; the lines that were brought for it have served. -/
def State.fetchNext (s : State) (q : Nat) : State :=
  match s.stream q with
  | none => s
  | some st =>
    let w := s.win q
    if s.canFetch q then
      match s.fetchElem q st (st.pos + w.length) with
      | none => s
      | some e => (s.modCx (fun k => { k with win := Tbl.put k.win q (w ++ [e]) })).dropGot (fun r => r == s.myStream q)
    else s

/-- The window up to the first element with a line that `hit` names (R161, R316). -/
def cutWin (hit : Space × Nat × Nat → Bool) : List Elem → List Elem
  | [] => []
  | e :: l => if e.lines.any hit then [] else e :: cutWin hit l

/-- A store of the context over `n` bytes of a fetched window discards the element and every later one (R161). -/
def State.cutWindows (s : State) (sp : Space) (unit off n : Nat) : State :=
  s.modCx (fun k => { k with win := k.win.map (fun t =>
    (t.1, cutWin (fun p => p.1 == sp && p.2.1 == unit && p.2.2 < off + n && off < p.2.2 + 64) t.2)) })

/-- The context cycle after that in which the last unwritten result of the issuing context over a line was issued, of those issued before
cycle `iss`; 0 without one (R300). -/
def State.lastResult (s : State) (iss : Nat) (sp : Space) (unit line : Nat) : Nat :=
  if sp = .acc then ((s.core s.cur).matPend.filter (fun r => r.ctx == s.ctx && !r.written && r.iss < iss && r.touches unit line 64)).foldl
    (fun m r => Nat.max m (r.iss + 1)) 0 else 0

/-- What the streams of the context have of a global line that it stores to is not used (R161, R343). -/
def State.dropLine (s : State) (pa : Nat) : State :=
  let mine (r : Nat) : Bool := r % 2 == 1 && r / 2 / 8 == 4 * s.cur + s.ctx
  { s with got := s.got.filter (fun g => !(mine g.req && g.line == pa / 256))
           dies := s.dies.map (fun d => (d.1, { d.2 with copies := d.2.copies.map (fun k =>
             if k.m.kind == 1 && mine k.req && k.m.dpkg == pa / 2 ^ 44 && k.m.addr / 256 == pa % 2 ^ 44 / 256 then { k with stale := true } else k) })) }

/-- Whether the VLD that a recipe captured read a scratchpad line. -/
def Recipe.readLine (r : Recipe) (unit line : Nat) : Bool :=
  match r.i with
  | .vld .. => r.addr / 2 ^ 21 % 32 == coreIn unit && inRange (fld r.addr 20 0) (fld r.addr 20 0 + 192) line
  | _ => false

/-- A store of the context to a line that a recipe's VLD read, later in program order, makes the recipe stale (R220). -/
def staleStore (iss slot unit line : Nat) (t : List Recipe) : List Recipe :=
  t.map (fun r => if !r.stale && before r.iss r.slot iss slot && r.readLine unit line then { r with stale := true, code := 2 } else r)

/-- Appends to output streams that are in flight, which have reserved their entries (R160). -/
def Arch.appends (a : Arch) : Nat :=
  (a.inflight.filter (fun l => l.kind == .v && decide (56 ≤ l.num))).length + (a.loads.filter (fun q => q.kind == .v && decide (56 ≤ q.num))).length

/-- An XFER or a fence: its bundle's stores of later slots are performed after it (R42, R106, R135). -/
def CommitOp.splits (o : CommitOp) : Bool :=
  match o.i with
  | .xferOwned .. | .xferShared .. | .xferEngine .. | .fenceL | .fenceE => true
  | _ => false

/-- Entries of an operation issued in cycle `iss` enter the store-withholding buffer; windows they overlap are discarded, and
recipes over their lines become stale (R161, R220, R397). -/
def State.withhold (s : State) (iss : Nat) (es : List WEnt) : State :=
  let s := es.foldl (fun s e => s.cutWindows e.sp e.unit e.line 64) s
  let sps := es.filter (fun e => e.sp == .sp && e.mask != 0)
  let s := s.modAr (fun a => { a with recipes := sps.foldl (fun t e => staleStore iss e.slot e.unit e.line t) a.recipes })
  let s := s.modBun (fun b => { b with stores := b.stores ++ sps.map (fun e => (e.slot, e.unit, e.line)) })
  let s := es.foldl (fun s e => match s.placePa ⟨e.sp, e.unit, e.line⟩ with
    | some pa => s.dropLine pa
    | none => s) s
  let es := es.map (fun e => { e with ep := s.lastResult iss e.sp e.unit e.line, iss := iss })
  s.modCx (fun k => { k with wbuf := pushEntries (k.arch.appends != 0 || s.bun.ops.any CommitOp.splits) k.wbuf es })

/-- The binding to which a result for stream `q` of an operation issued in cycle `iss` belongs (R160). -/
def Arch.boundTo (a : Arch) (q iss : Nat) : Option Stream :=
  match a.old.find? (fun t => t.1 == q && iss ≤ t.2.1) with
  | some t => some t.2.2
  | none => (a.streams.find? (fun t => t.1 == q)).map (fun t => t.2)

/-- That binding has taken one element more. -/
def Arch.appended (a : Arch) (q iss : Nat) : Arch :=
  let up (st : Stream) : Stream := { st with pos := st.pos + 1 }
  if a.old.any (fun t => t.1 == q && iss ≤ t.2.1) then
    { a with old := a.old.map (fun t => if t.1 = q then (t.1, (t.2.1, up t.2.2)) else t) }
  else { a with streams := a.streams.map (fun t => if t.1 = q then (t.1, up t.2) else t) }

/-- A result lands in an output stream: its next element enters the withholding buffer, or its check traps (R160). A load that met poison
appends nothing and traps as such an element does (R279; DESIGN CHOICE, log 61). -/
def State.append (s : State) (l : Landing) : State :=
  let q := l.num - 56
  let stop (s : State) (t : Trap) : State := s.modTask s.tid (fun k => { k with async := k.async ++
    [{ t with d2 := q, slot := l.slot, pc := some l.pc, cyc := some l.iss, async := true }] })
  match s.ar.boundTo q l.iss, l.pois with
  | none, _ => s
  | some _, some ad => stop s (trapPoison ad)
  | some st, none =>
    match s.elemPlaces st st.pos true with
    | .error t => stop s { t with d1 := st.elem st.pos }
    | .ok ps =>
      let kind : WKind := if st.add = 1 then (if st.ai = 1 then .addI else .addF) else .weak
      let es := (ps.zip (List.range 4)).map (fun t =>
        (⟨t.1.sp, t.1.unit, t.1.off, ones 64, el 512 l.val t.2, kind, if t.1.sp = .sp then st.rc else 4, l.pc, l.slot, 0, 15, 0, true⟩ : WEnt))
      (s.withhold l.iss es).modAr (fun a => a.appended q l.iss)

/-- Whether a result, or a load, appends to an output stream. -/
def Landing.toStream (l : Landing) : Bool := l.kind == .v && decide (56 ≤ l.num)
def PendLoad.toStream (q : PendLoad) : Bool := q.kind == .v && decide (56 ≤ q.num)

/-- The landing that a load becomes. -/
def PendLoad.landing (q : PendLoad) : Landing := ⟨q.cyc, q.iss, q.slot, q.pc, q.kind, q.num, q.val, q.pois⟩

/-- Whether the data of a load to an output stream comes only with time that a waiting context does not give: it is late, or a bank or another
package holds it. -/
def PendLoad.lateStream (scyc : Nat) (q : PendLoad) : Bool := q.toStream && !q.dead && (q.waits || decide (q.cyc ≤ scyc))

/-- Elements in flight to output streams are appended (R163, R392). -/
def State.flushStreams (s : State) : State :=
  let mine (q : PendLoad) : Bool := q.toStream && !q.dead && !q.lateStream s.ar.scyc
  let l := (s.ar.loads.filter mine).foldl (fun l q => insertLanding q.landing l) (s.ar.inflight.filter Landing.toStream)
  let s := s.modAr (fun a => { a with inflight := a.inflight.filter (fun l => !l.toStream), loads := a.loads.filter (fun q => !mine q) })
  l.foldl (fun s l => s.append l) s

/-- Whether the task of the issuing context still owes elements of its output streams: they have not come, or other packages have not answered
them (R163, R392). -/
def State.streamsOwe (s : State) : Bool :=
  s.ar.streams.any (fun t => t.2.dir == 1)
    && (s.ar.loads.any (fun q => q.toStream && !q.dead) || s.dies.any (fun d => d.2.copies.any (fun k => k.task == s.tid && k.m.kind == 3 && k.req == 0)))

/-- One result of the issuing context lands. -/
def State.landOne (s : State) (l : Landing) : State :=
  if l.kind = .v && 56 ≤ l.num then s.append l else s.modAr (fun a => a.landReg l)

/-- A load whose landing cycle `c` ends in core cycle `cy` falls due (R122). -/
def PendLoad.falls (c cy : Nat) (q : PendLoad) : PendLoad := if q.cyc = c then { q with dueAt := some cy } else q

/-- The end of the context's current context cycle: its results land in the order of R61, loads fall due, drops take
effect (R60, R121, R221). -/
def State.endCycle (s : State) : State :=
  let c := s.ar.scyc
  let now := s.ar.inflight.filter (fun l => l.cyc == c)
  let s := s.modAr (fun a => { a with inflight := a.inflight.filter (fun l => l.cyc != c) })
  let vs := (now.filter (fun l => l.kind == .v && l.num < 56)).map (fun l => l.num)
  let s := now.foldl (fun s l => s.landOne l) s
  let s := s.modCx (fun k => { k with wrote := vs.foldl (fun w v => NatSet.insert w v) k.wrote })
  let cy := (s.core s.cur).cyc
  let owed := s.cx.owed ++ owedBy s.bun.ops
  s.modAr (fun a => Arch.settleDrops { a with loads := a.loads.map (PendLoad.falls c cy) } owed)

/-! ### Vector operands -/

/-- The context's own matrix results over the head element of an accumulator stream (R299). -/
def State.headMeets (s : State) (q : Nat) (f : MRes → Bool) : Bool :=
  match s.stream q, s.win q with
  | some _, e :: _ =>
    (s.core s.cur).matPend.any (fun r => r.ctx == s.ctx && f r && e.lines.any (fun p => p.1 == .acc && r.touches p.2.1 p.2.2 64))
  | _, _ => false

/-- Whether the head element is unpredictable: a result of the context over it, maybe of this bundle, has not had its latency (R299). -/
def State.headFree (s : State) (q : Nat) : Bool :=
  s.headMeets q (fun r => s.cyc ≤ r.cyc)
    || ((s.win q).headD ⟨0, [], none⟩).lines.any (fun p => p.1 == .acc && s.inBunTile p.2.1 p.2.2 64)

/-- The head element of a stream, as it was when the bundle issued (R46); its bytes that are unpredictable are free values (R63, R299,
log 6). -/
def State.headElem (s : State) (q : Nat) : Nat :=
  if Tbl.has s.bun.heads q then Tbl.get 0 s.bun.heads q
  else
    let e := (s.win q).headD ⟨0, [], none⟩
    if s.headFree q then
      let rs := (s.core s.cur).matPend.filter (fun r => r.ctx == s.ctx && decide (s.cyc ≤ r.cyc))
      joinEl 8 ((List.range 256).map (fun i => match e.lines[i / 64]? with
        | some (Space.acc, u, o) => if rs.any (fun r => r.touches u (o + i % 64) 1) || s.inBunTile u (o + i % 64) 1 then el 8 (Config.freeVec (s.free + q)).toNat i else el 8 e.val i
        | _ => el 8 e.val i))
    else e.val

/-- A vector source as visible at issue (R46, R263). -/
def State.rv (s : State) (n : Nat) : Nat := if 56 ≤ n then s.headElem (n - 56) else (s.ar.getV n).toNat

/-- The old destination of a merge: zero for a stream (R264). -/
def State.rvd (s : State) (n : Nat) : Nat := if 56 ≤ n then 0 else (s.ar.getV n).toNat

/-- Results in flight to a stream (R160). -/
def Arch.flightTo (a : Arch) (q : Nat) : Nat :=
  (a.inflight.filter (fun l => l.kind == .v && l.num == 56 + q)).length
    + (a.loads.filter (fun l => l.kind == .v && l.num == 56 + q)).length

/-- Those of them that belong to its current binding. -/
def Arch.flightNow (a : Arch) (q : Nat) : Nat :=
  let later (iss : Nat) : Bool := !a.old.any (fun t => t.1 == q && iss ≤ t.2.1)
  (a.inflight.filter (fun l => l.kind == .v && l.num == 56 + q && later l.iss)).length
    + (a.loads.filter (fun l => l.kind == .v && l.num == 56 + q && later l.iss)).length

/-- Reading a stream code (R159, R165). -/
def State.chkStreamRead (s : State) (q : Nat) : Chk :=
  match s.stream q with
  | none => .trap { cause := 12, d0 := 1, d1 := q }
  | some st =>
    if st.dir = 1 then .trap { cause := 12, d0 := 1, d1 := q }
    else if st.count ≤ st.pos then .trap { cause := 12, d0 := 3, d1 := q }
    else
      match s.win q with
      | [] =>
        let w : Wait := if st.fek = 1 then .fe else .stream
        match s.elemPlaces st st.pos false with
        | .error _ => .wait w
        | .ok ps => if ps.any (fun p => addTouches s.cx.wbuf p.sp p.unit p.off 64) then .wait .ckpt else .wait w
      | e :: _ =>
        match e.mark with
        | some t => .trap t
        | none => if !s.headFree q && s.headMeets q (fun r => !r.written) then .wait .engine else .ok

/-- Appending to a stream code (R165); `apps` are the appends of earlier slots of the bundle. -/
def State.chkAppend (s : State) (q : Nat) : Chk :=
  match s.stream q with
  | none => .trap { cause := 12, d0 := 2, d1 := q }
  | some st =>
    if st.dir = 0 then .trap { cause := 12, d0 := 2, d1 := q }
    else if st.count ≤ st.pos + s.ar.flightNow q + (s.bun.apps.filter (fun n => n == 56 + q)).length
    then .trap { cause := 12, d0 := 4, d1 := q } else .ok

end Sys2Proof.Machine
end

