-- ==== Sys2Proof/Machine/Flags.lean ====
section
/-! DEFINITION. The conditions of R49. The machine has no flags register: a condition is computed by the operation that names
it, into a register or a predicate. -/

namespace Sys2Proof.Machine

/-- The integer table of R49 on 64-bit patterns. -/
def condI (c a b : Nat) : Bool :=
  match c with
  | 0 => a == b
  | 1 => a != b
  | 2 => decide (sextI 64 a < sextI 64 b)
  | 3 => decide (sextI 64 b ≤ sextI 64 a)
  | 4 => decide (sextI 64 a ≤ sextI 64 b)
  | 5 => decide (sextI 64 b < sextI 64 a)
  | 6 => decide (a < b)
  | 7 => decide (b ≤ a)
  | 8 => decide (a ≤ b)
  | _ => decide (b < a)

/-- Conditions 0 to 5 on an integer element type, signedness by the type. -/
def condT (c t a b : Nat) : Bool :=
  let x := intVal a t
  let y := intVal b t
  match c with
  | 0 => x == y
  | 1 => x != y
  | 2 => decide (x < y)
  | 3 => decide (y ≤ x)
  | 4 => decide (x ≤ y)
  | _ => decide (y < x)

/-- The float table of R49. -/
def condF (c t a b : Nat) : Bool :=
  let n := isNan a t || isNan b t
  let k := cmpV (valueOf a t) (valueOf b t)
  match c with
  | 0 => !n && k == 0
  | 1 => n || k != 0
  | 2 => !n && k == -1
  | 3 => !n && k != -1
  | 4 => !n && k != 1
  | 5 => !n && k == 1
  | 6 => n
  | _ => !n

/-- The condition table of an element type. -/
def condEl (c t a b : Nat) : Bool := if isFloat t then condF c t a b else condT c t a b

end Sys2Proof.Machine
end

