-- ==== Sys2Proof/Machine/Alu.lean ====
section
/-! DEFINITION. What the scalar operations compute (R251 to R261), on 64-bit words. -/

namespace Sys2Proof.Machine

def aluMulh (a b : Word) : Word := BitVec.ofInt 64 (a.toInt * b.toInt / 2 ^ 64)

/-- Shift amounts are the whole of b, never reduced (R252). -/
def aluShl (a b : Word) : Word := if b.toNat < 64 then a <<< b.toNat else 0
def aluShrl (a b : Word) : Word := if b.toNat < 64 then a >>> b.toNat else 0
def aluShra (a b : Word) : Word := a.sshiftRight (min b.toNat 63)

/-- DIV, DIVN, REM, REMN with their defined corners (R253). -/
def aluDiv (a b : Word) : Word := if b = 0 then BitVec.allOnes 64 else BitVec.ofInt 64 (a.toInt.tdiv b.toInt)
def aluDivn (a b : Word) : Word := if b = 0 then BitVec.allOnes 64 else BitVec.ofNat 64 (a.toNat / b.toNat)
def aluRem (a b : Word) : Word := if b = 0 then a else BitVec.ofInt 64 (a.toInt.tmod b.toInt)
def aluRemn (a b : Word) : Word := if b = 0 then a else BitVec.ofNat 64 (a.toNat % b.toNat)

def aluMin (a b : Word) : Word := if a.toInt ≤ b.toInt then a else b
def aluMax (a b : Word) : Word := if b.toInt ≤ a.toInt then a else b
def aluMinn (a b : Word) : Word := if a.toNat ≤ b.toNat then a else b
def aluMaxn (a b : Word) : Word := if b.toNat ≤ a.toNat then a else b

/-- A truth value as 0 or 1. -/
def aluBool (b : Bool) : Word := if b then 1 else 0

def aluCmp (c : Nat) (a b : Word) : Word := aluBool (condI c a.toNat b.toNat)
def aluClz (a : Word) : Word := BitVec.ofNat 64 (clz 64 a.toNat)
def aluPopc (a : Word) : Word := BitVec.ofNat 64 (popcount 64 a.toNat)

/-- BFX (R256). -/
def aluBfx (a : Word) (pos lm1 sx : Nat) : Word :=
  let f := fld a.toNat (pos + lm1) pos
  if sx = 1 then BitVec.ofInt 64 (sextI (lm1 + 1) f) else BitVec.ofNat 64 f

/-- BFI (R256). -/
def aluBfi (a b : Word) (pos lm1 : Nat) : Word := BitVec.ofNat 64 (setFld a.toNat (pos + lm1) pos b.toNat)

/-- The sign-extended immediate of R257. -/
def immW (i : Nat) : Word := BitVec.ofInt 64 (sextI 10 i)

/-- LI (R258). -/
def aluLi (i : Nat) (w : Option Nat) : Word :=
  match w with
  | none => BitVec.ofInt 64 (sextI 16 i)
  | some h => BitVec.ofInt 64 (sextI 46 (h * 2 ^ 16 + i % 2 ^ 16))

/-- LIH (R258). -/
def aluLih (a : Word) (i : Nat) : Word := BitVec.ofNat 64 (a.toNat * 2 ^ 16 + i % 2 ^ 16)

/-- The low 32 bits of a register, an F32 pattern (R259). -/
def f32Of (a : Word) : Nat := a.toNat % 2 ^ 32

def aluFadd (a b : Word) (rm : Nat) : Word := BitVec.ofNat 64 (fAdd (f32Of a) (f32Of b) 0 rm)
def aluFmul (a b : Word) (rm : Nat) : Word := BitVec.ofNat 64 (fMul (f32Of a) (f32Of b) 0 rm)
def aluFfma (a b c : Word) (rm : Nat) : Word := BitVec.ofNat 64 (fFma (f32Of a) (f32Of b) (f32Of c) 0 rm)
def aluFcmp (c : Nat) (a b : Word) : Word := aluBool (condF c 0 (f32Of a) (f32Of b))

/-- The exponent of q_ts of a source element of type ts (R242). -/
def qtsOf (s ts : Nat) : Int :=
  if 6 ≤ ts then 0
  else
    match valueOf s ts with
    | .fin _ m e => max ((Nat.log2 m : Int) + e) (fmt ts).emin - (fmt ts).mb
    | _ => 0

/-- The value of a pattern of any type. -/
def valueAny (s t : Nat) : FV := if 6 ≤ t then .ofInt (intVal s t) else valueOf s t

/-- The conversion of one element (R237 to R239, R261). -/
def cvtEl (s : Nat) (c : CW) (rand : Nat) : Nat :=
  let r := bitsOfSr (valueAny s c.ts) c.td c.rm (c.sat == 1) ⟨qtsOf s c.ts, rand⟩
  if c.ftz = 1 then ftz r c.td else r

/-- FCVT (R261). -/
def aluFcvt (a : Word) (c : CW) (rand : Nat) : Word :=
  let r := cvtEl (a.toNat % 2 ^ typeWidth c.ts) c rand
  if 6 ≤ c.td && c.td < 10 then BitVec.ofInt 64 (sextI (typeWidth c.td) r) else BitVec.ofNat 64 r

end Sys2Proof.Machine
end

