-- ==== Sys2Proof/Machine/Lanes.lean ====
section
/-! DEFINITION. What the vector operations compute, lane by lane (R229, R264 to R277). Vectors are 2,048-bit numbers. -/

namespace Sys2Proof.Machine

/-- Number of lanes of width w (R229). -/
def lanes (w : Nat) : Nat := 2048 / w

/-- active(p, i, t): the bit of the element's lowest byte (R229). -/
def act (p w i : Nat) : Bool := bit p (w * i / 8)

/-- A vector from a function of the lane number. -/
def buildV (w : Nat) (f : Nat → Nat) : Nat := joinEl w ((List.range (lanes w)).map f)

/-- Merge class: an inactive element keeps the old one (R264). -/
def mergeV (w p old : Nat) (f : Nat → Nat) : Nat := buildV w (fun i => if act p w i then f i else el w old i)

/-- Source class: inactive elements of a source read as zero (R264). -/
def zeroInact (w p v : Nat) : Nat := if p = 2 ^ 256 - 1 then v else buildV w (fun i => if act p w i then el w v i else 0)

/-- One element of VADD, VSUB, VMUL (0, 1, 2) and VFMA (3) (R266). -/
def arithEl (o t rm : Nat) (sat : Bool) (a b c : Nat) : Nat :=
  if isFloat t then
    match o with
    | 0 => fAdd a b t rm
    | 1 => fSub a b t rm
    | 2 => fMul a b t rm
    | _ => fFma a b c t rm
  else
    let x := intVal a t
    let y := intVal b t
    match o with
    | 0 => wrapOrSat (x + y) t sat
    | 1 => wrapOrSat (x - y) t sat
    | 2 => wrapOrSat (x * y) t sat
    | _ => wrapOrSat (x * y + intVal c t) t sat

def vecArith (o t : Nat) (w : VW) (p old a b c : Nat) : Nat :=
  let n := typeWidth t
  mergeV n p old (fun i => arithEl o t w.rm (w.sat == 1) (el n a i) (el n b i) (el n c i))

/-- VMIN and VMAX (R267): op code 2 min, 1 max of R246. -/
def vecMinMax (o t p old a b : Nat) : Nat :=
  let n := typeWidth t
  mergeV n p old (fun i => op2 (el n a i) (el n b i) o t)

/-- The sign bit cleared or inverted, or the integer magnitude or negation (R268). -/
def absNegEl (neg : Bool) (t : Nat) (sat : Bool) (a : Nat) : Nat :=
  if isFloat t then
    if neg then fNeg a t else a % 2 ^ ((fmt t).width - 1)
  else
    let x := intVal a t
    wrapOrSat (if neg then -x else if x < 0 then -x else x) t sat

def vecAbsNeg (neg : Bool) (t : Nat) (w : VW) (p old a : Nat) : Nat :=
  let n := typeWidth t
  mergeV n p old (fun i => absNegEl neg t (w.sat == 1) (el n a i))

/-- VCMP (R269): every predicate bit of an element's bytes. -/
def vecCmp (c t p a b : Nat) : Nat :=
  let n := typeWidth t
  joinEl (n / 8) ((List.range (lanes n)).map (fun i =>
    if act p n i && condEl c t (el n a i) (el n b i) then ones (n / 8) else 0))

/-- VRED (R272): the tree in element 0, zeros above. -/
def vecRed (o t p a : Nat) : Nat :=
  let n := typeWidth t
  let v := zeroInact n p a
  pairTree o t 8 ((List.range (lanes n)).map (el n v))

/-- VSCAN (R272). -/
def vecScan (o t p a : Nat) : Nat :=
  let n := typeWidth t
  let v := zeroInact n p a
  joinEl n (scan o t ((List.range (lanes n)).map (el n v)))

/-- Shifts (R270): 0 left, 1 arithmetic right, 2 logical right; the amount is the whole element. -/
def shiftEl (o w a n : Nat) : Nat :=
  match o with
  | 0 => if n < w then a * 2 ^ n % 2 ^ w else 0
  | 1 => modI w (sextI w a / 2 ^ min n (w - 1))
  | _ => if n < w then a / 2 ^ n else 0

def vecShift (o w p old a b : Nat) : Nat := mergeV w p old (fun i => shiftEl o w (el w a i) (el w b i))

/-- VAND, VOR, VXOR, VNOT (0 to 3), byte by byte (R270). -/
def logicEl (o a b : Nat) : Nat :=
  match o with
  | 0 => a &&& b
  | 1 => a ||| b
  | 2 => a ^^^ b
  | _ => 255 - a

def vecLogic (o p old a b : Nat) : Nat := mergeV 8 p old (fun i => logicEl o (el 8 a i) (el 8 b i))

def vecSel (w p a b : Nat) : Nat := buildV w (fun i => if act p w i then el w a i else el w b i)
def vecMov (w p old a : Nat) : Nat := mergeV w p old (fun i => el w a i)
def vecBcast (w p old x : Nat) : Nat := mergeV w p old (fun _ => x)

/-- VROT, VPERM, VSHUF (R273). -/
def vecRot (w p x b : Nat) : Nat :=
  let v := zeroInact w p b
  buildV w (fun i => el w v ((i + x % lanes w) % lanes w))
def vecPerm (w p a b : Nat) : Nat :=
  let v := zeroInact w p a
  buildV w (fun i => let j := el w b i; if j < lanes w then el w v j else 0)
def vecShuf (w p a b d : Nat) : Nat :=
  let va := zeroInact w p a
  let vb := zeroInact w p b
  buildV w (fun i =>
    let j := el w d i
    if j < lanes w then el w va j else if j < 2 * lanes w then el w vb (j - lanes w) else 0)

/-- VCOMPR (R274). -/
def vecCompr (w p a b : Nat) : Nat :=
  let l := (List.range (lanes w)).filter (act p w)
  buildV w (fun i => match l[i]? with | some k => el w a k | none => el w b i)

/-- VEXPD (R274). -/
def vecExpd (w p a b : Nat) : Nat :=
  buildV w (fun i => if act p w i then el w a (((List.range i).filter (act p w)).length) else el w b i)

/-- Segment length of SEGL (R275). -/
def segLen (c : Nat) : Nat := 4 * 2 ^ c

/-- IDX and ORD of one segment (R275), from byte j; `n` bytes remain. -/
def cmpSeg (zt : Bool) (tb a b base : Nat) : Nat → Nat → Nat
  | 0, j => j
  | n + 1, j =>
    let x := el 8 a (base + j)
    let y := el 8 b (base + j)
    if x != y then (if x < y then 1 else 2) * 2 ^ 16 + j
    else if zt && x == tb then n + 1 + j
    else cmpSeg zt tb a b base n (j + 1)

def vecBcmp (w : SW) (p a b : Nat) : Nat :=
  let l := segLen w.segl
  let va := zeroInact 8 p a
  let vb := zeroInact 8 p b
  joinEl 32 ((List.range 64).map (fun s => if s < 256 / l then cmpSeg (w.zt == 1) w.tb va vb (s * l) l 0 else 0))

/-- Position of the needle in one segment (R275). -/
def findSeg (a b base nl : Nat) : Nat → Nat → Nat
  | 0, _ => 0
  | n + 1, j =>
    if (List.range nl).all (fun i => el 8 a (base + j + i) == el 8 b i) then 2 ^ 31 + j else findSeg a b base nl n (j + 1)

def vecBfind (w : SW) (p a b : Nat) : Nat :=
  let l := segLen w.segl
  let nl := w.nlen + 1
  let va := zeroInact 8 p a
  let vb := zeroInact 8 p b
  joinEl 32 ((List.range 64).map (fun s => if s < 256 / l then findSeg va vb (s * l) nl (l + 1 - nl) 0 else 0))

/-- VHASH (R276). -/
def hashEl (fin h d : Nat) : Nat :=
  if fin = 0 then
    let m := (h ^^^ d) * 0x2C1B_3C6D % 2 ^ 32
    ((((m * 2 ^ 15) ||| (m / 2 ^ 17)) % 2 ^ 32) + 0x297A_2D39) % 2 ^ 32
  else
    let x := h ^^^ d
    let x := (x ^^^ (x / 2 ^ 16)) * 0x5F1D_3A87 % 2 ^ 32
    let x := (x ^^^ (x / 2 ^ 13)) * 0xB62C_4E93 % 2 ^ 32
    x ^^^ (x / 2 ^ 16)

def vecHash (fin p old a b : Nat) : Nat := mergeV 32 p old (fun i => hashEl fin (el 32 a i) (el 32 b i))

/-- One CRC-32C bit step, repeated (R277). -/
def crcBits : Nat → Nat → Nat
  | 0, c => c
  | n + 1, c => crcBits n ((c / 2) ^^^ (if c % 2 = 1 then 0x82F6_3B78 else 0))

def crcBytes : Nat → Nat → Nat → Nat
  | 0, c, _ => c
  | n + 1, c, d => crcBytes n (crcBits 8 (c ^^^ (d % 256))) (d / 256)

/-- Bytes that NB names (R277). -/
def crcLen (nb : Option Nat) : Nat :=
  match nb with
  | some 1 => 1
  | some 2 => 2
  | _ => 4

def vecCrc (nb : Option Nat) (p old a b : Nat) : Nat :=
  mergeV 32 p old (fun i => crcBytes (crcLen nb) (el 32 a i) (el 32 b i))

end Sys2Proof.Machine
end

