-- ==== Sys2Proof/Machine/XFun.lean ====
section
/-! DEFINITION. What the conversions, the generator and the row unit compute (R193 to R203, R286, R287, R289). -/

namespace Sys2Proof.Machine

/-! ### Conversions -/

/-- Number of elements of a VCVT (R286). -/
def cvtCount (c : CW) : Nat := 2048 / Nat.max (typeWidth c.ts) (typeWidth c.td)

/-- The destination and source offsets of part P (R286). -/
def cvtSrc (c : CW) (part j : Nat) : Nat := if typeWidth c.ts < typeWidth c.td then part * cvtCount c + j else j
def cvtDst (c : CW) (part j : Nat) : Nat := if typeWidth c.td < typeWidth c.ts then part * cvtCount c + j else j

/-- The least destination element and their number. -/
def cvtLo (c : CW) (part : Nat) : Nat := cvtDst c part 0

/-- VCVT without E2M1 (R286): seed and counter serve RM = SR. -/
def vecCvt (c : CW) (part p old a seed ctr : Nat) : Nat :=
  let wd := typeWidth c.td
  buildV wd (fun d =>
    let lo := cvtLo c part
    if lo ≤ d && d < lo + cvtCount c && act p wd d then
      cvtEl (el (typeWidth c.ts) a (cvtSrc c part (d - lo))) c (if c.rm = 4 then rngWord seed ctr d else 0)
    else el wd old d)

/-- Decoding E2M1 (R287): `vs` holds the scales. -/
def vecCvtDec (c : CW) (part old a vs seed ctr : Nat) : Nat :=
  let wd := typeWidth c.td
  buildV wd (fun d =>
    if cvtCount c ≤ d then el wd old d
    else
      let k := cvtSrc c part d
      let e := el 8 vs (k / 32)
      if e = 0xFF then defaultNan c.td
      else
        let code := el 4 a k
        let x := mxVal code e
        let r := bitsOfSr x c.td c.rm (c.sat == 1) ⟨qtsOf code 5 + (e : Int) - 127, if c.rm = 4 then rngWord seed ctr d else 0⟩
        if c.ftz = 1 then ftz r c.td else r)

/-- The source values of block B of an encoding. -/
def encBlock (c : CW) (part a b : Nat) : List FV :=
  (List.range 32).map (fun j => valueAny (el (typeWidth c.ts) a (32 * b + j - part * cvtCount c)) c.ts)

/-- Encoding E2M1 (R287): the codes. -/
def vecCvtEnc (c : CW) (part old a seed ctr : Nat) : Nat :=
  buildV 4 (fun d =>
    let lo := part * cvtCount c
    if lo ≤ d && d < lo + cvtCount c then
      let s := el (typeWidth c.ts) a (d - lo)
      let e := mxScale (encBlock c part a (d / 32))
      let r := mxCode (valueAny s c.ts) e c.rm ⟨qtsOf s c.ts, if c.rm = 4 then rngWord seed ctr d else 0⟩
      if c.ftz = 1 then ftz r 5 else r
    else el 4 old d)

/-- Encoding E2M1: the scale register (R287). -/
def vecCvtScale (c : CW) (part a vs : Nat) : Nat :=
  buildV 8 (fun b =>
    let lo := part * cvtCount c / 32
    if lo ≤ b && b < lo + cvtCount c / 32 then mxScale (encBlock c part a b) else el 8 vs b)

/-- VRNG (R289). -/
def vecRng (mode p old seed ctr : Nat) : Nat :=
  if mode = 2 then mergeV 16 p old (fun i => rngWord seed ctr i % 2 ^ 16)
  else mergeV 32 p old (fun i =>
    let w := rngWord seed ctr i
    if mode = 0 then w else bitsOf (.fin false (w / 2 ^ 8) (-24)) 0 0 false)

/-! ### Row words -/

/-- Whether a row control word is live for a block word (R196). -/
def rowLive (w bw : Nat) : Bool :=
  let shared := bit bw 16 && fld bw 7 0 == fld bw 15 8
  bit w 31 &&
    (if shared && bit bw 24 then fld w 1 0 == 3
     else
       match fld w 1 0 with
       | 0 => true
       | 1 => fld w 4 2 == 0
       | 3 => shared
       | _ => false)

/-- RCWUPD of one word (R201). -/
def rowUpd (w bw policy : Nat) (pb pa : Bool) : Nat :=
  if rowLive w bw then
    let i := 8 * b2n pb + 4 * b2n pa + fld w 1 0
    let e := fld policy (4 * i + 3) (4 * i)
    if bit e 3 then w
    else
      let n := fld e 1 0
      let ld := bit e 2
      let o := if n != fld w 1 0 || ld then setFld w 16 9 (fld bw 7 0) else w
      let o := setFld o 1 0 n
      let o := if ld && n == 1 then setFld o 4 2 (fld bw 19 17) else o
      let o := if ld && n == 3 then setFld o 8 5 (fld bw 23 20) else o
      if n = 2 then setFld o 29 29 1 else o
  else w

def vecRowUpd (a bw policy pb pa : Nat) : Nat :=
  buildV 32 (fun k => rowUpd (el 32 a k) bw policy (bit pb (4 * k)) (bit pa (4 * k)))

/-- RCWADV of one word (R202). -/
def rowAdv (w bw : Nat) : Nat :=
  let shared := bit bw 16 && fld bw 7 0 == fld bw 15 8
  let b := fld bw 7 0
  if bit w 31 && fld w 1 0 != 2 then
    if shared && bit bw 24 then
      if fld w 1 0 = 3 then
        if 1 < fld w 8 5 then setFld w 8 5 (fld w 8 5 - 1)
        else setFld (setFld (setFld w 8 5 0) 1 0 0) 16 9 b
      else w
    else if fld w 1 0 = 1 && fld w 16 9 != b then
      if 0 < fld w 4 2 then setFld w 4 2 (fld w 4 2 - 1)
      else setFld (setFld w 1 0 0) 16 9 b
    else w
  else w

def vecRowAdv (a bw p : Nat) : Nat :=
  buildV 32 (fun k => if act p 32 k then rowAdv (el 32 a k) bw else el 32 a k)

/-- The tests of RCWLD (R203). -/
def rowTest (t w bw : Nat) : Bool :=
  match t with
  | 0 => rowLive w bw
  | 1 => bit w 31 && fld w 1 0 == 2 && fld w 16 9 == fld bw 7 0
  | 2 => bit w 31 && bit w 29
  | _ => bit w 31 && bit w 30

/-- A predicate of 64 four-bit groups. -/
def pred64 (f : Nat → Bool) : Nat := joinEl 4 ((List.range 64).map (fun k => if f k then 15 else 0))

def vecRowTest (t a bw p : Nat) : Nat := pred64 (fun k => act p 32 k && rowTest t (el 32 a k) bw)

/-- ROWPRED (R200). -/
def vecRowPred (w : RowW) (p a th : Nat) : Nat :=
  let n := typeWidth w.t
  pred64 (fun k =>
    let i := 64 * w.seg + k
    act p 32 k && condEl w.cond w.t (el n a i) (if w.bs = 1 then th % 2 ^ n else el n th i))

/-- The block word with an override of B (R198). -/
def blockWord (rowblk : Nat) (blk : Option Nat) : Nat :=
  match blk with
  | none => rowblk
  | some b => setFld rowblk 7 0 b

/-- PCNT (R199). -/
def predCount (w pa pn : Nat) : Nat :=
  ((List.range (lanes (8 * 2 ^ w))).filter (fun j => act pa (8 * 2 ^ w) j && act pn (8 * 2 ^ w) j)).length

end Sys2Proof.Machine
end

