-- ==== Sys2Proof/Machine/MatRes.lean ====
section
/-! DEFINITION. Results of the matrix engine (R290 to R301): their sums, when they may be written, and their writing. -/

namespace Sys2Proof.Machine

/-- Default of a scale latch: every byte 0x7F (R291). -/
def latchReset : Nat := ofBytes (List.replicate 256 0x7F)

/-- {latch i + 1, latch i}. -/
def Arch.latchPair (a : Arch) (i : Nat) : Nat := Tbl.get latchReset a.latches i + 2 ^ 2048 * Tbl.get latchReset a.latches (i + 1)

/-- Busy core cycles for depth K (R290). -/
def matBusyOf (ta k : Nat) : Nat := if ta = 1 || ta = 2 then 2 * k else if ta = 5 then k / 2 else k

/-- Bytes of an operand row (R292). -/
def rowBytes (t k : Nat) : Nat := k * typeWidth t / 8

/-- Element k of a row as a value; `sc` is its scale byte for E2M1 (R296). -/
def matElem (t row k sc : Nat) : FV :=
  let b := el (typeWidth t) row k
  if t = 5 then mxVal b sc else valueAny b t

/-- One element of the tile after the operation, from its earlier value (R296). -/
def MRes.elem (r : MRes) (m n old : Nat) : Nat :=
  let ra := r.a.getD m 0
  let rb := r.b.getD n 0
  let g := r.k / 32
  let d := if r.acc then old else 0
  if r.ta = 8 then
    let sum := (List.range r.k).foldl (fun (s : Int) k => s + intVal (el 8 ra k) 8 * intVal (el 8 rb k) 8) 0
    modI 32 ((d : Int) + sum)
  else
    groupSum32 (r.k / 32 + 1) ((List.range r.k).map (fun k =>
      prodOf (matElem r.ta ra k (el 8 r.sa (m * g + k / 32))) (matElem r.tb rb k (el 8 r.sb (n * g + k / 32))))) d

/-- A result is written: each element as one read-modify-write; granules become full, and poison spreads (R296, R301, R315). -/
def State.writeRes (s : State) (r : MRes) : State :=
  s.modLcore r.lcore (fun c =>
    (List.range r.a.length).foldl (fun c m =>
      let o := tileOff r.tile m
      let bytes := ((List.range 128).map (fun n => spread (o + 4 * n) 4 (r.elem m n (c.acc.mem.readN (o + 4 * n) 4)))).flatten
      let old := c.acc.pois
      let b := (c.acc.store bytes).fill (bytes.map (fun t => t.1))
      let hurt := ((List.range 32).map (fun g => o / 16 + g)).filter (fun g =>
        NatSet.mem r.pa m || (List.range 4).any (fun i => NatSet.mem r.pb (4 * (g - o / 16) + i)) || (r.acc && NatSet.mem old g))
      { c with acc := { b with pois := hurt.foldl (fun p g => NatSet.insert p g) b.pois } }) c)

/-- How a read of accumulator bytes by the context, issued in a context cycle, meets its own results (R299): it must wait, or the
bytes are unpredictable, or neither. -/
inductive MatMeet where
  | none | wait | free
deriving DecidableEq, Repr

def State.matMeetAt (s : State) (c unit off n : Nat) : MatMeet :=
  let l := (s.core s.cur).matPend.filter (fun r => r.ctx == s.ctx && r.touches unit off n)
  if l.any (fun r => c ≤ r.cyc) || s.inBunTile unit off n then .free else if l.all (fun r => r.written) then .none else .wait

/-- The same for the bundle that comes to issue. -/
def State.matMeet (s : State) (unit off n : Nat) : MatMeet := s.matMeetAt s.cyc unit off n

/-- Results of the issuing context that are not yet written. -/
def State.matOwn (s : State) : List MRes := (s.core s.cur).matPend.filter (fun r => r.ctx == s.ctx && !r.written)

/-- Whether a result of the issuing context waits only for a commit (R298). -/
def State.matUncommitted (s : State) : Bool := s.matOwn.any (fun r => !r.committed && r.at_ ≤ (s.core s.cur).cyc)

/-- The engine can take an operation (R297). -/
def State.matFree (s : State) : Bool :=
  (s.core s.cur).matBusy ≤ (s.core s.cur).cyc && ((s.core s.cur).matPend.filter (fun r => !r.written)).length < 2

/-- Writes result `i` of core `p`; windows of its context over the tile are fetched again (R159, R297). -/
def State.writeResAt (s : State) (p i : Nat) : State :=
  match (s.core p).matPend[i]? with
  | none => s
  | some r =>
    let s := s.writeRes r
    let s := s.within p r.ctx (fun s =>
      (List.range r.a.length).foldl (fun s m => s.cutWindows .acc r.lcore (tileOff r.tile m) 512) s)
    s.modCore p (fun q => { q with matPend := setAt q.matPend i { r with written := true } })

/-- The results of the issuing context that are not yet written and that `f` accepts are written, in issue order. -/
def State.matFlushIf (s : State) (f : MRes → Bool) : State :=
  (List.range (s.core s.cur).matPend.length).foldl (fun s i =>
    match (s.core s.cur).matPend[i]? with
    | some r => if r.ctx == s.ctx && !r.written && f r then s.writeResAt s.cur i else s
    | none => s) s

/-- The results of the issuing context that are not yet written are written, in issue order (R410). -/
def State.matFlush (s : State) : State := s.matFlushIf (fun _ => true)

/-- Those of the issuing context's results that are committed are written (R297). -/
def State.matSettle (s : State) : State := s.matFlushIf (fun r => r.committed)

/-- The issue cycle of the last result of the issuing context over the line of a store that the store follows (R300). -/
def State.lastBefore (s : State) (e : WEnt) : Option Nat :=
  ((s.matOwn.filter (fun r => e.sp == .acc && r.touches e.unit e.line 64 && r.iss < e.ep)).map (fun r => r.iss)).getLast?

/-- The store of a commit over a tile byte of one of the context's results is performed after it, and after the results before it (R297,
R300). -/
def State.resultsBefore (s : State) (e : WEnt) : State :=
  match s.lastBefore e with
  | none => s
  | some n => s.matFlushIf (fun r => r.iss ≤ n)

/-- Whether a commit must wait: it would perform a store over a tile byte of a result that the store follows and that is committed or
still in the engine (R300). -/
def State.matBlocks (s : State) (es : List WEnt) : Bool :=
  es.any (fun e => match s.lastBefore e with
    | none => false
    | some n => s.matOwn.any (fun r => r.iss ≤ n && (r.committed || (s.core s.cur).cyc < r.at_)))

end Sys2Proof.Machine
end

