-- ==== Sys2Proof/Machine/Tickets.lean ====
section
/-! DEFINITION. Accumulator operand addresses (R314), ticket domains (R317 to R323), integer atomics on elements (R334). -/

namespace Sys2Proof.Machine

/-- A resolved accumulator operand: logical core and offset, whether in global form, and the physical address where the
memory belongs to another package. -/
structure AccTgt where
  unit : Nat
  off : Nat
  g : Bool
  far : Option Nat
deriving DecidableEq, Repr

/-- The checks of R314 in their order, for an element of `n` bytes. -/
def State.accOperand (s : State) (ea n : Nat) : Except Trap AccTgt :=
  if fld ea 62 57 != 0 || (fld ea 63 63 = 0 && fld ea 56 27 != 0) then .error (trapAddress 1 ea)
  else if fld ea 63 63 = 0 then
    match clusterAddr s.lc accSize (ea % 2 ^ 27) n with
    | .error c => .error (trapAddress c ea)
    | .ok (u, o) => if ea % n != 0 then .error (trapAlign ea) else .ok ⟨u, o, false, none⟩
  else
    let d := dieOf s.lc
    match s.xlate s.xl s.asid (ea % 2 ^ 57) true with
    | .error c => .error (trapTranslation c (ea % 2 ^ 57))
    | .ok ph =>
      if !isAccWin ph.pa then .error (trapAddress 5 ea)
      else
        let o := ph.pa % 2 ^ 44 - 0x500_0000_0000
        let u := o / 2 ^ 28 * 96 + o / 2 ^ 26 % 4 * 24 + o / 2 ^ 21 % 32
        if accSize < o % 2 ^ 21 + n then .error (trapAddress 3 ea)
        else if ea % n != 0 then .error (trapAlign ea)
        else .ok ⟨u, o % 2 ^ 21, true, if s.isLocal d ph.pa then none else some ph.pa⟩

/-- The operand of lane i of a row. -/
def State.laneOperand (s : State) (ea i : Nat) : Except Trap AccTgt := s.accOperand (modI 64 ((ea + 4 * i : Nat) : Int)) 4

/-- Whether two operands lie in different memories. -/
def AccTgt.apart (t f : AccTgt) : Bool := f.unit != t.unit || f.far.isSome != t.far.isSome || f.far.getD 0 / 2 ^ 21 != t.far.getD 0 / 2 ^ 21

/-- Lane i of a vector update at a row (R314, R333): every active lane lies in the memory that the first one names. -/
def State.laneTarget (s : State) (p ea i : Nat) : Except Trap AccTgt :=
  match s.laneOperand ea i, s.laneOperand ea (((List.range 64).find? (fun j => bit p (4 * j))).getD i) with
  | .error t, _ => .error t
  | .ok t, .error _ => .ok t
  | .ok t, .ok f =>
    if t.apart f then .error (trapAddress 6 (ea + 4 * i)) else if ea % 64 != 0 then .error (trapAlign ea) else .ok t

/-- Declared latency of an accumulator or domain result (R326). -/
def State.accLat (s : State) (t : AccTgt) : Nat := if t.g then s.glat else if t.unit = s.lc then 10 else 32

/-! ### Domains -/

def LCore.dom (c : LCore) (td : Nat) : Dom := Tbl.get {} c.doms td
def LCore.setDom (c : LCore) (td : Nat) (d : Dom) : LCore := { c with doms := Tbl.put c.doms td d }

def Dom.done (d : Dom) : Bool := d.next == d.base + d.count

/-- The lanes that a part carries (R318). -/
def Part.lanes (p : Part) : Nat := p.mask &&& (0xFFFF * 2 ^ p.lane0)

/-- Payload of lane i. -/
def Part.payload (p : Part) (i : Nat) : Nat := p.pay.getD (i - p.lane0) 0

/-- Payloads of the lanes that a part carries; the other words of its flit count for nothing (R319). -/
def Part.payloads (p : Part) : List Nat := (List.range 16).map (fun j => if bit p.mask (p.lane0 + j) then p.pay.getD j 0 else 0)

/-- The element update of R320: 0 add, 1 min, 2 max. -/
def tkElem (op a x : Nat) : Nat := if op = 0 then addF32 a x else op2 a x (if op = 1 then 2 else 1) 0

def isFiniteF32 (a : Nat) : Bool := fld a 30 23 != 255
def isInfF32 (a : Nat) : Bool := a % 2 ^ 31 == 0x7F80_0000

/-- One lane applied. -/
def LCore.applyLane (c : LCore) (p : Part) (i : Nat) : LCore :=
  let o := p.off + 4 * (i - p.lane0)
  let a := c.acc.mem.readN o 4
  let x := p.payload i
  let r := tkElem p.op a x
  let d := c.dom p.td
  let c := { c with acc := { c.acc with mem := c.acc.mem.writeL (spread o 4 r) } }
  c.setDom p.td { d with
    invalid := d.invalid || (r == 0x7FC0_0000 && !isNan a 0 && !isNan x 0)
    overflow := d.overflow || (isFiniteF32 a && isFiniteF32 x && isInfF32 r) }

/-- The lanes of a part of ticket NEXT applied, ascending (R320). -/
def LCore.applyLanes (c : LCore) (p : Part) : LCore :=
  let d := c.dom p.td
  let c := c.setDom p.td { d with nmask := if d.nmask = 0 then p.mask else d.nmask }
  let c := ((List.range 64).filter (fun i => bit p.lanes i)).foldl (fun c i => c.applyLane p i) c
  let d := c.dom p.td
  c.setDom p.td { d with ndone := d.ndone ||| p.lanes }

/-- NEXT passes retired tickets (R320). -/
def skipOver : Nat → Dom → Dom
  | 0, d => d
  | f + 1, d =>
    if d.next < d.base + d.count && d.skip % 2 = 1 then skipOver f { d with next := d.next + 1, skip := d.skip / 2 } else d

/-- advance() of R320 but for its held parts. -/
def Dom.advance (d : Dom) : Dom :=
  { skipOver 64 { d with next := d.next + 1, skip := d.skip / 2, nmask := 0, ndone := 0 } with gapev := false, timer := 0 }

/-- Held parts of ticket NEXT are applied, and NEXT advances, until neither happens (R320). -/
def LCore.runDom (td : Nat) : Nat → LCore → LCore
  | 0, c => c
  | f + 1, c =>
    let d := c.dom td
    if d.nmask != 0 && d.ndone == d.nmask then
      LCore.runDom td f (c.setDom td { d with applied := (d.applied + 1) % 2 ^ 64 }.advance)
    else
      match findIdx? (fun p => p.td == td && p.ticket == d.next) c.parts 0 with
      | none => c
      | some (i, p) =>
        let c := { c with parts := removeAt c.parts i }.setDom td { d with pend := d.pend - 1 }
        LCore.runDom td f (c.applyLanes p)

def LCore.settleDom (c : LCore) (td : Nat) : LCore := LCore.runDom td (2 * c.parts.length + 2) c

/-- Held parts of a ticket are discarded, each counted in DUP (R328, R331). -/
def LCore.discardHeld (c : LCore) (td : Nat) (f : Part → Bool) : LCore :=
  let hit (p : Part) : Bool := p.td == td && f p
  let n := (c.parts.filter hit).length
  let d := c.dom td
  { c with parts := c.parts.filter (fun p => !hit p) }.setDom td { d with pend := d.pend - n, dup := (d.dup + n) % 2 ^ 32 }

/-- The fate of an arriving part (R319). -/
inductive Fate where
  | orphan | refused | conflict (code : Nat) | taken
deriving DecidableEq, Repr

/-- The bank whose reorder buffer a part takes (R321, R312). -/
def Part.bank (p : Part) : Nat := p.off / 64 % 16

def LCore.dupPart (c : LCore) (td : Nat) : LCore :=
  let d := c.dom td
  c.setDom td { d with dup := (d.dup + 1) % 2 ^ 32 }

/-- R319, row by row. -/
def LCore.arrive (c : LCore) (p : Part) : LCore × Fate :=
  let d := c.dom p.td
  if d.state = 0 then (c, .orphan)
  else if d.state != 1 then (c, .refused)
  else if p.asid != d.asid then (c, .conflict 3)
  else if d.base + d.count ≤ p.ticket then (c, .conflict 2)
  else if p.ticket < d.next || (p.ticket < d.next + 64 && d.next < p.ticket && bit d.skip (p.ticket - d.next)) then
    (c.dupPart p.td, .taken)
  else if p.ticket = d.next && p.lanes &&& d.ndone = p.lanes then (c.dupPart p.td, .taken)
  else if p.ticket = d.next && d.nmask != 0 && p.mask != d.nmask then (c, .conflict 1)
  else if p.ticket = d.next then ((c.applyLanes p).settleDom p.td, .taken)
  else
    let held := c.parts.filter (fun q => q.td == p.td && q.ticket == p.ticket)
    if held.any (fun q => q.lane0 == p.lane0 && q.op == p.op && q.mask == p.mask && q.payloads == p.payloads) then (c.dupPart p.td, .taken)
    else if held.any (fun q => q.op != p.op || q.mask != p.mask || (q.lane0 == p.lane0 && q.payloads != p.payloads)) then (c, .conflict 1)
    else if 32 ≤ (c.parts.filter (fun q => q.bank == p.bank)).length || 48 ≤ d.pend then (c, .refused)
    else ({ c with parts := c.parts ++ [p] }.setDom p.td { d with pend := d.pend + 1 }, .taken)

/-- TICKET_CONFLICT of the sending task (R323). -/
def State.conflict (s : State) (task code addr td ticket : Nat) : State :=
  s.modTask task (fun t => { t with async := t.async ++
    [{ cause := 17, d0 := code, d1 := addr, d2 := td * 2 ^ 32 + ticket, slot := 9, async := true }] })

/-- A command of a die's collective engine is changed. -/
def State.modColl (s : State) (d id : Nat) (f : Cmd → Cmd) : State :=
  s.modDie d (fun x => { x with collQ := x.collQ.map (fun c => if c.id == id then f c else c) })

/-- A part is refused for good: TICKET_CONFLICT of its task, or COLLDOM of its collective (R323, R434). -/
def State.refuted (s : State) (p : Part) (code : Nat) : State :=
  if p.cmd = 0 then s.conflict p.task code p.addr p.td p.ticket
  else s.modColl (dieOf p.pcore) p.cmd (fun c => { c with fault := some { cause := 13, d0 := code, d2 := 4 * 16 + 12 } })

/-- A part reaches its controller; a refused one stays at its port (R319, R321). -/
def State.deliverPart (s : State) (p : Part) : State :=
  let (c, f) := (s.lcore p.lcore).arrive p
  let s := s.setLcore p.lcore c
  match f with
  | .taken => s
  | .orphan => s.modCore (s.hostOf p.lcore) (fun k => { k with orphans := k.orphans + 1 })
  | .refused => { s with parts := s.parts ++ [{ p with refused := true }] }
  | .conflict code => s.refuted p code

/-- Whether a refused part of the task's own contexts is still at its port (R321). -/
def State.refusedBy (s : State) (task : Nat) : Bool := s.parts.any (fun p => p.refused && p.task == task && p.cmd == 0)

/-- Whether the gap timer runs (R322); `waited` says whether a drain or a collective waits on the domain. -/
def Dom.timed (d : Dom) (waited : Bool) : Bool :=
  d.state == 1 && !d.done && !d.gapev && (0 < d.pend || d.ndone != 0 || waited)

/-- Whether a TKDRAIN or a collective waits on a domain (R322). -/
def State.waitedOn (s : State) (l td : Nat) : Bool :=
  s.cores.any (fun p => p.2.ctxs.any (fun c => c.2.drainOn == some (l * 64 + td)))
    || s.dies.any (fun d => d.2.collQ.any (fun m => m.aux.getD 3 0 == l * 64 + td + 1))

/-! ### Domain instructions as functions of a domain -/

/-- TKOPEN (R327): status and domain. -/
def Dom.openAs (d : Dom) (task asid base count win : Nat) : Nat × Dom :=
  if count = 0 || 2 ^ 32 < base + count then (2, d)
  else if d.state = 0 then
    (0, { state := 1, owner := task, asid := asid, base := base, count := count, next := base, win := win, opened := true })
  else if d.state = 1 && d.owner = task && d.base = base && d.count = count then (0, d)
  else if d.asid != asid then (4, d) else (1, d)

/-- TKSKIP (R328): status and logical core. -/
def LCore.skipTicket (c : LCore) (td asid t : Nat) : Nat × LCore :=
  let d := c.dom td
  if d.state != 1 then (3, c)
  else if d.asid != asid then (4, c)
  else if d.base + d.count ≤ t then (2, c)
  else if t < d.next then (0, c)
  else if t = d.next then
    let c := c.discardHeld td (fun p => p.ticket == t)
    let d := c.dom td
    (0, (c.setDom td { d with skipped := (d.skipped + 1) % 2 ^ 32 }.advance).settleDom td)
  else if t < d.next + 64 then
    let c := c.discardHeld td (fun p => p.ticket == t)
    let d := c.dom td
    let b := t - d.next
    (0, c.setDom td { d with skip := d.skip ||| 2 ^ b, skipped := if bit d.skip b then d.skipped else (d.skipped + 1) % 2 ^ 32 })
  else (1, c)

/-- TKSTAT's word (R330). -/
def Dom.stat (d : Dom) (td sel asid : Nat) : Nat :=
  if d.opened && d.asid != asid then 0x0200_0000_0000_0000
  else
    match sel with
    | 0 => d.state * 2 ^ 62 + b2n d.done * 2 ^ 61 + b2n d.gapev * 2 ^ 60 + b2n d.invalid * 2 ^ 59
             + b2n d.overflow * 2 ^ 58 + d.pend * 2 ^ 40 + d.next % 2 ^ 32
    | 1 => d.count * 2 ^ 32 + d.base
    | 2 => d.applied
    | 3 => d.skipped * 2 ^ 32 + d.dup
    | _ => d.owner * 2 ^ 32 + d.asid * 2 ^ 16 + td

/-- TKCLOSE (R331): status and logical core. -/
def LCore.closeDom (c : LCore) (td task : Nat) (force : Bool) : Nat × LCore :=
  let d := c.dom td
  if d.state = 0 then (0, c)
  else if d.owner != task || d.state != 1 then (4, c)
  else if !d.done && !force then (1, c)
  else
    let c := c.discardHeld td (fun _ => true)
    let d := c.dom td
    (0, c.setDom td { d with state := 0 })

/-! ### Integer atomics -/

/-- The new element (R334): 0 add, 1 min, 2 max, 3 exchange, 4 compare and swap. `uns` is 1 for the n types. -/
def atomNew (op w : Nat) (uns : Bool) (old b c : Nat) : Nat :=
  let le (x y : Nat) : Bool := if uns then x ≤ y else sextI w x ≤ sextI w y
  match op with
  | 0 => (old + b) % 2 ^ w
  | 1 => if le old b then old else b
  | 2 => if le b old then old else b
  | 3 => b
  | _ => if old = c then b else old

/-- The old value as xd takes it (R334). -/
def atomOld (w : Nat) (uns : Bool) (old : Nat) : Nat := if w = 64 || uns then old else modI 64 (sextI w old)

/-- The element at a place of accumulator memory, updated; none where it is poisoned. -/
def LCore.atom (c : LCore) (off op w : Nat) (uns : Bool) (b x : Nat) : Option (Nat × LCore) :=
  if c.acc.isPois off then none
  else
    let old := c.acc.mem.readN off (w / 8)
    let new := atomNew op w uns old (b % 2 ^ w) (x % 2 ^ w)
    some (old, { c with acc := { c.acc with mem := c.acc.mem.writeL (spread off (w / 8) new) } })

/-! ### Barriers (R127 to R131) -/

/-- The word after BARINIT (R131). -/
def barInitWord (x : Nat) : Nat := fld x 9 0 * 2 ^ 52 + fld x 9 0 * 2 ^ 42 + fld x 52 32 * 2 ^ 21 + fld x 52 32

/-- The phase flips and the counts reload where nothing remains and no fault stands (R128, R129). -/
def barAdvance (w : Nat) : Nat :=
  if fld w 51 21 = 0 && fld w 62 62 = 0
  then (1 - fld w 63 63) * 2 ^ 63 + fld w 61 52 * 2 ^ 52 + fld w 61 52 * 2 ^ 42 + fld w 20 0 * 2 ^ 21 + fld w 20 0
  else w

/-- One arrival (R128). -/
def barArrive (w na nb : Nat) : Nat :=
  let rema := fld w 51 42
  let remb := fld w 41 21
  let f := if rema < na || remb < nb then 1 else fld w 62 62
  barAdvance (fld w 63 63 * 2 ^ 63 + f * 2 ^ 62 + fld w 61 52 * 2 ^ 52 + (rema - na) * 2 ^ 42 + (remb - nb) * 2 ^ 21 + fld w 20 0)

/-- An engine fault sets FAULT; its resumption clears it (R129). -/
def barFault (w : Nat) : Nat := setFld w 62 62 1
def barClear (w : Nat) : Nat := barAdvance (setFld w 62 62 0)

/-- Changes the barrier word at a scratchpad place. -/
def State.barMod (s : State) (unit off : Nat) (f : Nat → Nat) : State :=
  s.modLcore unit (fun c => c.store .sp none (spread off 8 (f (c.readN .sp none off 8))) false false)

end Sys2Proof.Machine
end

