-- ==== Sys2Proof/Machine/Frame.lean ====
section
/-! DEFINITION. The context frame (R412 to R414) and the trap record (R406): its bytes from a context, and back. What the
layout leaves open is log 10. -/

namespace Sys2Proof.Machine

/-- Bytes of a frame: half of the area that SAVE names (R412). -/
def frameSize : Nat := 0x1_0000

/-- An item of a frame: offset, bytes, value. -/
abbrev Item := Nat × Nat × Nat

/-- Word 0 of the trap record (R406). -/
def Trap.word0 (t : Trap) (dbl inh : Bool) : Nat :=
  b2n dbl * 2 ^ 63 + b2n t.post * 2 ^ 62 + b2n t.async * 2 ^ 61 + b2n inh * 2 ^ 60 + t.rlane % 64 * 2 ^ 48
    + t.slot % 16 * 2 ^ 44 + t.cause % 256

/-- What goes into a frame beside the registers. -/
structure FrameInfo where
  inh : Bool
  trpend : Bool
  dbl : Bool
  trap : Option Trap
  pc : Nat
  ncyc : Nat
  nb : Nat
  resume : Nat
  ctx : Nat
  ckexp : Nat
  ckimp : Nat
  held : List CommitOp
  capt : List CommitOp
deriving DecidableEq, Repr

/-- A landing cycle relative to the schedule cycle count, mod 2^32 (R414). -/
def relCyc (cyc scyc : Nat) : Nat := modI 32 ((cyc : Int) - scyc)
def absCyc (rel scyc : Nat) : Nat := ((scyc : Int) + sextI 32 rel).toNat

def RecipeItems (base scyc i : Nat) (r : Recipe) : List Item :=
  let o := base + 64 * i
  [(o, 8, 2 ^ 63 + r.vd * 2 ^ 48 + b2n r.stale * 2 ^ 40 + r.code * 2 ^ 32 + r.slot * 2 ^ 24 + r.rc),
   (o + 8, 8, r.w + r.w2 * 2 ^ 32), (o + 16, 8, r.addr),
   (o + 24, 8, relCyc r.land scyc + relCyc r.iss scyc * 2 ^ 32), (o + 32, 8, r.scal.headD 0)]

/-- A snapshot entry (R414). -/
def snapItems (base scyc i : Nat) (l : Landing) : List Item :=
  let num := if l.kind = .stg then l.num else l.num % 64
  [(base + 272 * i, 8, 2 ^ 63 + l.slot % 8 * 2 ^ 48 + num * 2 ^ 40 + l.kind.code * 2 ^ 32 + relCyc l.cyc scyc),
   (base + 272 * i + 8, 256, l.val)]

/-- A pending-load entry (R414). -/
def loadItems (base i addr qual size num kind rel : Nat) : List Item :=
  [(base + 16 * i, 8, addr), (base + 16 * i + 8, 8, 2 ^ 63 + qual * 2 ^ 52 + size * 2 ^ 48 + num % 64 * 2 ^ 40 + kind * 2 ^ 32 + rel)]

/-- The pending-load section: loads, then poison marks with qualifier 4 (R402, R414). -/
def loadList (a : Arch) : List (Nat × Nat × Nat × Nat × Nat × Nat) :=
  (a.loads.filter (fun q => !q.dead)).map (fun q => (q.addr, q.qual, q.size, q.num, q.kind.code, relCyc q.cyc a.scyc))
    ++ (a.inflight.filter (fun l => l.pois.isSome)).map (fun l => (l.pois.getD 0, 4, 3, l.num, l.kind.code, relCyc l.cyc a.scyc))
    ++ a.xpois.map (fun t => (t.2, 4, 3, t.1, 0, 0)) ++ a.vpois.map (fun t => (t.2, 4, 8, t.1, 1, 0))
    ++ a.ppois.map (fun t => (t.2, 4, 5, t.1, 2, 0))

/-- Captured operations over a row: their operands are an address, a predicate and rows. -/
def CommitOp.overRow (o : CommitOp) : Bool :=
  match o.i with
  | .vld .. | .vlda .. | .vaadd .. | .vamin .. | .vamax .. | .vaxchg .. => true
  | _ => false

/-- Operand values as words of 64 bits: of a row operation the address, the four words of the predicate, and the rotation code; its
rows do not fit (R414, log 10). -/
def CommitOp.frameVals (o : CommitOp) : List Nat :=
  let ad := o.vals.getD 0 0
  if o.overRow then ad % 2 ^ 64 :: (List.range 4).map (fun k => el 64 (o.vals.getD 1 0) k) ++ [ad / 2 ^ 64] else o.vals

/-- A held command or captured operation (R414): second word and payload, then staging registers or operand values. -/
def heldItems (base i : Nat) (c : CommitOp) (cap : Bool) : List Item :=
  let ws := encode c.i
  let vals := match c.cmd with
    | some m => m.stg
    | none => c.frameVals
  (base + 136 * i, 8, 2 ^ 63 + b2n cap * 2 ^ 62 + ws.getD 1 0 % 2 ^ 32 * 2 ^ 30 + ws.headD 0 % 2 ^ 30)
    :: (vals.take 16).zipIdx.map (fun t => (base + 136 * i + 8 + 8 * t.2, 8, t.1))

/-- Results in flight for which the snapshot section has no room (log 10). -/
def Arch.unsaved (a : Arch) : List Landing := (a.inflight.filter (fun l => l.pois.isNone)).drop 128

/-- The items of a frame. -/
def State.frameItems (s : State) (a : Arch) (f : FrameInfo) : List Item :=
  let snap := (a.inflight.filter (fun l => l.pois.isNone)).take 128
  let loads := (loadList a).take 32
  let held := (f.capt.map (fun c => (c, true)) ++ f.held.map (fun c => (c, false))).take 16
  [(0x0000, 8, 0xD880 * 2 ^ 48 + 2 ^ 40 + 2 ^ 31 + b2n f.inh * 2 ^ 30 + b2n f.trpend * 2 ^ 29 + f.ctx),
   (0x0008, 8, a.scyc), (0x0010, 8, s.nextHeader a.pc), (0x0018, 8, f.ckexp % 2 ^ 32 * 2 ^ 32 + f.ckimp % 2 ^ 32),
   (0x0020, 8, held.length * 2 ^ 16 + loads.length * 2 ^ 8 + snap.length)]
  ++ (match f.trap with
      | none => []
      | some t => [(0x0040, 8, t.word0 f.dbl f.inh), (0x0048, 8, f.pc % 2 ^ 18),
          (0x0050, 8, f.ncyc % 2 ^ 32 * 2 ^ 32 + f.nb % 2 ^ 32), (0x0058, 8, s.nextHeader f.resume % 2 ^ 18),
          (0x0060, 8, t.d0), (0x0068, 8, t.d1), (0x0070, 8, t.d2), (0x0078, 8, t.d3)])
  ++ a.x.map (fun t => (0x0100 + 8 * t.1, 8, t.2.toNat))
  ++ (List.range 16).map (fun n => (0x0300 + 32 * n, 32, (a.getP n).toNat))
  ++ ((List.range 0x60).filter srAssigned).map (fun n => (0x0500 + 8 * n, 8, (s.readSr n).toNat))
  ++ (a.loops ++ a.ended).map (fun t => (0x0800 + 32 * t.1 + 24, 8, t.2.start + t.2.last * 2 ^ 18 + t.2.ind * 2 ^ 36))
  ++ ((List.range 6).map (fun n => [(0x0800 + 32 * n, 8, (a.getSr (0x020 + n)).toNat),
        (0x0808 + 32 * n, 8, (a.getSr (0x026 + n)).toNat), (0x0810 + 32 * n, 8, (a.getSr (0x02C + n)).toNat)])).flatten
  ++ (a.streams.map (fun t => let o := 0x0900 + 64 * t.1
        [(o, 8, t.2.d0.toNat), (o + 8, 8, t.2.d1.toNat), (o + 16, 8, t.2.d2.toNat), (o + 24, 8, t.2.d3.toNat),
         (o + 32, 8, t.2.dir + 2 * t.2.fek + 4 * t.2.add + 8 * t.2.ai + 16 * t.2.depth), (o + 40, 8, t.2.pos)])).flatten
  ++ a.tiles.map (fun t => (0x0B00 + 8 * t.1, 8, t.2))
  ++ ((List.range 4).map (fun n => (0x0B40 + 256 * n, 256, Tbl.get (ofBytes (List.replicate 256 0x7F)) a.latches n)))
  ++ a.stg.map (fun t => (0x1000 + 8 * t.1, 8, t.2.toNat))
  ++ (a.images.map (fun t => let o := 0x1600 + 32 * t.1
        [(o, 8, t.2.w + t.2.w2 * 2 ^ 32), (o + 8, 8, t.2.addr % 2 ^ 64),
         (o + 16, 8, 2 ^ 63 + t.2.addr / 2 ^ 64 % 4 * 2 ^ 61 + fld t.2.w 21 21)])).flatten
  ++ ((List.range 56).map (fun v => let st := Tbl.get 0 a.vst v
        (0x1700 + v, 1, (if st = 3 then 1 else st) + b2n (Tbl.has a.drops v) * 4)))
  ++ (a.recipes.zipIdx.map (fun t => RecipeItems 0x1740 a.scyc t.2 t.1)).flatten
  ++ (a.v.filter (fun t => Tbl.get 0 a.vst t.1 == 1)).map (fun t => (0x2000 + 256 * t.1, 256, t.2.toNat))
  ++ (snap.zipIdx.map (fun t => snapItems 0x5800 a.scyc t.2 t.1)).flatten
  ++ (loads.zipIdx.map (fun t => loadItems 0xE000 t.2 t.1.1 t.1.2.1 t.1.2.2.1 t.1.2.2.2.1 t.1.2.2.2.2.1 t.1.2.2.2.2.2)).flatten
  ++ (held.zipIdx.map (fun t => heldItems 0xE200 t.2 t.1.1 t.1.2)).flatten

/-- Bytes from `pa` made zero and clean. -/
def State.clearPA (s : State) (pa n : Nat) : State :=
  let f (b : Bank) (o : Nat) : Bank :=
    { b with mem := b.mem.filter (fun t => !(o ≤ t.1 && t.1 < o + n)), pois := b.pois.filter (fun g => !(o / 16 ≤ g && g < (o + n) / 16)) }
  match s.home pa with
  | .acc l o => s.modLcore l (fun c => { c with acc := f c.acc o })
  | _ =>
    let s := { s with mem := f s.mem pa }
    if s.genOf pa = 0 then s else s.memStore (spread pa n 0) false

/-- A frame written at a physical address (R412). -/
def State.writeFrame (s : State) (pa : Nat) (items : List Item) : State :=
  items.foldl (fun s t => s.storePA (spread (pa + t.1) t.2.1 t.2.2) false false) (s.clearPA pa frameSize)

/-! ### Reading a frame -/

/-- Word at a frame offset. -/
def State.fw (s : State) (pa o : Nat) : Nat := s.readPAn (pa + o) 8

/-- The trap that a record holds, with its PC and RESUME. -/
def State.frameTrap (s : State) (pa : Nat) : Trap :=
  let w := s.fw pa 0x40
  { cause := fld w 7 0, slot := fld w 47 44, rlane := fld w 53 48, async := bit w 61, post := bit w 62
    pc := some (fld (s.fw pa 0x48) 17 0)
    d0 := s.fw pa 0x60, d1 := s.fw pa 0x68, d2 := s.fw pa 0x70, d3 := s.fw pa 0x78 }

/-- The malformed frames of R413. -/
def State.frameBad (s : State) (pa : Nat) : Bool :=
  let h := s.fw pa 0
  let c := s.fw pa 0x20
  fld h 63 48 != 0xD880 || fld h 47 40 != 1 || fld h 31 31 == 0 || fld h 39 32 != 0 || fld h 28 2 != 0
  || 2 ^ 18 ≤ s.fw pa 0x10 || fld c 63 24 != 0 || s.fw pa 0x28 != 0 || s.fw pa 0x30 != 0 || s.fw pa 0x38 != 0
  || (List.range 56).any (fun v => let b := s.readPAn (pa + 0x1700 + v) 1; b % 4 == 3 || 8 ≤ b)
  || 16 < fld c 23 16 || 32 < fld c 15 8 || 128 < fld c 7 0
  || !s.codeOk (s.fw pa 0x10)
  || fld (s.fw pa 0x40) 59 54 != 0 || fld (s.fw pa 0x40) 43 8 != 0 || 2 ^ 18 ≤ s.fw pa 0x48 || 2 ^ 18 ≤ s.fw pa 0x58
  || (fld (s.fw pa 0x40) 7 0 != 0 && !s.codeOk (s.fw pa 0x58))

/-- Table of the words of a frame section. -/
def State.frameTbl {α : Type} (s : State) (pa : Nat) (n : Nat) (f : Nat → Option α) : Tbl α :=
  (List.range n).foldl (fun t i => match f i with
    | none => t
    | some v => t ++ [(i, v)]) []

/-- A result in flight with what a frame has no room for, its issue cycle and its bundle, from the registers as saved (log 20): it was a result
in flight then, or a load whose data has come since. -/
def Landing.named (l : Landing) (sh : Arch) : Landing :=
  match sh.inflight.find? (fun m => m.cyc == l.cyc && m.kind == l.kind && m.num == l.num && (m.slot == l.slot || l.pois.isSome) && m.pois.isSome == l.pois.isSome) with
  | some m => { l with iss := m.iss, slot := m.slot, pc := m.pc }
  | none =>
    match sh.loads.find? (fun m => m.cyc == l.cyc && m.kind == l.kind && m.num == l.num && (m.slot == l.slot || l.pois.isSome)) with
    | some m => { l with iss := m.iss, slot := m.slot, pc := m.pc }
    | none => l

/-- Whether a result lands before another of its register and cycle, since it was issued before it (R61). -/
def Landing.precedes (l m : Landing) : Bool := l.cyc == m.cyc && l.kind == m.kind && l.num == m.num && before l.iss l.slot m.iss m.slot

/-- A result takes its place among those that a frame lists in the order of R61 (R414). -/
def placeLanding (l : Landing) (ls : List Landing) : List Landing :=
  let n := (ls.findIdx? (fun m => l.precedes m)).getD ls.length
  ls.take n ++ l :: ls.drop n

/-- A snapshot entry as a result in flight. -/
def State.snapEntry (s : State) (pa i : Nat) (sh : Arch) : Landing :=
  let w := s.fw pa (0x5800 + 272 * i)
  let k := RKind.ofCode (fld w 39 32)
  Landing.named ⟨absCyc (fld w 31 0) (s.fw pa 8), 0, fld w 50 48, 0, k, if k = .stg then fld w 47 40 else fld w 45 40, s.readPAn (pa + 0x5808 + 272 * i) 256, none⟩ sh

/-- The pending loads of a frame's entries (address and second word), each with the load that the save left pending for it, if one is left
(log 20). -/
def pendEntries (scyc : Nat) (ids : List PendLoad) : List (Nat × Nat) → List PendLoad
  | [] => []
  | (ad, w) :: l =>
    let k := RKind.ofCode (fld w 39 32)
    let cyc := absCyc (fld w 31 0) scyc
    let mine (q : PendLoad) : Bool := !q.dead && q.kind == k && q.num % 64 == fld w 45 40 && q.cyc == cyc
    let q : PendLoad := (ids.find? mine).getD ⟨0, cyc, 0, 0, 0, k, fld w 45 40, 0, none, ad, fld w 55 52, fld w 51 48, false, false, false, none, 0, 0, false⟩
    { q with cyc := cyc, dueAt := if cyc ≤ scyc then some 0 else none } :: pendEntries scyc (ids.eraseP mine) l

/-- The state of a context that a frame holds (R412, R414). `ids` are the loads that the save left pending, `sh` the registers as
saved, for what the layout has no room for (log 10, log 20). -/
def State.frameArch (s : State) (pa : Nat) (ids : List PendLoad) (sh : Arch) : Arch :=
  let scyc := s.fw pa 8
  let nz (o n : Nat) : Option Nat := let v := s.readPAn (pa + o) n; if v = 0 then none else some v
  let loads := (List.range 32).filter (fun i => bit (s.fw pa (0xE008 + 16 * i)) 63)
  let le (i : Nat) : Nat × Nat := (s.fw pa (0xE000 + 16 * i), s.fw pa (0xE008 + 16 * i))
  let marks := loads.filter (fun i => fld (le i).2 55 52 == 4)
  let snaps := (List.range 128).filter (fun i => bit (s.fw pa (0x5800 + 272 * i)) 63)
  { pc := fld (s.fw pa 0x10) 17 0
    scyc := scyc
    x := s.frameTbl pa 64 (fun i => if i = 0 then none else (nz (0x100 + 8 * i) 8).map (BitVec.ofNat 64))
    v := s.frameTbl pa 56 (fun i => if s.readPAn (pa + 0x1700 + i) 1 % 4 = 1 then (nz (0x2000 + 256 * i) 256).map (BitVec.ofNat 2048) else none)
    p := s.frameTbl pa 16 (fun i => if i = 0 then none else (nz (0x300 + 32 * i) 32).map (BitVec.ofNat 256))
    sr := s.frameTbl pa 0x32 (fun n =>
      if inRange 0x020 0x025 n then
        let w := s.fw pa (0x800 + 32 * (n - 0x020))
        some (BitVec.ofNat 64 (fld w 63 63 * 2 ^ 63 + fld w 31 0))
      else if inRange 0x026 0x02B n then some (BitVec.ofNat 64 (s.fw pa (0x808 + 32 * (n - 0x026)) % 2 ^ 32))
      else if inRange 0x02C 0x031 n then some (BitVec.ofNat 64 (sx32 (s.fw pa (0x810 + 32 * (n - 0x02C)))))
      else if n < 2 || inRange 0x00C 0x00F n then none
      else some (srMerge n 0 (BitVec.ofNat 64 (s.fw pa (0x500 + 8 * n)))))
    xpois := (marks.filter (fun i => fld (le i).2 39 32 == 0 && fld (le i).2 31 0 == 0)).foldl (fun t i => Tbl.put t (fld (le i).2 45 40) (le i).1) []
    vpois := (marks.filter (fun i => fld (le i).2 39 32 == 1 && fld (le i).2 31 0 == 0)).foldl (fun t i => Tbl.put t (fld (le i).2 45 40) (le i).1) []
    ppois := (marks.filter (fun i => fld (le i).2 39 32 == 2 && fld (le i).2 31 0 == 0)).foldl (fun t i => Tbl.put t (fld (le i).2 45 40) (le i).1) []
    vst := s.frameTbl pa 56 (fun i => (nz (0x1700 + i) 1).map (fun b =>
      if b % 4 = 1 && Tbl.get 0 sh.vst i = 3 && s.readPAn (pa + 0x2000 + 256 * i) 256 = 0 then 3 else b % 4))
    drops := s.frameTbl pa 56 (fun i => if bit (s.readPAn (pa + 0x1700 + i) 1) 2 then some (Tbl.get scyc sh.drops i) else none)
    old := sh.old
    stg := s.frameTbl pa 192 (fun i => (nz (0x1000 + 8 * i) 8).map (BitVec.ofNat 64))
    tiles := s.frameTbl pa 8 (fun i => nz (0xB00 + 8 * i) 8)
    latches := s.frameTbl pa 4 (fun i => some (s.readPAn (pa + 0xB40 + 256 * i) 256))
    loops := s.frameTbl pa 6 (fun i => let w := s.fw pa (0x818 + 32 * i)
      if bit (s.fw pa (0x800 + 32 * i)) 63 then some ⟨fld w 17 0, fld w 35 18, fld w 41 36⟩ else none)
    ended := s.frameTbl pa 6 (fun i => let w := s.fw pa (0x818 + 32 * i)
      if w % 2 ^ 42 = 0 || bit (s.fw pa (0x800 + 32 * i)) 63 then none else some ⟨fld w 17 0, fld w 35 18, fld w 41 36⟩)
    streams := s.frameTbl pa 8 (fun q =>
      let o := 0x900 + 64 * q
      let w := s.fw pa (o + 32)
      if fld w 7 4 = 0 then none
      else some ⟨fld w 0 0, fld w 1 1, fld w 2 2, fld w 3 3, fld w 7 4, BitVec.ofNat 64 (s.fw pa o), BitVec.ofNat 64 (s.fw pa (o + 8)),
        BitVec.ofNat 64 (s.fw pa (o + 16)), BitVec.ofNat 64 (s.fw pa (o + 24)), s.fw pa (o + 40)⟩)
    images := s.frameTbl pa 8 (fun k =>
      let w := s.fw pa (0x1600 + 32 * k)
      let st := s.fw pa (0x1610 + 32 * k)
      if bit st 63 then
        match decodeSlot (slotClass k) (k == 1) 2 (w % 2 ^ 32) (w / 2 ^ 32) with
        | .error _ => none
        | .ok i => some ⟨w % 2 ^ 32, w / 2 ^ 32, i, s.fw pa (0x1608 + 32 * k) + fld st 62 61 * 2 ^ 64, []⟩
      else none)
    recipes := (List.range 32).filterMap (fun i =>
      let o := 0x1740 + 64 * i
      let w := s.fw pa o
      let c := s.fw pa (o + 8)
      if bit w 63 then
        match decodeSlot (if fld w 31 24 < 4 then .v else .x) false 2 (c % 2 ^ 32) (c / 2 ^ 32) with
        | .error _ => none
        | .ok j => some ⟨fld w 53 48, j, c % 2 ^ 32, c / 2 ^ 32, [s.fw pa (o + 32)], s.fw pa (o + 16), fld w 1 0, bit w 40, fld w 39 32,
            absCyc (fld (s.fw pa (o + 24)) 63 32) scyc, fld w 31 24, absCyc (fld (s.fw pa (o + 24)) 31 0) scyc⟩
      else none)
    inflight := ((marks.filter (fun i => fld (le i).2 31 0 != 0)).map (fun i =>
        Landing.named ⟨absCyc (fld (le i).2 31 0) scyc, 0, 0, 0, RKind.ofCode (fld (le i).2 39 32), fld (le i).2 45 40, 0, some (le i).1⟩ sh)).foldl
      (fun l m => placeLanding m l) (snaps.map (fun i => s.snapEntry pa i sh) ++ sh.unsaved)
    loads := ids.filter (fun q => q.dead) ++ pendEntries scyc ids ((loads.filter (fun i => fld (le i).2 55 52 != 4)).map le) }

/-- The captured operations and commands of a frame's last section (R407, R411), as operations of a commit. -/
def State.frameHeld (s : State) (pa : Nat) : List (Bool × Nat × Nat × List Nat) :=
  ((List.range 16).filter (fun i => bit (s.fw pa (0xE200 + 136 * i)) 63)).map (fun i =>
    let w := s.fw pa (0xE200 + 136 * i)
    (bit w 62, fld w 29 0, fld w 61 30, (List.range 16).map (fun k => s.fw pa (0xE208 + 136 * i + 8 * k))))

end Sys2Proof.Machine
end

