-- ==== Sys2Proof/Machine/Ops.lean ====
section
/-! DEFINITION. The shared operations: what holds a register back, the translation fault queue, rollback, taking a trap and
returning from one (R400 to R411), saving and reloading a context, queues of engine commands. -/

namespace Sys2Proof.Machine

/-! ### Reading registers -/

/-- Loads of a register whose landing cycle has passed without data and that no later write has overtaken (R121). Nothing awaits x0,
where results are discarded (R45). -/
def Arch.awaited (a : Arch) (k : RKind) (n : Nat) : Option PendLoad :=
  if k = .x && n = 0 then none else a.loads.find? (fun q => q.kind == k && q.num == n && q.cyc ≤ a.scyc && !q.dead)

/-- Whether a late load is past its window (R122). -/
def State.pastWindow (s : State) (q : PendLoad) : Bool :=
  match q.dueAt with
  | none => false
  | some d =>
    let w := (s.ar.getSr 0x008).toNat
    !q.noWin && d + (if q.remote then fld w 31 16 else fld w 15 0) ≤ (s.core s.cur).cyc

/-- What an absent load does to a reader (R117, R121, R122). -/
def State.chkAwaited (s : State) (k : RKind) (n : Nat) : Chk :=
  match s.ar.awaited k n with
  | none => .ok
  | some q =>
    if q.noWin then .wait .fe
    else if s.pastWindow q then .trap { cause := 8, d1 := q.addr } else .wait .late

/-- Reading a scalar register (R95, R121, R122). -/
def State.chkX (s : State) (n : Nat) : Chk :=
  (s.chkAwaited .x n).andThen
    (if Tbl.has s.ar.xpois n then .trap (trapPoison (Tbl.get 0 s.ar.xpois n)) else .ok)

/-- Reading a predicate register (R402, R490). -/
def State.chkP (s : State) (n : Nat) : Chk := if Tbl.has s.ar.ppois n then .trap (trapPoison (Tbl.get 0 s.ar.ppois n)) else .ok

/-- R222's check of a recipe chain: `v` is the register read, `e` the recipe, `fuel` the levels left. -/
def Arch.staleOf (a : Arch) (v : Nat) : Nat → Recipe → Option Trap
  | 0, _ => none
  | f + 1, e =>
    if e.stale then some { cause := 9, d0 := e.code, d1 := v, d2 := e.vd }
    else e.i.vsrcs.findSome? (fun n =>
      let st := Tbl.get 0 a.vst n
      if st = 0 then some { cause := 9, d0 := 4, d1 := v, d2 := n }
      else if 2 ≤ st then
        if f = 0 then some { cause := 9, d0 := 3, d1 := v, d2 := n }
        else
          match a.recipe n with
          | none => none
          | some r => a.staleOf v f r
      else none)

/-- Reading a vector register or stream (R46, R95, R214, R222). -/
def State.chkV (s : State) (n : Nat) : Chk :=
  if 56 ≤ n then s.chkStreamRead (n - 56)
  else
    (s.chkAwaited .v n).andThen
      (if Tbl.has s.ar.vpois n then .trap (trapPoison (Tbl.get 0 s.ar.vpois n))
       else if 2 ≤ Tbl.get 0 s.ar.vst n then
         match s.ar.recipe n with
         | none => .ok
         | some e =>
           match s.ar.staleOf n 2 e with
           | some t => .trap t
           | none => .wait .replay
       else .ok)

/-- The register reads of an operation, and the streams it writes. -/
def State.chkReads (s : State) (i : Instr) : Chk :=
  Chk.join (i.xsrcs.map s.chkX ++ i.vsrcs.map s.chkV ++ i.psrcs.map s.chkP ++ (i.vdests.filter (fun d => decide (56 ≤ d))).map (fun d => s.chkAppend (d - 56)))

/-! ### Translation faults (R83, R84) -/

/-- Whether the fault queue of a die has room. -/
def State.fqRoom (s : State) (d : Nat) : Bool := ((s.die d).fqHead + 1) % 256 != (s.die d).fqTail

/-- One entry is posted; the answer is its index. `kind` is the requester's: an engine's, 15 for a stream, 14 for a frame. -/
def State.postFault (s : State) (d va asid code : Nat) (write : Bool) (kind core : Nat) : State × Nat :=
  let x := s.die d
  let h := x.fqHead
  let w1 := asid * 2 ^ 52 + code * 2 ^ 48 + b2n write * 2 ^ 47 + kind * 2 ^ 43 + (clusterOf core % 4 * 32 + coreIn core) * 2 ^ 33
  let s := s.storePA (spread (x.fqBase + 32 * h) 8 va ++ spread (x.fqBase + 32 * h + 8) 8 w1 ++ spread (x.fqBase + 32 * h + 16) 16 0) false false
  ((s.modDie d (fun x => { x with fqHead := (h + 1) % 256 })).fwEvent d 1 h, h)

/-! ### Debug rings (R480, R482) -/

/-- A record of `n` bytes enters ring `r` of a die: rings 0 and 2 wrap, ring 1 drops what does not fit, and a ring of length 0
takes nothing. -/
def State.ringPut (s : State) (d r n v : Nat) : State :=
  let g := (s.die d).dbg
  let base := Tbl.get 0 g.rbase r
  let len := Tbl.get 0 g.rlen r
  let head := Tbl.get 0 g.rhead r
  if len = 0 then s
  else if r = 1 && len < head + n then
    s.modDie d (fun x => { x with dbg := { x.dbg with rdrop := Tbl.put x.dbg.rdrop r (Nat.min (2 ^ 32 - 1) (Tbl.get 0 x.dbg.rdrop r + 1)) } })
  else
    let bytes := (spread 0 n v).map (fun t => (base + (head + t.1) % len, t.2))
    (s.storePA bytes false false).modDie d (fun x => { x with dbg := { x.dbg with
      rhead := Tbl.put x.dbg.rhead r (if r = 1 then head + n else (head + n) % len) } })

/-- A context of a core as DBGSEL names it (R480). -/
def unitWord (p c : Nat) : Nat := clusterOf p % 4 * 128 + coreIn p * 4 + c

/-- A trace record of the issuing context (R482). -/
def State.traceRec (s : State) (kind pc cyc w3 : Nat) : State :=
  if (s.core s.cur).trace then
    s.ringPut (dieOf s.cur) 0 32 (joinEl 64 [kind * 2 ^ 56 + s.cur % 96 * 2 ^ 49 + s.ctx * 2 ^ 47 + s.tid % 2 ^ 32, pc % 2 ^ 18, cyc, w3])
  else s

/-! ### Rollback (R400 to R402) -/

/-- The trap causes that go to the supervisor (R403). -/
def superCause (c : Nat) : Bool := c == 3 || c == 7 || c == 20 || c == 21

/-- Keeping requests at a bank of loads issued after the commit are withdrawn (R400, R416). -/
def dropWaits (live ids : List Nat) (t : Nat × LCore) : Nat × LCore :=
  (t.1, { t.2 with waits := t.2.waits.filter (fun w => !(w.keep && live.contains w.id && !ids.contains w.id)) })

/-- A rollback of the issuing context to its image (R400). -/
def State.rollback (s : State) : State :=
  let ids := s.cx.image.loads.map (fun q => q.id)
  let s := s.modCore s.cur (fun p => { p with matPend := p.matPend.filter (fun m => !(m.ctx == s.ctx && !m.committed)) })
  let live := s.cx.arch.loads.map (fun q => q.id)
  let s := ({ s with lcores := s.lcores.map (dropWaits live ids) } : State).dropGotOf s.cur s.ctx
  let s := s.modTask s.tid (fun t => { t with async := t.async.filter (fun c => c.pc.isNone) })
  s.modCx (fun k => { k with arch := k.image, held := [], wbuf := [], win := [], rets := [], replay := none, swait := []
                             presented := none, bnd := false, wrote := [], drainOn := none, drainGo := none, nb := 0, waited := 0, chain := false })

/-! ### Frames -/

/-- Physical address of a frame, or the reason that translation fails (R412). `user` selects SAVE + 0x1_0000. -/
def State.framePA (s : State) (user write : Bool) : Except Nat Nat :=
  let va := s.myTask.save / 2 ^ 16 * 2 ^ 16 + (if user then 0x1_0000 else 0)
  match s.xlate (.die (dieOf s.lc)) s.asid va write with
  | .error c => .error c
  | .ok ph => .ok ph.pa

/-- A frame access that fails translation posts a fault and holds the context (R412). -/
def State.frameFault (s : State) (code : Nat) (user write : Bool) (job : FrameJob) : State :=
  let d := dieOf s.lc
  let va := s.myTask.save / 2 ^ 16 * 2 ^ 16 + (if user then 0x1_0000 else 0)
  if s.fqRoom d then
    let (t, n) := s.postFault d va s.asid code write 14 s.cur
    t.modCx (fun k => { k with job := some job, jobIdx := some n })
  else s.modCx (fun k => { k with job := some job, jobIdx := none })

/-- The frame information of a trap; the rollback has been made, `live` is the state before it. -/
def State.trapInfo (s : State) (t : Trap) (dbl : Bool) : FrameInfo :=
  let k := s.cx
  ⟨k.inh, false, dbl, some t, t.pc.getD 0, t.ncyc, t.nb, k.image.pc, s.ctx, k.ckexp, k.ckimp, [], k.post⟩

/-- The context is free (R378): its committed matrix results are written (R297), a stop of it stands (R481), and its registers hold their
values until a task starts on it (R213, R458). -/
def State.freeCtx (s : State) : State :=
  let s := s.matSettle
  let a : Arch := { s.ar with inflight := [], loads := [] }
  ((s.dropGotOf s.cur s.ctx).setCx { stop := s.cx.stop, stopped := s.cx.stopped, arch := a, image := a }).modCore s.cur
    (fun p => { p with matPend := p.matPend.filter (fun m => m.ctx != s.ctx) })

/-- The handler's state: the frame's register values, nothing in flight, no loop, no stream, no image (R405). -/
def Arch.handler (a : Arch) (vec : Nat) : Arch :=
  { a with pc := vec, inflight := [], loads := [], loops := [], ended := a.loops.foldl (fun t l => Tbl.put t l.1 l.2) a.ended, streams := [], images := []
           sr := a.sr.map (fun t => if inRange 0x020 0x025 t.1 then (t.1, BitVec.ofNat 64 (t.2.toNat % 2 ^ 32)) else t) }

/-- The row operand of a captured operation, which an entry of the held section has no room for (R407, log 10). -/
def CommitOp.srcRow (o : CommitOp) : Option Nat := if o.overRow then some (o.vals.getD 2 0) else none

/-- Commands among operations of a commit. -/
def heldCmds (l : List CommitOp) : List Cmd := l.filterMap (fun o => o.cmd)

/-- Keeps what a frame of the issuing task has no room for: the source rows of its captured operations, what its commands captured, and the
registers as saved (log 10, log 20). -/
def State.keepRows (s : State) (user : Bool) (capt held : List CommitOp) (a : Arch) : State :=
  { s with rows := Tbl.put s.rows (2 * s.tid + b2n user) (capt.filterMap CommitOp.srcRow)
           cmds := Tbl.put s.cmds (2 * s.tid + b2n user) (heldCmds (capt ++ held))
           shadow := Tbl.put s.shadow (2 * s.tid + b2n user) a }

/-- Delivery to the task's vector, after the rollback (R405). -/
def State.deliverUser (s : State) (t : Trap) : State :=
  match s.framePA true true with
  | .error c => s.frameFault c true true (.user t)
  | .ok pa =>
    let vec := s.myTask.trapvec + (if t.cause = 8 then 0x40 else 0)
    let s := (s.writeFrame pa (s.frameItems s.ar (s.trapInfo t false))).keepRows true s.cx.post [] s.ar
    s.modCx (fun k =>
      let a := k.arch.handler vec
      { k with frameLoads := k.arch.loads, arch := a, image := a, inh := true, post := [], job := none, jobIdx := none })

/-- The loads that a frame of the task leaves pending, the supervisor frame's and the user frame's (R411, R405). -/
def State.keepLoads (s : State) : State :=
  let k := s.cx
  { s with saved := Tbl.put s.saved s.tid k.arch.loads, savedH := Tbl.put s.savedH s.tid k.frameLoads }

/-- Delivery to the supervisor, after the rollback (R405). -/
def State.deliverSuper (s : State) (t : Trap) (dbl : Bool) : State :=
  match s.framePA false true with
  | .error c => s.frameFault c false true (.super t dbl)
  | .ok pa =>
    let s := (s.writeFrame pa (s.frameItems s.ar (s.trapInfo t dbl))).keepRows false s.cx.post [] s.ar
    let id := s.tid
    let s := s.keepLoads
    let s := s.modTask id (fun k => { k with state := 4 })
    let inh := s.cx.inh
    let u := unitWord s.cur s.ctx
    ((s.freeCtx).fwEvent (fld id 18 16) 2 id).blackBox (dieOf s.cur) 1 u (t.word0 dbl inh)

/-- Taking a trap (R404, R405): the rollback, then the user's vector or the supervisor; of a context that is being pre-empted it stays
recorded (R415). NCYC and NB of the record are counted here; the record names the trapping bundle. -/
def State.trapCore (s : State) (t : Trap) (dbl : Bool) : State :=
  let k := s.cx
  let after := t.post || t.cause == 20 || t.cause == 21
  let ncyc := if after then 0 else k.arch.scyc + 1 - k.image.scyc
  let t := if k.trpend.isSome then t else { t with pc := some (t.pc.getD (s.nextHeader k.arch.pc)), ncyc := ncyc, nb := k.nb }
  let inh := k.inh
  let s := s.rollback.modCx (fun k => { k with trpend := none })
  let vec := s.myTask.trapvec + (if t.cause = 8 then 0x40 else 0)
  let d := dbl || (!superCause t.cause && (inh || !s.codeOk vec))
  let s := s.traceRec 2 (t.pc.getD 0) (t.cyc.getD (s.ar.scyc + t.ncyc)) (t.word0 d inh)
  let s := if k.preempt then s.modCx (fun k => { k with trpend := some t })
    else if superCause t.cause || d then s.deliverSuper t d else s.deliverUser t
  { s with bun := {} }

/-- The group of a membership slot of a task, where the slot is valid (R377). -/
def Task.slotGid (t : Task) (n : Nat) : Option Nat := if Tbl.get false t.gv n then some (Tbl.get 0 t.gid n) else none

/-- The number that names a logical core within its die: cluster and core (R308). -/
def clCore (l : Nat) : Nat := clusterOf l % 4 * 32 + coreIn l

/-- Contexts other than those of task `id` whose MMAP is presented on a group of that task (R308). -/
def State.presentedWith (s : State) (id : Nat) : List (Nat × Nat × Nat) :=
  let gs := (List.range 4).filterMap (fun n => (s.task id).slotGid n)
  (s.cores.map (fun p => p.2.ctxs.filterMap (fun c =>
    match c.2.presented with
    | some (g, _, _) => if c.2.tid != id && gs.contains g && dieOf (s.task c.2.tid).lcore == dieOf (s.task id).lcore then some (p.1, c.1, g) else none
    | none => none))).flatten

/-- A trap of a context while its partner is presented: the partner takes PAIR_ABORT with a reason (R308). -/
def State.abortPartners (s : State) (reason : Nat) : State :=
  let l := s.lc
  (s.presentedWith s.tid).foldl (fun s t =>
    s.within t.1 t.2.1 (fun s => s.trapCore { cause := 15, d0 := reason, d1 := t.2.2, d2 := clCore l, slot := 5 } false)) s

/-- The reason that the partner of a trapping context takes: 3 where the fields of a pair differ, else 1 (R308). -/
def Trap.pairReason (t : Trap) : Nat := if t.cause = 15 && t.d0 = 3 then 3 else 1

/-- A trap as the issuing context takes it. -/
def State.takeTrapAs (s : State) (t : Trap) (dbl : Bool) : State := (s.abortPartners t.pairReason).trapCore t dbl

def State.takeTrap (s : State) (t : Trap) : State := s.takeTrapAs t false

/-! ### Queues of engine commands (R136, R138) -/

/-- Commands that a queue of a kind holds (R136, R178, R183, R204, R432, R439). -/
def qCap (kind : Nat) : Nat :=
  match kind with
  | 0 => 16 | 1 => 128 | 2 => 8 | 3 => 32 | 4 => 16 | _ => 32

/-- The queue that a command of a physical core enters. -/
def State.queueOf (s : State) (kind p : Nat) : List Cmd :=
  match kind with
  | 0 => (s.core p).copyQ
  | 1 => (s.cluster (clusterOf p)).gq
  | 2 => (s.core p).sieveQ
  | 3 => (s.die (dieOf p)).fillQ
  | 4 => (s.die (dieOf p)).collQ
  | _ => (s.die (dieOf p)).noteQ

def State.setQueue (s : State) (kind p : Nat) (q : List Cmd) : State :=
  match kind with
  | 0 => s.modCore p (fun c => { c with copyQ := q })
  | 1 => s.modCluster (clusterOf p) (fun c => { c with gq := q })
  | 2 => s.modCore p (fun c => { c with sieveQ := q })
  | 3 => s.modDie (dieOf p) (fun c => { c with fillQ := q })
  | 4 => s.modDie (dieOf p) (fun c => { c with collQ := q })
  | _ => s.modDie (dieOf p) (fun c => { c with noteQ := q })

/-- A command is released to its queue (R138), under the next number. -/
def State.release (s : State) (c : Cmd) : State :=
  (s.setQueue c.kind c.pcore (s.queueOf c.kind c.pcore ++ [{ c with released := (s.core c.pcore).cyc, rel := s.fresh }])).bump

/-- Whether every queue has room for the commands (R138). -/
def State.roomFor (s : State) (l : List Cmd) : Bool :=
  l.all (fun c => ((s.queueOf c.kind c.pcore).filter (fun q => !(q.kind == 4 && q.started))).length
    + (l.filter (fun d => d.kind == c.kind)).length ≤ qCap c.kind)

/-- Commands of a task that have not completed, in queues and running (R135, R365). -/
def State.cmdsOf (s : State) (task : Nat) : List Cmd :=
  let f (l : List Cmd) := l.filter (fun c => c.task == task)
  ((s.cores.map (fun p => f p.2.copyQ ++ f p.2.sieveQ)).flatten ++ (s.clusters.map (fun c => f c.2.gq)).flatten
    ++ (s.dies.map (fun d => f d.2.fillQ ++ f d.2.collQ ++ f d.2.noteQ)).flatten
    ++ ((s.task task).parked.map (fun t => t.2)))

/-! ### Groups (R386, R387) -/

/-- A group entry on a die. -/
def State.group (s : State) (d gid : Nat) : Group := Tbl.get {} (s.die d).groups gid
def State.hasGroup (s : State) (d gid : Nat) : Bool := (s.group d gid).v

/-- A phase completes where all members that remain have arrived (R386). -/
def Group.settle (g : Group) : Group :=
  if 0 < g.arr && g.arr == g.nmem - g.nleft then { g with phase := (g.phase + 1) % 2 ^ 32, arr := 0 } else g

/-- A group's entry on one die; one whose members have all left is free (R386). -/
def State.putGroup (s : State) (gid : Nat) (g : Group) (d : Nat) : State :=
  s.modDie d (fun x => { x with groups := Tbl.put x.groups gid { g with v := decide (g.nleft < g.nmem) } })

/-- Changes a group's entry on each die that holds it: a spanning group's entries act as one (R382). -/
def State.modGroup (s : State) (d gid : Nat) (f : Group → Group) : State :=
  let g := f (s.group d gid)
  if g.xdie then g.dies.foldl (fun s k => s.putGroup gid g k) s
  else s.putGroup gid g d

/-- A task leaves the group of a slot (R387). -/
def State.leaveGroup (s : State) (id n : Nat) : State :=
  let t := s.task id
  match t.slotGid n with
  | none => s
  | some gid =>
    let gw := Tbl.get false t.gw n
    let s := s.modTask id (fun t => { t with gv := Tbl.put t.gv n false, gw := Tbl.put t.gw n false })
    s.modGroup (dieOf t.lcore) gid (fun g => { g with arr := if gw then g.arr - 1 else g.arr, nleft := g.nleft + 1 }.settle)

/-! ### Tasks (R378, R383) -/

/-- An identifier among ascending ones. -/
def insertId (id : Nat) : List Nat → List Nat
  | [] => [id]
  | n :: l => if n < id then n :: insertId id l else id :: n :: l

/-- A task joins the tail of a level's ready queue; those that join it in one core cycle stand in ascending order (R378). -/
def PCore.join (p : PCore) (lvl id : Nat) : PCore :=
  let l := Tbl.get [] p.ready lvl
  let (c, n) := Tbl.get (0, 0) p.joins lvl
  let k := if c = p.cyc then Nat.min n l.length else 0
  { p with ready := Tbl.put p.ready lvl (l.take (l.length - k) ++ insertId id (l.drop (l.length - k))), joins := Tbl.put p.joins lvl (p.cyc, k + 1) }

/-- A task joins the tail of its level's ready queue on the core that hosts its logical core. -/
def State.makeReady (s : State) (id : Nat) : State :=
  let t := s.task id
  let s := s.setTask id { t with state := 2 }
  s.modCore (s.hostOf t.lcore) (fun p => p.join t.prio id)

/-- A decrement by n, issued on die `d` (R378, R391): status and DEP as left. A task of another die that it makes READY starts after the
flushes that `d` owes (R394). -/
def State.decTask (s : State) (d id n : Nat) : (Nat × Nat) × State :=
  let t := s.task id
  if id / 2 ^ 32 != 0 || t.id != id || t.state != 1 then ((2, t.dep), s)
  else
    let dep := t.dep - n
    let s := s.setTask id { t with dep := dep, flush := if dep = 0 ∧ dieOf t.lcore ≠ d then d + 1 else t.flush }
    if dep = 0 then ((if t.dep < n then 3 else 1, 0), s.makeReady id) else ((0, dep), s)

/-- Whether a die owes a flush of lines that a task whose record `f` accepts wrote before its end: they are written through, so one is owed
while such a write to another package has no answer (R394, log 5). -/
def State.flushOwed (s : State) (d : Nat) (f : Task → Bool) : Bool :=
  (s.die d).copies.any (fun k => k.m.kind == 3 && k.m.dpkg != k.m.spkg && (s.task k.task).state == 5 && f (s.task k.task))

/-- Whether a task may start: the flushes that a decrement made it wait for are performed (R394). -/
def State.mayStart (s : State) (id : Nat) : Bool :=
  let n := (s.task id).flush
  n = 0 || !s.flushOwed (n - 1) (fun _ => true)

/-- The context that a task runs in. -/
def State.ctxHolding (s : State) (id : Nat) : Option (Nat × Nat) :=
  s.cores.findSome? (fun p => p.2.ctxs.findSome? (fun c => if c.2.task == some id then some (p.1, c.1) else none))

/-! ### Asynchronous writes that find their context wherever it is (R142, R156) -/

/-- Changes a 64-bit state register word of a frame of a task in memory, where the frame is mapped (R142, R156). -/
def State.frameSr (s : State) (id n : Nat) (user : Bool) (f : Nat → Nat) : State :=
  let t := s.task id
  match s.xlate (.die (dieOf t.lcore)) t.asid (t.save / 2 ^ 16 * 2 ^ 16 + (if user then 0x1_0000 else 0)) true with
  | .error _ => s
  | .ok ph =>
    let o := ph.pa + 0x500 + 8 * n
    s.storePA (spread o 8 (f (s.readPAn o 8))) false false

/-- An asynchronous update of a state register of a task (R62, R142, R156, R206): live state and image where a context runs
it, with the user frame while a handler runs; the saved frame otherwise. -/
def State.srAsync (s : State) (id n : Nat) (f : Nat → Nat) : State :=
  match s.ctxHolding id with
  | some (p, c) =>
    let s := s.asyncWrite p c (fun a => a.setSr n (BitVec.ofNat 64 (f (a.getSr n).toNat)))
    if (s.ctxAt p c).inh then s.frameSr id n true f else s
  | none =>
    let t := s.task id
    if (t.state = 2 && t.ran) || t.state = 4 then s.frameSr id n false f else s

/-- Whether a result in flight is an increment of counter `cc` by a command captured in cycle `iss`. -/
def Landing.raised (l : Landing) (cc iss : Nat) : Bool := l.kind == .cc && l.num == cc && l.iss == iss

/-- A decrement of counter `cc` by a command captured in cycle `iss`: it meets that command's own increment while this has not landed (R137), and
else leaves a counter of 0 at 0 (R142). -/
def Arch.ccDown (a : Arch) (cc iss : Nat) : Arch :=
  if a.inflight.any (fun l => l.raised cc iss) then { a with inflight := a.inflight.eraseP (fun l => l.raised cc iss) }
  else a.setSr (0x010 + cc) (BitVec.ofNat 64 ((a.getSr (0x010 + cc)).toNat - 1))

/-- The decrement in a frame: the command's own increment in its snapshot, or its counter. -/
def State.frameDown (s : State) (id cc iss : Nat) (user : Bool) : State :=
  let t := s.task id
  match s.xlate (.die (dieOf t.lcore)) t.asid (t.save / 2 ^ 16 * 2 ^ 16 + (if user then 0x1_0000 else 0)) true with
  | .error _ => s
  | .ok ph =>
    let scyc := s.readPAn (ph.pa + 8) 8
    match (List.range 128).find? (fun i => let w := s.readPAn (ph.pa + 0x5800 + 272 * i) 8
        bit w 63 && fld w 39 32 == 3 && fld w 45 40 == cc && absCyc (fld w 31 0) scyc == iss + 1 && s.readPAn (ph.pa + 0x5808 + 272 * i) 8 != 0) with
    | none => s.frameSr id (0x010 + cc) user (fun v => v - 1)
    | some i => s.storePA (spread (ph.pa + 0x5808 + 272 * i) 8 0) false false

/-- A completion of a command captured in cycle `iss` decrements counter `cc` of a task, wherever its context is (R142). -/
def State.counterDown (s : State) (id cc iss : Nat) : State :=
  match s.ctxHolding id with
  | some (p, c) =>
    let s := s.asyncWrite p c (fun a => a.ccDown cc iss)
    if (s.ctxAt p c).inh then s.frameDown id cc iss true else s
  | none =>
    let t := s.task id
    if (t.state = 2 && t.ran) || t.state = 4 then s.frameDown id cc iss false else s

end Sys2Proof.Machine
end

