-- ==== Sys2Proof/Machine/Far.lean ====
section
/-! DEFINITION. Accesses that leave as messages: to another package, or over a way of this one that is not open (R419 to R426), and lines
held of other packages (R89, R352). Other accesses between dies of one package are performed at once (log 5). -/

namespace Sys2Proof.Machine

/-- Who sends a message: the task and the number of its operation (R440), and the load, part, lane or requester that the answer serves. -/
structure Sender where
  task : Nat := 0
  num : Nat := 0
  ref : Nat := 0
  lane : Nat := 0
  sx : Bool := false
  req : Nat := 0
deriving DecidableEq, Repr

/-- The issuing context as it sends. -/
def State.me (s : State) : Sender := { task := s.tid, num := s.fresh }

/-- Flits of a message pass the hops of its way from die `d`: their failures so far were not consecutive (R420). -/
def State.passed (s : State) (d : Nat) (m : Msg) : State :=
  (s.wayHops d m).foldl (fun s h =>
    if Tbl.has (s.die h.1).hopErr h.2 && Tbl.get 0 (s.die h.1).hopErr h.2 < 32 then s.modDie h.1 (fun x => { x with hopErr := Tbl.del x.hopErr h.2 })
    else s) s

/-- A message at the station of die `d`: it leaves over the rack where nothing holds it back, else it stands there; one for a die of this
package is delivered from there. -/
def State.emit (s : State) (d : Nat) (m : Msg) : State :=
  if m.dpkg != (s.die d).pkg && s.mayLeave d m then { s.passed d m with fabric := s.fabric ++ [m] } else { s with station := s.station ++ [(d, m)] }

/-- A message leaves die `d` for a package and die; the source keeps a copy until its answer arrives (R419, R422). -/
def State.sendTo (s : State) (d kind dpkg ddie addr pois : Nat) (words : List Nat) (by_ : Sender) : State :=
  let x := s.die d
  let m : Msg := ⟨kind, d, ddie, x.pkg, dpkg, x.tag, pois, addr, words, false⟩
  let s := s.modDie d (fun x => { x with tag := (x.tag + 1) % 4096
                                         copies := if keepsCopy kind then x.copies ++ [⟨m, 0, by_.ref, by_.lane, by_.sx, by_.task, by_.num, by_.req, false⟩] else x.copies })
  s.emit d m

/-- The copies of a collective's COLLRDY messages, which nothing answers, go with it (R422). -/
def State.dropReady (s : State) (id : Nat) : State :=
  { s with dies := s.dies.map (fun d => (d.1, { d.2 with copies := d.2.copies.filter (fun k => !(k.m.kind == 18 && k.lane == id)) })) }

/-- A message to the home of a physical address. -/
def State.sendHome (s : State) (d kind pa pois : Nat) (words : List Nat) (by_ : Sender) : State :=
  s.sendTo d kind (pa / 2 ^ 44) (homeDie pa) (pa % 2 ^ 44) pois words by_

/-- Whether a copy is of a message to the line of a physical address. -/
def Copy.onLine (k : Copy) (pa : Nat) : Bool := k.m.dpkg == pa / 2 ^ 44 && k.m.addr / 256 == pa % 2 ^ 44 / 256

/-- Whether a copy is of a message to the region of a physical address. -/
def Copy.inRegion (k : Copy) (pa : Nat) : Bool := k.m.dpkg == pa / 2 ^ 44 && k.m.addr / 2 ^ 21 == pa % 2 ^ 44 / 2 ^ 21

/-- Whether an access of the die under the token of a region is unperformed: a read or a write that has no answer (R345, R431). -/
def Die.tokenUsed (x : Die) (pa : Nat) : Bool := x.copies.any (fun k => (k.m.kind == 1 || k.m.kind == 3) && k.inRegion pa)

/-- Lines on their way to die `d` for the line of an address will not be kept. -/
def State.staleLine (s : State) (d pa : Nat) : State :=
  s.modDie d (fun x => { x with copies := x.copies.map (fun k => if k.m.kind == 1 && k.onLine pa then { k with stale := true } else k) })

/-- A 64-byte line written at its home by a message: through the line held of another package, and as WRREQ with the poison of its
granules (R91, R426). Its last word says whether an engine writes, which sets accumulator granules full (R315; log 63). -/
def State.storeFar (s : State) (d pa mask data mode pois : Nat) (engine : Bool) (by_ : Sender) : State :=
  let s := if s.linePresent d pa && mode = 0 then
      (List.range 4).foldl (fun s g => s.memStore (maskBytes (pa + 16 * g) 16 (mask / 2 ^ (16 * g)) (data / 2 ^ (128 * g))) (bit pois g)) s
    else s
  (s.staleLine d pa).sendHome d 3 pa pois [mask, mode, data, b2n engine] by_

/-- Lines leave: those of addresses from `pa` over `n` bytes (R89). -/
def State.dropLines (s : State) (pa n : Nat) : State :=
  { s with rlines := s.rlines.filter (fun l => !(pa / 256 ≤ l && l < (pa + n) / 256)) }

/-- Whether messages of the issuing context's task that `f` names are unanswered. -/
def State.farOpen (s : State) (f : Copy → Bool) : Bool := s.dies.any (fun d => d.2.copies.any (fun k => k.task == s.tid && f k))

/-- Unanswered writes and atomics of the issuing context's task on accumulator windows (R88, R345). -/
def State.farAcc (s : State) : Bool := s.farOpen (fun k => (k.m.kind == 3 || k.m.kind == 7) && isAccWin k.m.addr)

/-- The global address by which a message reaches an accumulator operand; none where the issuing context reaches it at once. -/
def State.wayTo (s : State) (t : AccTgt) : Option Nat :=
  match t.far with
  | some pa => some pa
  | none =>
    let d := dieOf s.lc
    let pa := accPa (s.die d).pkg t.unit t.off
    if clusterOf t.unit = clusterOf s.lc || s.atOnce d pa s.tid s.fresh then none else some pa

/-- A weak write of bytes of one line at its home, at once or by a message. -/
def State.performPart (s : State) (e : WEnt) : State :=
  let d := dieOf s.lc
  let far (pa : Nat) : State := s.storeFar d pa e.mask e.data (match e.kind with
    | .addF => 1
    | .addI => 2
    | _ => 0) 0 false s.me
  match e.sp with
  | .glob => if s.atOnce d e.line s.tid s.fresh then s.performEnt e else far e.line
  | .acc =>
    match s.wayTo ⟨e.unit, e.line, true, none⟩ with
    | none => s.performEnt e
    | some pa => far pa
  | _ => s.performEnt e

/-- A withheld line entry is written (R91, R395). -/
def State.performStore (s : State) (e : WEnt) : State := e.parts.foldl (fun s e => s.performPart e) s

end Sys2Proof.Machine
end

