-- ==== Sys2Proof/Machine/Matrix.lean ====
section
/-! DEFINITION. The matrix engine (R290 to R302): the checks of an operation and what it captures. -/

namespace Sys2Proof.Machine

/-! ### Operands -/

/-- The rows of a descriptor, each checked by R115 and R109, and by R112 where checking is on. -/
def State.matRows (s : State) (base shape n : Nat) : Nat → Nat → Except Trap (List (Nat × Nat × Nat))
  | 0, _ => .ok []
  | f + 1, m =>
    match tileRow s.lc spSize base shape m n 64 with
    | .error t => .error t
    | .ok r =>
      match s.matRows base shape n f (m + 1) with
      | .error t => .error t
      | .ok l => .ok (r :: l)

/-- The first tag that fails under the descriptor's code (R112, R295 step 4). -/
def State.matTags (s : State) (n : Nat) (l : List (Nat × Nat × Nat)) : Option Trap :=
  if s.swzOff then none
  else l.findSome? (fun r => ((s.lcore r.1).tagFail r.2.2 r.2.1 n).map (fun d => { cause := 18, d0 := d, d1 := coreIn r.1 * 2 ^ 21 + r.2.1 }))

/-- The bytes of a row over the context's own withheld stores (R300). -/
def State.matRow (s : State) (n : Nat) (r : Nat × Nat × Nat) : Nat :=
  s.ownBytes .sp r.1 (some r.2.2) r.2.1 n

/-- Numbers of the rows that hold a poisoned granule (R301). -/
def State.matPois (s : State) (n : Nat) (l : List (Nat × Nat × Nat)) : NatSet :=
  (l.zipIdx.filter (fun t => s.ownPois .sp t.1.1 (some t.1.2.2) ((List.range n).map (fun i => t.1.2.1 + i)))).map (fun t => t.2)

/-- Base words of A and B: from the registers, or from the image of a kept operation (R302). -/
def State.matBases (s : State) (a b : Nat) : Nat × Nat :=
  match s.kept with
  | some im => (im.addr % 2 ^ 32, im.addr / 2 ^ 32 % 2 ^ 32)
  | none => ((s.rx a).toNat, (s.rx b).toNat)

/-- The check of a tile word (R295 step 2). -/
def tileBad (w : Nat) : Option Trap :=
  if fld w 28 16 < 8 || fld w 15 13 != 0 then some (trapAddress 1 (64 * fld w 12 0))
  else if accSize < tileOff w 127 + 512 then some (trapAddress 3 (64 * fld w 12 0)) else none

def Arch.tile (a : Arch) (n : Nat) : Nat := Tbl.get 0 a.tiles n

/-- The checks of R295 after the vector sources; the engine is free. -/
def State.chkMma (s : State) (src b n : Nat) (w : MmaW) : Chk :=
  let k := (w.kg + 1) * 32
  let (ba, bb) := s.matBases src b
  match tileBad (s.ar.tile n) with
  | some t => .trap t
  | none =>
    match (if w.av = 1 then .ok [] else s.matRows ba (s.rx (src + 1)).toNat (rowBytes w.ta k) (w.mm1 + 1) 0) with
    | .error t => .trap t
    | .ok la =>
      match s.matRows bb (s.rx (b + 1)).toNat (rowBytes w.tb k) 128 0 with
      | .error t => .trap t
      | .ok lb =>
        match s.matTags (rowBytes w.ta k) la, s.matTags (rowBytes w.tb k) lb with
        | some t, _ => .trap t
        | none, some t => .trap t
        | none, none => .ok

/-- The result that an MMA captures at issue (R296). -/
def State.captureMma (s : State) (src b n : Nat) (w : MmaW) : MRes :=
  let k := (w.kg + 1) * 32
  let na := rowBytes w.ta k
  let nb := rowBytes w.tb k
  let (ba, bb) := s.matBases src b
  let rows (e : Except Trap (List (Nat × Nat × Nat))) : List (Nat × Nat × Nat) := match e with
    | .ok l => l
    | .error _ => []
  let la := if w.av = 1 then [] else rows (s.matRows ba (s.rx (src + 1)).toNat na (w.mm1 + 1) 0)
  let lb := rows (s.matRows bb (s.rx (b + 1)).toNat nb 128 0)
  let pair := s.rv src + 2 ^ 2048 * s.rv (src + 1)
  let lat := matBusyOf w.ta k + 16
  { ctx := s.ctx, iss := s.cyc, cyc := s.cyc + lat, lcore := s.lc, tile := s.ar.tile n, acc := w.acc == 1, ta := w.ta, tb := w.tb, k := k
    a := if w.av = 1 then (List.range (w.mm1 + 1)).map (fun m => pair / 2 ^ (8 * na * m) % 2 ^ (8 * na)) else la.map (s.matRow na)
    b := lb.map (s.matRow nb), sa := s.ar.latchPair 0, sb := s.ar.latchPair 2
    pa := s.matPois na la, pb := s.matPois nb lb
    at_ := (s.core s.cur).cyc + lat, committed := false }

/-- The engine takes an operation of `busy` core cycles, twice as many with DUP (R297, R490), after the other half of a pair on the same core (R307). -/
def State.matStart (s : State) (r : MRes) (busy : Nat) : State :=
  let old (q : MRes) : Bool := q.written && (q.ctx == s.ctx && q.cyc ≤ s.ar.scyc)
  s.modCore s.cur (fun p =>
    let b := Nat.max p.matBusy p.cyc + (if p.dup then 2 * busy else busy)
    { p with matBusy := b, matPend := p.matPend.filter (fun q => !old q) ++ [{ r with at_ := Nat.max r.at_ (b + 16) }] })

/-- +0 in all of a tile (R305): written as any result may be, 16 core cycles after the 32 busy ones (R297). -/
def State.captureZero (s : State) (n : Nat) : MRes :=
  { ctx := s.ctx, iss := s.cyc, cyc := s.cyc + 132, lcore := s.lc, tile := s.ar.tile n, acc := false, ta := 0, tb := 0, k := 0
    a := List.replicate 128 0, b := List.replicate 128 0, sa := 0, sb := 0, pa := [], pb := []
    at_ := (s.core s.cur).cyc + 48, committed := false }

end Sys2Proof.Machine
end

