-- ==== Sys2Proof/Machine/Commit.lean ====
section
/-! DEFINITION. Commits (R395 to R399): the image, the withheld stores, the held commands, and the irrevocable operations
with their post-commit traps (R407). -/

namespace Sys2Proof.Machine

/-- How one operation of step 4 ends: performed, trapped, or holding its context, maybe for a numbered answer (R106, R427, R407). -/
inductive Perf where
  | done (s : State)
  | trap (s : State) (o : CommitOp) (t : Trap)
  | hold (s : State) (vals : List Nat) (ref : Nat)

/-! ### Loads that consume (R117, R125, R279) -/

/-- The value that a scalar load lands (R93, R124). -/
def scalarVal (z v : Nat) : Nat := if 4 ≤ z then modI 64 (sextI (8 * sizeOf z) v) else v % 2 ^ (8 * sizeOf z)

/-- Bytes of `v` where the mask is set, of `old` elsewhere. -/
def blendBytes (n mask old v : Nat) : Nat := joinEl 8 ((List.range n).map (fun i => if bit mask i then el 8 v i else el 8 old i))

/-- Granules of 256 bytes that hold an active byte (R279): their offsets. -/
def activeGranules (p : Nat) : List Nat := (List.range 16).filter (fun g => p / 2 ^ (16 * g) % 2 ^ 16 != 0)

/-- Physical places of the bytes of the granules that a load touches. -/
def LCore.touched (c : LCore) (acc : Bool) (rc : Option Nat) (off : Nat) (mask n : Nat) : List Nat :=
  if n = 256 then ((activeGranules mask).map (fun g => c.places (if acc then .acc else .sp) rc (off + 16 * g) 16)).flatten
  else c.places (if acc then .acc else .sp) rc off n

/-- The space of a load's operand. -/
def spOf (acc : Bool) : Space := if acc then .acc else .sp

/-- The bytes that a load of scratchpad or accumulator memory returns, its context's withheld bytes over them. -/
def State.spBytes (s : State) (acc : Bool) (unit : Nat) (rc : Option Nat) (off n : Nat) : Nat := s.ownBytes (spOf acc) unit rc off n

/-- The poison that a load of scratchpad or accumulator memory meets, unless withheld bytes cover the granule. -/
def State.spPois (s : State) (acc : Bool) (unit : Nat) (rc : Option Nat) (off n mask : Nat) : Bool :=
  s.ownPois (spOf acc) unit rc (if n = 256 then (activeGranules mask).map (fun g => off + 16 * g) else [off])

/-- Accumulator bytes as a read of the context issued in cycle `c` sees them: those over which an own matrix result is pending are free values
(R299, log 6). -/
def State.accFree (s : State) (c unit off n v : Nat) : Nat :=
  joinEl 8 ((List.range n).map (fun i =>
    if s.matMeetAt c unit (off + i) 1 == .free then (Config.freeByte (s.free + s.slot) (off + i)).toNat else el 8 v i))

/-- Empties the granules that a consuming load read (R116). -/
def State.spDrain (s : State) (acc : Bool) (unit : Nat) (rc : Option Nat) (off n mask : Nat) : State :=
  s.modLcore unit (fun c =>
    let l := c.touched acc rc off mask n
    if acc then { c with acc := c.acc.drain l } else { c with sp := c.sp.drain l })

def State.spFull (s : State) (acc : Bool) (unit : Nat) (rc : Option Nat) (off n mask : Nat) : Bool :=
  let c := s.lcore unit
  let l := c.touched acc rc off mask n
  if acc then c.acc.full l else c.sp.full l

/-- The physical places that a request at a bank touches. -/
def LCore.asked (c : LCore) (w : BankWait) : List Nat := c.touched w.acc (if w.rc = 4 then none else some w.rc) w.off w.pn w.len

/-- Whether an older request that can be performed waits on one of the places (R117). -/
def LCore.ahead (c : LCore) (acc : Bool) (l : List Nat) : Bool :=
  c.waits.any (fun w => w.acc == acc && (c.bank (spOf acc)).full (c.asked w) && (c.asked w).any (fun a => l.any (fun b => a / 16 == b / 16)))

/-- A full/empty load of a place: it reads at once where its granules are full and no older request of theirs is served first, else its
request waits at the bank (R117). `c` is the context cycle of its issue, `z` is the scalar size code, 8 for a vector with active mask `mask` over `old`. -/
def State.feLoad (s : State) (c : Nat) (acc : Bool) (unit : Nat) (rc : Option Nat) (off z mask old : Nat) (keep : Bool) (r : LoadRes)
    (go : State → LoadRes → Bool → State) : State :=
  let n := if z = 8 then 256 else sizeOf z
  if s.spFull acc unit rc off n mask && !(s.lcore unit).ahead acc ((s.lcore unit).touched acc rc off mask n) then
    let raw := s.spBytes acc unit rc off n
    let raw := if acc then s.accFree c unit off n raw else raw
    let v := if z = 8 then blendBytes 256 mask old raw else scalarVal z raw
    let r := { r with val := v, pois := if s.spPois acc unit rc off n mask then some r.addr else none }
    let s := if keep then s else s.spDrain acc unit rc off n mask
    go s r false
  else
    let id := s.fresh
    let s := go s { r with noWin := true } true
    s.modLcore unit (fun c => { c with waits := c.waits ++ [⟨id, acc, off, n, rc.getD 4, keep, z, mask, old, s.cx.wbuf, s.cx.ckexp + s.cx.ckimp⟩] })

/-! ### Vector rows of memory (R115, R278) -/

/-- A row of a VM operand: logical core, offset, rotation code. A kept operation uses the address of its image (R37). -/
def State.vmRow (s : State) (acc : Bool) (a k : Nat) (w : Option MW) : Except Trap (Nat × Nat × Nat) :=
  let size := if acc then accSize else spSize
  match s.kept with
  | some im =>
    let ea := im.addr % 2 ^ 64
    match clusterAddr s.lc size ea 256 with
    | .error c => .error (trapAddress c ea)
    | .ok (u, o) => if o % 64 != 0 then .error (trapAlign ea) else .ok (u, o, im.addr / 2 ^ 64)
  | none =>
    let base := (s.rx a).toNat
    if acc && fld base 28 27 != 0 then .error (trapAddress 1 base)
    else tileRow s.lc size base (s.rx (a + 1)).toNat (memOff 6 k w) 256 64

/-- The address word of a resolved row, as images and records hold it. -/
def rowAddr (r : Nat × Nat × Nat) : Nat := r.2.2 * 2 ^ 64 + coreIn r.1 * 2 ^ 21 + r.2.1

/-! ### Engine control (R155) -/

/-- A resumed collective sends every part again, and waits for no participant it has heard (R434). -/
def collResume (aux : List Nat) : List Nat :=
  if aux.getD 2 0 < 2 then aux else setAt (setAt (setAt aux 2 2) 3 0) 4 0

/-- A command at its place of a queue, by its release (R155). -/
def queueBack (c : Cmd) : List Cmd → List Cmd
  | [] => [c]
  | d :: l => if c.rel < d.rel then c :: d :: l else d :: queueBack c l

/-- A parked command of kind `k` resumes: it returns to its place of its queue, which need have no room for it, with FAULT of its barrier
cleared (R155; DESIGN CHOICE, log 71). -/
def State.engResume (s : State) (task k : Nat) : State :=
  match (s.task task).parked.find? (fun t => t.1 == k) with
  | none => s
  | some (_, c) =>
    let s := s.modTask task (fun t => { t with parked := Tbl.del t.parked k })
    let s := if bit c.h.cmode 1 then
        match clusterAddr c.lcore spSize (c.stg.getD 15 0) 8 with
        | .ok (u, o) => s.barMod u o barClear
        | .error _ => s
      else s
    s.setQueue c.kind c.pcore
      (queueBack { c with fault := none, started := false, aux := if c.kind = 4 then collResume c.aux else c.aux } (s.queueOf c.kind c.pcore))

/-- A command ends without its arrival: its pin goes, its counter falls, its writes stand (R155, R178). -/
def State.engCancel (s : State) (task k : Nat) : State :=
  match (s.task task).parked.find? (fun t => t.1 == k) with
  | none => s
  | some (_, c) =>
    let s := (s.dropReady c.id).modTask task (fun t => { t with parked := Tbl.del t.parked k })
    let s := s.modCluster (clusterOf c.pcore) (fun x => { x with pins := x.pins.filter (fun p => p.cmd != c.id) })
    let s := if c.kind = 4 && c.aux.getD 5 0 = 1 then
        match clusterAddr c.lcore accSize (c.stg.getD 1 0 % 2 ^ 27) 1 with
        | .ok (u, _) => s.modLcore u (fun l => (l.closeDom (fld (c.stg.getD 4 0) 13 8) task true).2)
        | .error _ => s
      else s
    if bit c.h.cmode 0 then s.counterDown task c.h.cc c.capt else s

/-- A write of ENGCTL acts (R155). -/
def State.engCtl (s : State) (task v : Nat) : State :=
  if fld v 9 8 = 1 then s.engResume task (fld v 3 0) else if fld v 9 8 = 2 then s.engCancel task (fld v 3 0) else s

/-! ### Region transfers (R102 to R106) -/

/-- Addresses of n regions from `va`, one after the other. -/
def regionVas (va n : Nat) : List Nat := (List.range n).map (fun i => va + i * 2 ^ 21)

/-- The new entry of a region (R105 step 3). -/
def xferEntry (r : RegEnt) (newst task xb : Nat) : RegEnt :=
  if newst = 2 then { r with st := 2, owner := task, writer := xb % 2 ^ 16 }
  else { r with st := newst, owner := xb % 2 ^ 32, writer := 0 }

/-- Every region of the range rewritten, and the cached lines of it written back and dropped (R105). -/
def State.xferRegions (s : State) (va n newst xb : Nat) : State :=
  let d := dieOf s.lc
  (regionVas va n).foldl (fun s v =>
    match s.xlate s.xl s.asid v false with
    | .error _ => s
    | .ok ph => (s.setRegion ph.pa (xferEntry (s.region ph.pa) newst s.tid xb)).dropLines (ph.pa / 2 ^ 21 * 2 ^ 21) (2 ^ 21)) s

/-- A result of an irrevocable scalar operation. -/
def resX (d lat v addr : Nat) (remote : Bool) (area : Nat) : LoadRes := ⟨.x, d, lat, v, none, addr, 0, 3, remote, false, area⟩

/-- Whether accesses of the issuing context before a transfer of a context cycle and slot are still to be performed: its commands, loads of
global memory, ticketed parts for accumulator windows, and messages that have not been answered; those with numbers from `n` come after it (R105). -/
def State.xferWaits (s : State) (iss slot n : Nat) : Bool :=
  !(s.cmdsOf s.tid).isEmpty || s.ar.loads.any (fun q => 2 ≤ q.area && (q.waits || q.cyc ≤ s.ar.scyc) && before q.iss q.slot iss slot)
    || s.cx.frameLoads.any (fun q => 2 ≤ q.area)
    || s.farOpen (fun k => (k.m.kind == 1 || k.m.kind == 3 || k.m.kind == 5 || k.m.kind == 7) && k.num < n)
    || s.parts.any (fun p => p.task == s.tid && p.cmd == 0 && bit p.addr 63 && p.id < n)

/-- What an accumulator operand's access is, in memory of the cluster or at a global address (R326). -/
def AccTgt.area (t : AccTgt) : Nat := if t.g then 3 else 1

/-! ### Tokens (R427 to R430) -/

/-- TOKACQ goes on from region i: it sends the request of the first region that the die does not hold, or ends. `vals`
holds xd, va, n, moved, i, and 1 where the grant of region i was refused. -/
def State.tokNext (s : State) (slot : Nat) : Nat → List Nat → Perf
  | 0, _ => .done s
  | f + 1, vals =>
    let d := vals.getD 0 0
    let va := vals.getD 1 0
    let n := vals.getD 2 0
    let moved := vals.getD 3 0
    let i := vals.getD 4 0
    let die := dieOf s.lc
    if vals.getD 5 0 = 1 then .done (s.loadBoth slot (resX d s.glat (moved * 2 ^ 32 + 2) va true 0) false)
    else if n ≤ i then .done (s.loadBoth slot (resX d s.glat (moved * 2 ^ 32) va true 0) false)
    else
      match s.xlate s.xl s.asid (va + i * 2 ^ 21) false with
      | .error _ => .done (s.loadBoth slot (resX d s.glat (moved * 2 ^ 32 + 2) va true 0) false)
      | .ok ph =>
        if s.holdsToken die ph.pa then s.tokNext slot f [d, va, n, moved, i + 1]
        else .hold (s.sendHome die 14 (ph.pa / 2 ^ 21 * 2 ^ 21) 0 [s.tid + s.asid * 2 ^ 32] s.me) [d, va, n, moved, i] 0

/-- Whether an access of the issuing die to one of the regions has no answer, whoever made it, but for the issuing context's own from number
`n` on (R345). -/
def State.tokensUsed (s : State) (vas : List Nat) (n : Nat) : Bool :=
  vas.any (fun v => match s.xlate s.xl s.asid v false with
    | .ok ph =>
      let x := s.die (dieOf s.lc)
      ({ x with copies := x.copies.filter (fun k => k.task != s.tid || k.num < n) } : Die).tokenUsed ph.pa
    | .error _ => false)

/-- Whether what comes before a transfer of regions is still to be performed; its last operand numbers the messages behind it. -/
def State.transferWaits (s : State) (slot : Nat) (vals : List Nat) (n : Nat) : Bool :=
  s.xferWaits s.ar.scyc slot (vals.getD 2 s.fresh) || s.tokensUsed (regionVas (vals.getD 0 0) n) (vals.getD 2 s.fresh)

/-- TOKREL of each region that the die holds for the task (R430): number moved and state. -/
def State.tokRelease (s : State) : List Nat → Nat × State
  | [] => (0, s)
  | v :: vs =>
    let die := dieOf s.lc
    match s.xlate s.xl s.asid v false with
    | .error _ => s.tokRelease vs
    | .ok ph =>
      let r := s.region ph.pa
      if s.holdsToken die ph.pa && r.owner = s.tid then
        let base := ph.pa / 2 ^ 21 * 2 ^ 21
        let s := (s.dropLines base (2 ^ 21)).sendHome die 17 base 0 [s.tid + s.asid * 2 ^ 32] s.me
        let (n, t) := (s.setRegion ph.pa { r with st := 0, tokpkg := 0, tokdie := 0 }).tokRelease vs
        (n + 1, t)
      else s.tokRelease vs

/-! ### Withheld stores (R395) -/

/-- Entries that are releases (R345). -/
def WEnt.releases (e : WEnt) : Bool := e.kind == .strong || e.kind == .fe || e.kind == .barinit

/-- Whether a scratchpad or accumulator access of the issuing context before a context cycle and slot is unperformed: a load whose data is still to
come, of an interrupted task as well, a ticketed part on its way, or a message to an accumulator window (R347, R350). -/
def State.openBefore (s : State) (iss slot : Nat) : Bool :=
  s.ar.loads.any (fun q => q.area % 2 == 1 && (q.waits || q.cyc ≤ s.ar.scyc) && before q.iss q.slot iss slot)
    || s.cx.frameLoads.any (fun q => q.area % 2 == 1) || s.farAcc || s.farOpen (fun k => k.m.kind == 5)
    || s.parts.any (fun p => p.task == s.tid && p.cmd == 0 && before p.iss p.slot iss slot)

/-- Withheld stores are performed in program order, matrix results between them where R300 orders so, up to a release that waits for earlier
accesses (R347); `rest` stay withheld; whether one waits. -/
def State.performSome (s : State) (rest : List WEnt) : List WEnt → State × Bool
  | [] => (s.modCx (fun k => { k with wbuf := rest }), false)
  | e :: es =>
    if e.releases && s.openBefore e.iss e.slot then (s.modCx (fun k => { k with wbuf := e :: es ++ rest }), true)
    else ((s.resultsBefore e).performStore e).performSome rest es

/-- All of them, as a save performs them (R410). -/
def State.performAll (s : State) : State :=
  (s.cx.wbuf.foldl (fun s e => (s.resultsBefore e).performStore e) s).modCx (fun k => { k with wbuf := [] })

/-- Operations whose commit is a release of R345. -/
def CommitOp.releases (o : CommitOp) : Bool :=
  match o.i with
  | .bararr .. | .aadd .. | .amin .. | .amax .. | .axchg .. | .acas .. | .vaadd .. | .vamin .. | .vamax .. | .vaxchg ..
  | .tdec .. => true
  | _ => false

def CommitOp.fences (o : CommitOp) : Bool :=
  match o.i with
  | .fenceL | .fenceE => true
  | _ => false

/-- What a commit does first: its withheld stores, but for the last `n`. -/
def withheldOp (n : Nat) : CommitOp := ⟨9, .fenceL, [n], 0, none⟩

/-- A fence at its commit, or withheld stores alone: the stores are performed; a fence holds its context until what it orders has been
performed (R135, R350). -/
def State.perfFence (s : State) (o : CommitOp) : Perf :=
  let n := s.cx.wbuf.length - o.vals.getD 0 0
  let (s, wait) := s.performSome (s.cx.wbuf.drop n) (s.cx.wbuf.take n)
  if wait || (o.slot != 9 && s.openBefore s.ar.scyc o.slot) then .hold s o.vals 0 else .done s

/-- Whether what a held commit waits for is still to be performed: what a release among the withheld stores, a fence or a releasing operation has
before it. -/
def State.holdOpen (s : State) (h : Hold) : Bool :=
  (match h.i, s.cx.wbuf with
   | .fenceL, e :: _ | .fenceE, e :: _ => e.releases && s.openBefore e.iss e.slot
   | _, _ => false) || (h.slot != 9 && s.openBefore s.ar.scyc h.slot)

/-! ### Step 4 -/

/-- The request of an atomic on one element leaves for its home, under the next number (R426). -/
def State.sendAtom (s : State) (pa op typ b x : Nat) : State :=
  (s.sendHome (dieOf s.lc) 7 pa 0 [b, x, op + typ * 16 + s.asid * 64] { s.me with ref := s.fresh }).bump

/-- An integer atomic at its commit (R334): operands [address, operand, comparand], and of one that a message performs the poison of its
element and its old value. -/
def State.perfAtom (s : State) (o : CommitOp) (d op typ : Nat) : Perf :=
  let ea := o.vals.getD 0 0
  let b := o.vals.getD 1 0
  let x := o.vals.getD 2 0
  let w := if 2 ≤ typ then 64 else 32
  let uns := typ % 2 == 1
  let stop (t : Trap) : Perf := .trap s { o with vals := [ea, b, x] } { t with post := true, slot := o.slot, pc := some s.bun.pc }
  let give (s : State) (lat old : Nat) (g : Bool) : Perf :=
    .done (s.loadBoth o.slot { resX d lat (atomOld w uns old) ea g (if g then 3 else 1) with size := if w = 64 then 3 else 2 } false)
  match o.vals[3]?, o.vals[4]? with
  | some pois, some old => if pois = 1 then stop (trapPoison ea) else give s s.glat old true
  | _, _ =>
    match s.accOperand ea (w / 8) with
    | .error t => stop t
    | .ok t =>
      match s.wayTo t with
      | some pa => .hold (s.sendAtom pa op typ b x) [ea, b, x] s.fresh
      | none =>
        match (s.lcore t.unit).atom t.off op w uns b x with
        | none => stop (trapPoison ea)
        | some (old, c) => give (s.setLcore t.unit c) (s.accLat t) old t.g

/-- How lanes of a vector atomic end, with the old values so far: all performed, one that stops, or one that a message performs. -/
inductive LaneEnd where
  | all (old : Nat) (s : State)
  | stop (i : Nat) (t : Trap) (old : Nat) (s : State)
  | away (i pa old : Nat) (s : State)

/-- Lanes of a vector atomic in ascending order; `mis` says that the stride of its row is misaligned, which is the last check of a lane (R314,
R335). -/
def State.atomLanes (s : State) (ea op : Nat) (uns mis : Bool) (p src : Nat) : List Nat → Nat → LaneEnd
  | [], old => .all old s
  | i :: is, old =>
    if !act p 32 i then s.atomLanes ea op uns mis p src is old
    else
      match s.laneTarget p ea i with
      | .error t => .stop i t old s
      | .ok t =>
        if mis then .stop i (trapAlign ea) old s else
        match s.wayTo t with
        | some pa => .away i pa old s
        | none =>
          match (s.lcore t.unit).atom t.off op 32 uns (el 32 src i) 0 with
          | none => .stop i (trapPoison (ea + 4 * i)) old s
          | some (v, c) => (s.setLcore t.unit c).atomLanes ea op uns mis p src is (setFld old (32 * i + 31) (32 * i) v)

/-- VR takes the old values of the lanes that were performed, as a trap at a later one is taken (R336). -/
def Arch.takeOld (a : Arch) (slot pc vr old : Nat) : Arch :=
  { a with vst := Tbl.put a.vst vr 1 }.landReg ⟨a.scyc, a.scyc, slot, pc, .v, vr, old, none⟩

/-- A vector atomic at its commit (R335, R336): operands [row address, predicate, source, old VR], and of one with a lane that a message
performs that lane, the poison of its element and its old value. -/
def State.perfVatom (s : State) (o : CommitOp) (op vr ret : Nat) (uns : Bool) : Perf :=
  let ad := o.vals.getD 0 0
  let ea := ad % 2 ^ 64
  let mis := ad / 2 ^ 64 != 0
  let p := o.vals.getD 1 0
  let src := o.vals.getD 2 0
  let old := o.vals.getD 3 0
  let rest (n : Nat) : List Nat := (List.range 64).filter (fun i => n ≤ i)
  let r : LaneEnd := match o.vals[4]?, o.vals[5]?, o.vals[6]? with
    | some i, some pois, some v =>
      if pois = 1 then .stop i (trapPoison (ea + 4 * i)) old s
      else s.atomLanes ea op uns mis p src (rest (i + 1)) (setFld old (32 * i + 31) (32 * i) v)
    | _, _, _ => s.atomLanes ea op uns mis p src (rest o.lane) old
  match r with
  | .stop i t got s =>
    let s := if ret = 1 then s.asyncWrite s.cur s.ctx (fun a => a.takeOld o.slot s.bun.pc vr got) else s
    .trap s { o with lane := i, vals := [ad, p, src, got] } { t with post := true, rlane := i, slot := o.slot, pc := some s.bun.pc }
  | .away i pa got s => .hold (s.sendAtom pa op (b2n uns) (el 32 src i) 0) [ad, p, src, got, i] s.fresh
  | .all got s =>
    if ret = 1 then
      let lat := match s.accOperand ea 4 with
        | .ok t => s.accLat t
        | .error _ => s.glat
      .done (s.loadBoth o.slot ⟨.v, vr, lat, got, none, ea, 0, 8, bit ea 63, false, if bit ea 63 then 3 else 1⟩ false)
    else .done s

/-- An XFER at its commit (R105): it holds its context until what comes before it is performed, and
the writes that the die owes to the regions (R394). -/
def State.perfXfer (s : State) (o : CommitOp) (n newst : Nat) : Perf :=
  if s.transferWaits o.slot o.vals n then .hold s o.vals 0
  else .done (s.xferRegions (o.vals.getD 0 0) n newst (o.vals.getD 1 0))

/-- One operation of step 4 of a commit is performed (R395, R399, R407); a release waits for accumulator accesses in the fabric (R347). -/
def State.performOp (s : State) (o : CommitOp) : Perf :=
  match o.cmd with
  | some c => .done (s.release c)
  | none =>
    if o.releases && s.openBefore s.ar.scyc o.slot then .hold s o.vals 0 else
    match o.i with
    | .fenceL | .fenceE => s.perfFence o
    | .movd _ _ => .done (s.engCtl s.tid (o.vals.getD 0 0))
    | .gleave n => .done (s.leaveGroup s.tid n)
    | .bararr d _ n =>
      match spScalar s.lc (o.vals.getD 0 0) 8 8 with
      | .error t => .trap s o { t with post := true, slot := o.slot, pc := some s.bun.pc }
      | .ok (u, off) =>
        let old := (s.lcore u).readN .sp none off 8
        .done ((s.barMod u off (fun w => barArrive w 1 n)).loadBoth o.slot
          (resX d (if u = s.lc then 10 else 32) old (o.vals.getD 0 0) false 1) false)
    | .ldl z d _ _ _ =>
      match spScalar s.lc (o.vals.getD 0 0) (sizeOf z) (sizeOf z) with
      | .error t => .trap s o { t with post := true, slot := o.slot, pc := some s.bun.pc }
      | .ok (u, off) =>
        .done (s.feLoad s.ar.scyc false u none off z 0 0 false
          { resX d (if u = s.lc then 10 else 32) 0 (o.vals.getD 0 0) false 1 with qual := 2, size := z % 4 }
          (fun s r w => s.loadBoth o.slot r w))
    | .vld d .. =>
      let ad := o.vals.getD 0 0
      let u := clusterOf s.lc * 24 + fld ad 25 21
      .done (s.feLoad s.ar.scyc false u (some (ad / 2 ^ 64)) (fld ad 20 0) 8 (o.vals.getD 1 0) (o.vals.getD 2 0) false
        ⟨.v, d, if u = s.lc then 10 else 32, 0, none, ad % 2 ^ 64, 2, 8, false, false, 1⟩ (fun s r w => s.loadBoth o.slot r w))
    | .vlda d .. =>
      let ad := o.vals.getD 0 0
      let u := clusterOf s.lc * 24 + fld ad 25 21
      .done (s.feLoad s.ar.scyc true u none (fld ad 20 0) 8 (o.vals.getD 1 0) (o.vals.getD 2 0) false
        ⟨.v, d, if u = s.lc then 12 else 32, 0, none, ad % 2 ^ 64, 2, 8, false, false, 1⟩ (fun s r w => s.loadBoth o.slot r w))
    | .aadd d _ _ t => s.perfAtom o d 0 t
    | .amin d _ _ t => s.perfAtom o d 1 t
    | .amax d _ _ t => s.perfAtom o d 2 t
    | .axchg d _ _ t => s.perfAtom o d 3 t
    | .acas d _ _ _ t => s.perfAtom o d 4 t
    | .vaadd _ _ _ _ vr r u => s.perfVatom o 0 vr r (u == 1)
    | .vamin _ _ _ _ vr r u => s.perfVatom o 1 vr r (u == 1)
    | .vamax _ _ _ _ vr r u => s.perfVatom o 2 vr r (u == 1)
    | .vaxchg _ _ _ _ vr r u => s.perfVatom o 3 vr r (u == 1)
    | .tdec d _ n =>
      let id := o.vals.getD 0 0
      let ((st, dep), s) := s.decTask (dieOf s.lc) id n
      .done (s.loadBoth o.slot (resX d s.glat (dep * 2 ^ 32 + st) id true 0) false)
    | .xferOwned _ _ n1 => s.perfXfer o (n1 + 1) 0
    | .xferShared _ _ n1 => s.perfXfer o (n1 + 1) 1
    | .xferEngine _ _ n1 => s.perfXfer o (n1 + 1) 2
    | .tokacq d _ _ =>
      let vals := if o.vals.length = 2 then [d, o.vals.getD 0 0, o.vals.getD 1 0, 0, 0] else o.vals
      let n := vals.getD 2 0
      if n = 0 || 64 < n then .done (s.loadBoth o.slot (resX d s.glat 3 (vals.getD 1 0) true 0) false)
      else if s.farOpen (fun k => k.m.kind == 3) then .hold s vals 0
      else s.tokNext o.slot (n + 1) vals
    | .tokrel d _ _ =>
      let n := o.vals.getD 1 0
      if n = 0 || 64 < n then .done (s.loadBoth o.slot (resX d s.glat 3 (o.vals.getD 0 0) true 0) false)
      else if s.transferWaits o.slot o.vals n then .hold s o.vals 0
      else
        let (m, s) := s.tokRelease (regionVas (o.vals.getD 0 0) n)
        .done (s.loadBoth o.slot (resX d s.glat (m * 2 ^ 32) (o.vals.getD 0 0) true 0) false)
    | _ => .done s

/-- The operations of step 4 in slot order. One that fails is kept with those behind it, and its trap is taken (R407); one
that holds the context keeps those behind it (R106). -/
def State.runOps (s : State) : List CommitOp → State
  | [] => s
  | o :: os =>
    match s.performOp o with
    | .done s => s.runOps os
    | .trap s o t => (s.performAll.modCx (fun k => { k with post := o :: os.filter (fun o => !o.fences) })).takeTrap t
    | .hold s vals ref => s.modCx (fun k => { k with hold := some ⟨o.slot, o.i, vals, os, s.bun.pc, s.bun.after, ref, o.lane⟩ })

end Sys2Proof.Machine
end

