-- ==== Sys2Proof/Machine/Engine.lean ====
section
/-! DEFINITION. Engine commands: their capture with its checks (R137, R147, R179, R186, R188, R190, R205, R432, R436), and the
memory accesses of a running one (R83, R86, R91, R143, R149, R153). -/

namespace Sys2Proof.Machine

/-! ### Staging sets -/

/-- The sixteen registers of a staging set. -/
def Arch.stgSet (a : Arch) (kind set : Nat) : List Nat := (List.range 16).map (fun i => (a.getStg (stgNum kind set i)).toNat)

/-- A set whose address fields advance by a step (R141): DST of COLL as the accumulator address of bits 26:0 that it is (DESIGN CHOICE,
log 64). -/
def stepStg (kind op : Nat) (step : Int) (stg : List Nat) : List Nat :=
  let adv (bits : Nat) (w : Nat) : Nat := w / 2 ^ bits * 2 ^ bits + modI bits ((w % 2 ^ bits : Nat) + step)
  stg.zipIdx.map (fun t =>
    if (kind = 0 || kind = 2) && t.2 ≤ 1 then adv 57 t.1
    else if kind = 1 && op = 0 && (t.2 = 1 || t.2 = 2) then adv 57 t.1
    else if kind = 1 && op = 1 && t.2 ≤ 1 then adv 57 t.1
    else if kind = 4 && t.2 = 0 then adv 57 t.1
    else if kind = 4 && t.2 = 1 then adv 27 t.1
    else if kind = 5 && t.2 = 0 then adv 27 t.1
    else t.1)

/-- Step register of slot k (R37). -/
def stepSr (k : Nat) : Nat := 0x018 + k

/-- The staging set that the issuing operation captures: the kind's set as visible, or the image's, stepped (R37, R137). -/
def State.captureStg (s : State) (kind op set : Nat) : List Nat :=
  match s.kept with
  | some im => stepStg kind op (sextI 32 (s.ar.getSr (stepSr s.slot)).toNat) im.stg
  | none => s.ar.stgSet kind set

/-! ### Field checks. Each answers whether staging index i fails. -/

/-- A COPY SRC or DST word of an allowed space (R145, R313). -/
def addrWordBad (w : Nat) (spaces : List Nat) : Bool :=
  !spaces.contains (fld w 63 62) || fld w 59 57 != 0 || (fld w 63 62 == 2 && (fld w 61 60 != 0 || fld w 56 27 != 0))

/-- Lowest and one past the highest byte of the rows at a stride, relative to row 0; none without a row (R152). -/
def hull (stride : Int) (len : Nat) : List Nat → Option (Int × Int)
  | [] => none
  | r :: rs =>
    let a := (r : Int) * stride
    match hull stride len rs with
    | none => some (a, a + len)
    | some (lo, hi) => some (min lo a, max hi (a + len))

/-- The first and the last of `n` rows. -/
def endRows (n : Nat) : List Nat := if n = 0 then [] else [0, n - 1]

/-- Data rectangle of a COPY: rows and bytes (R148). -/
def copyRect (stg : List Nat) : Nat × Nat :=
  let rows := fld (stg.getD 2 0) 44 32
  let rowb := fld (stg.getD 2 0) 20 0
  let es := 2 ^ fld (stg.getD 5 0) 5 4
  if bit (stg.getD 5 0) 0 then (rowb / es, rows * es) else (rows, rowb)

/-- A permutation entry (R204). -/
def LCore.permEnt (c : LCore) (k : Nat) : Nat := Tbl.get 0x8000 c.perm (k % 4096)

/-- Rows that `n` permutation entries from `base` name, but for pad entries (R148, R208). -/
def LCore.permRows (c : LCore) (base n : Nat) : List Nat :=
  ((List.range n).map (fun k => c.permEnt (base + k))).filterMap (fun e => if fld e 15 15 = 0 then some (e % 4096) else none)

/-- The hull of two hulls. -/
def hullJoin : Option (Int × Int) → Option (Int × Int) → Option (Int × Int)
  | some a, some b => some (min a.1 b.1, max a.2 b.2)
  | some a, none => some a
  | none, b => b

/-- The hull of the destination of a COPY: a scatter writes the rows that its entries name, PAD its rectangle, beyond which a scattered row
keeps the width of the data (R147, R152). -/
def State.copySpan (s : State) (stg : List Nat) : Option (Int × Int) :=
  let (r, w) := copyRect stg
  let mode := stg.getD 5 0
  let rows := if bit mode 1 && bit mode 6 then (s.lcore s.lc).permRows (stg.getD 8 0) r else endRows r
  let dstr := sextI 64 (stg.getD 4 0)
  hullJoin (hull dstr w rows) (if bit mode 2 then hull dstr (fld (stg.getD 6 0) 20 0) (endRows (fld (stg.getD 6 0) 44 32)) else none)

/-- The hull of the source of a COPY: a gather reads the rows that its entries name (R148, R152, log 70). -/
def State.copySource (s : State) (stg : List Nat) : Option (Int × Int) :=
  let mode := stg.getD 5 0
  let n := fld (stg.getD 2 0) 44 32
  hull (sextI 64 (stg.getD 3 0)) (fld (stg.getD 2 0) 20 0)
    (if bit mode 1 && !bit mode 6 then (s.lcore s.lc).permRows (stg.getD 8 0) n else endRows n)

def s64 (w : Nat) : Int := sextI 64 w

/-- The group of a membership slot as a command captures it. -/
def State.slotGroup (s : State) (n : Nat) : Option Nat := s.myTask.slotGid n

/-- A BAR word whose bits above the address are not zero (R145). -/
def barBad (w : Nat) : Bool := fld w 63 27 != 0

/-- R147, index by index: a condition that spans registers fails at the lowest of them. A reserved element size gives no data rectangle: it
fails at its own index alone. DST of an instruction bank has bits 56:18 zero (DESIGN CHOICE, log 72). -/
def State.copyBad (s : State) (stg : List Nat) (i : Nat) : Bool :=
  let w (k : Nat) := stg.getD k 0
  let mode := w 5
  let tr := bit mode 0
  let perm := bit mode 1
  let pad := bit mode 2
  let mc := bit mode 3
  let rows := fld (w 2) 44 32
  let rowb := fld (w 2) 20 0
  let es := 2 ^ fld mode 5 4
  let (dr, dw) := copyRect stg
  let sized := !tr || fld mode 5 4 != 3
  let sp := fld (w 1) 63 62
  let off : Int := (if sp = 3 then fld (w 1) 16 0 else fld (w 1) 20 0 : Nat)
  match i with
  | 0 => addrWordBad (w 0) [0, 1, 2] || (sp == 3 && fld (w 0) 63 62 == 2)
  | 1 => addrWordBad (w 1) [0, 1, 2, 3] || (mc && sp != 1)
      || (sp == 3 && (mode != 0 || rowb % 4 != 0 || s64 (w 4) % 4 != 0 || off % 4 != 0 || fld (w 1) 56 18 != 0))
      || (sized && (sp == 1 || sp == 3) && (match s.copySpan stg with
        | none => false
        | some (lo, hi) => off + lo < 0 || (if sp = 1 then (spSize : Int) else 0x1_8000) < off + hi))
  | 2 => fld (w 2) 63 45 != 0 || fld (w 2) 31 21 != 0 || rows == 0 || 4096 < rows || rowb == 0 || 2 ^ 24 < rows * rowb
      || (tr && sized && (rowb % es != 0 || 4096 < rowb / es))
      || (pad && sized && (fld (w 6) 44 32 < dr || fld (w 6) 20 0 < dw))
  | 5 => fld mode 63 7 != 0 || fld mode 5 4 == 3 || (tr && perm)
      || (pad && (fld (w 6) 44 32 == 0 || 4096 < fld (w 6) 44 32 || fld (w 6) 20 0 == 0 || 2 ^ 24 < fld (w 6) 44 32 * fld (w 6) 20 0))
      || (mc && bit (w 9) 63 && (match s.slotGroup (fld (w 9) 1 0) with
          | none => true
          | some g => !(s.group (dieOf s.lc) g).mcast))
  | 6 => fld (w 6) 63 45 != 0 || fld (w 6) 31 21 != 0
  | 7 => fld (w 7) 63 32 != 0
  | 8 => fld (w 8) 63 12 != 0
  | 9 => if bit (w 9) 63 then fld (w 9) 62 2 != 0 else fld (w 9) 62 24 != 0
  | 10 => fld (w 10) 63 57 != 0
  | 11 => fld (w 11) 63 32 != 0
  | 12 | 13 | 14 => w i != 0
  | 15 => barBad (w 15)
  | _ => false

/-- Whether the last row of a destination starts beyond its scratchpad (R179). -/
def rowStartBad (w rows stride : Nat) : Bool := spSize ≤ fld w 20 0 + (rows - 1) * stride

/-- R179, R188, R190. -/
def gatherBad (op : Nat) (stg : List Nat) (i : Nat) : Bool :=
  let w (k : Nat) := stg.getD k 0
  let addr (al : Nat) (x : Nat) : Bool := fld x 63 57 != 0 || x % al != 0
  if op = 0 then
    let n := fld (w 3) 63 32
    let rows := (fld (w 4) 15 12 + 1) * n
    match i with
    | 0 => addr 256 (w 0)
    | 1 => addrWordBad (w 1) [1] || rowStartBad (w 1) rows (fld (w 5) 20 0)
    | 2 => addrWordBad (w 2) [1] || rowStartBad (w 2) rows (fld (w 6) 20 0)
    | 3 => n == 0 || 4096 < n
    | 4 => fld (w 4) 63 20 != 0 || fld (w 4) 17 16 == 3 || (bit (w 4) 18 && bit (w 4) 19)
    | 5 | 6 => fld (w i) 63 21 != 0 || w i % 64 != 0
    | 15 => barBad (w 15)
    | _ => w i != 0
  else if op = 1 then
    match i with
    | 0 | 1 => addrWordBad (w i) [1]
    | 2 => fld (w 2) 63 13 != 0 || w 2 == 0 || 4096 < w 2
    | 3 => fld (w 3) 63 21 != 0 || w 3 % 64 != 0
    | 4 => fld (w 4) 63 16 != 0
    | 15 => barBad (w 15)
    | _ => w i != 0
  else
    match i with
    | 0 => addr 256 (w 0)
    | 1 => addr 8 (w 1)
    | 3 => fld (w 3) 63 32 != 0
    | 15 => barBad (w 15)
    | _ => w i != 0

/-- R205. -/
def State.sieveBad (s : State) (op : Nat) (stg : List Nat) (i : Nat) : Bool :=
  let w (k : Nat) := stg.getD k 0
  let rowb := fld (w 2) 20 0
  match i with
  | 0 => addrWordBad (w 0) (if op = 0 then [0, 1] else [1, 2])
  | 1 => addrWordBad (w 1) (if op = 0 then [1] else [0, 1, 2])
      || (op == 0 && fld (w 1) 26 26 == 0 && fld (w 1) 25 21 != coreIn s.lc)
      || (op == 1 && bit (w 5) 0 && fld (w 1) 63 62 != 2)
  | 2 => rowb == 0 || 65536 < rowb ||
      (if op = 0 then fld (w 2) 63 36 != 0 || fld (w 2) 31 21 != 0 || 12 < fld (w 2) 35 32
       else fld (w 2) 63 45 != 0 || fld (w 2) 31 21 != 0 || 4096 < fld (w 2) 44 32 || (bit (w 5) 0 && rowb % 4 != 0))
  | 3 | 4 => false
  | 5 => if op = 0 then fld (w 5) 63 27 != 0 || w 5 % 64 != 0 else fld (w 5) 63 2 != 0
  | 6 => if op = 0 then fld (w 6) 63 25 != 0 else w 6 != 0
  | 7 => fld (w 7) 63 12 != 0
  | 8 => if op = 0 then fld (w 8) 63 27 != 0 || w 8 % 8 != 0 else w 8 != 0
  | 9 => if op = 0 then fld (w 9) 63 1 != 0 else w 9 != 0
  | 10 => fld (w 10) 63 57 != 0
  | 11 => fld (w 11) 63 32 != 0
  | 15 => barBad (w 15)
  | _ => w i != 0

/-- R186. -/
def fillBad (stg : List Nat) (i : Nat) : Bool :=
  let w (k : Nat) := stg.getD k 0
  let mode := fld (w 3) 9 8
  match i with
  | 0 => fld (w 0) 63 57 != 0 || w 0 % 256 != 0
  | 1 => fld (w 1) 63 57 != 0 || w 1 % 8 != 0
  | 2 => if mode = 0 then fld (w 2) 63 32 == 0 || 65535 < fld (w 2) 63 32 else fld (w 2) 63 32 != 1
  | 3 => fld (w 3) 63 10 != 0
  | 4 => fld (w 4) 63 32 != 0
  | 15 => barBad (w 15)
  | _ => w i != 0

/-- R432. -/
def collBad (stg : List Nat) (i : Nat) : Bool :=
  let w (k : Nat) := stg.getD k 0
  let rows := fld (w 3) 44 32
  match i with
  | 0 => addrWordBad (w 0) [0, 1, 2]
  | 1 => addrWordBad (w 1) [2] || fld (w 1) 61 57 != 0 || accSize < fld (w 1) 20 0 + 256 * rows
  | 2 => fld (w 2) 63 57 != 0 || w 2 % 8 != 0
  | 3 => fld (w 3) 63 45 != 0 || fld (w 3) 31 16 != 0 || rows == 0 || 2048 < rows || fld (w 3) 7 0 < fld (w 3) 15 8
  | 4 => fld (w 4) 63 14 != 0 || fld (w 4) 7 5 != 0 || fld (w 4) 1 0 != 0 || fld (w 4) 3 2 == 3
  | 15 => barBad (w 15)
  | _ => w i != 0

/-- R436. -/
def noteBad (stg : List Nat) (i : Nat) : Bool :=
  let w (k : Nat) := stg.getD k 0
  let mode := fld (w 5) 9 8
  match i with
  | 0 => fld (w 0) 63 27 != 0
  | 1 => fld (w 1) 63 27 != 0 || (mode == 1 && w 1 % 64 != 0)
  | 2 => fld (w 2) 63 13 != 0 || (mode == 0 && (w 2 == 0 || 4096 < w 2))
  | 3 => fld (w 3) 63 16 != 0 || fld (w 3) 7 3 != 0
  | 4 => fld (w 4) 31 16 != 0
  | 5 => fld (w 5) 63 10 != 0
  | 15 => barBad (w 15)
  | _ => w i != 0

def State.cfgBad (s : State) (kind op : Nat) (stg : List Nat) (i : Nat) : Bool :=
  match kind with
  | 0 => s.copyBad stg i
  | 1 => gatherBad op stg i
  | 2 => s.sieveBad op stg i
  | 3 => fillBad stg i
  | 4 => collBad stg i
  | _ => noteBad stg i

/-! ### Hulls (R152, R205) -/

/-- The core that a scratchpad or accumulator address names, SELF resolved. -/
def coreNamed (lc w : Nat) : Nat := if fld w 26 26 = 1 then coreIn lc else fld w 25 21

/-- Logical cores of the issuing cluster on which members of a group are placed (R150). -/
def State.groupCores (s : State) (lc gid : Nat) : List Nat :=
  (List.range 24).filter (fun k => (s.die (dieOf lc)).tasks.any (fun t =>
    t.2.lcore == clusterOf lc * 24 + k && (List.range 4).any (fun n => t.2.slotGid n == some gid)))

/-- Destination cores of a multicast. -/
def State.mcastCores (s : State) (lc gid : Nat) (w : Nat) : List Nat :=
  if bit w 63 then s.groupCores lc gid else (List.range 24).filter (fun k => bit w k)

/-- An in-place square transpose (R152). -/
def inPlace (stg : List Nat) : Bool :=
  let w (k : Nat) := stg.getD k 0
  let es := 2 ^ fld (w 5) 5 4
  w 0 == w 1 && setFld (w 5) 5 4 0 == 1 && w 3 == w 4 && fld (w 2) 44 32 == fld (w 2) 20 0 / es && fld (w 2) 44 32 ≤ 64

/-- Whether the hulls of source and destination overlap. -/
def State.hullsMeet (s : State) (stg : List Nat) (src dst : Option (Int × Int)) (cores : Option (List Nat)) : Bool :=
  let w (k : Nat) := stg.getD k 0
  let base (x : Nat) : Int := (if fld x 63 62 = 0 then fld x 56 0 else fld x 20 0 : Nat)
  let same := fld (w 0) 63 62 == fld (w 1) 63 62 &&
    (fld (w 0) 63 62 == 0 || (match cores with
      | some l => l.contains (coreNamed s.lc (w 0))
      | none => coreNamed s.lc (w 0) == coreNamed s.lc (w 1)))
  match src, dst with
  | some (sl, sh), some (dl, dh) => same && base (w 0) + sl < base (w 1) + dh && base (w 1) + dl < base (w 0) + sh
  | _, _ => false

def State.overlapBad (s : State) (kind op gid : Nat) (stg : List Nat) : Bool :=
  let w (k : Nat) := stg.getD k 0
  if kind = 0 then
    (bit (w 5) 0 || bit (w 5) 1) && !inPlace stg &&
      s.hullsMeet stg (s.copySource stg) (s.copySpan stg) (if bit (w 5) 3 then some (s.mcastCores s.lc gid (w 9)) else none)
  else if kind = 2 && op = 1 then
    let n := if fld (w 2) 44 32 = 0 then (s.ar.getSr 0x003).toNat % 2 ^ 13 else fld (w 2) 44 32
    let rowb := fld (w 2) 20 0
    s.hullsMeet stg (hull (s64 (w 3)) rowb (endRows n)) (hull (s64 (w 4)) rowb ((s.lcore s.lc).permRows (w 7) n)) none
  else false

/-! ### Capture (R137) -/

/-- ENGINE with an inner cause (R154). -/
def trapEngine (kind code d0 d1 : Nat) : Trap := { cause := 13, d0 := d0, d1 := d1, d2 := kind * 16 + code }

/-- The group that a command names by a membership slot. -/
def State.cmdGid (s : State) (kind : Nat) (stg : List Nat) : Nat :=
  if kind = 0 && bit (stg.getD 9 0) 63 then (s.slotGroup (fld (stg.getD 9 0) 1 0)).getD 0 else 0

/-- Increments of a counter that have not landed. -/
def Arch.raising (a : Arch) (cc : Nat) : Nat := (a.inflight.filter (fun l => l.kind == .cc && l.num == cc)).length

/-- The checks of a capture in the order of R137. -/
def State.chkCmd (s : State) (i : Instr) : Chk :=
  match i.cmdOf with
  | none => .ok
  | some (kind, op, h) =>
    let stg := s.captureStg kind op h.set
    match (List.range 16).find? (fun k => s.cfgBad kind op stg k) with
    | some k => .trap (trapEngine kind 1 k (stg.getD k 0))
    | none =>
      match (if 2 ≤ h.cmode then (spScalar s.lc (stg.getD 15 0) 8 8).map (fun _ => ()) else .ok ()) with
      | .error t => .trap t
      | .ok _ =>
        if s.overlapBad kind op (s.cmdGid kind stg) stg then .trap { cause := 19, d1 := stg.getD 0 0, d2 := stg.getD 1 0 }
        else if h.cmode % 2 = 1 && 65535 ≤ (s.ar.getSr (0x010 + h.cc)).toNat + s.ar.raising h.cc + (s.bun.incs.filter (fun n => n == h.cc)).length then .trap (trapEngine kind 2 h.cc 0) else .ok

/-- Whether nothing fixes the order of a command's steps: a COPY but for a scatter, whose later rows overwrite earlier ones, and for one whose
source and destination overlap (R144, R148). -/
def State.looseCmd (s : State) (kind gid : Nat) (stg : List Nat) : Bool :=
  let mode := stg.getD 5 0
  kind = 0 && !inPlace stg && !(bit mode 1 && bit mode 6)
    && !s.hullsMeet stg (s.copySource stg) (s.copySpan stg) (if bit mode 3 then some (s.mcastCores s.lc gid (stg.getD 9 0)) else none)

/-- The command that an operation captures from a staging set. LRC.COUNT in place of an NROWS of 0 is not held to its range (DESIGN CHOICE,
log 72). -/
def State.mkCmd (s : State) (i : Instr) (stg : List Nat) : Option Cmd :=
  match i.cmdOf with
  | none => none
  | some (kind, op, h) =>
    let stg := if kind = 2 && op = 1 && fld (stg.getD 2 0) 44 32 = 0
      then setAt stg 2 (setFld (stg.getD 2 0) 44 32 ((s.ar.getSr 0x003).toNat % 2 ^ 13)) else stg
    some { id := s.fresh, kind := kind, op := op, h := h, stg := stg, pcore := s.cur, ctx := s.ctx, task := s.tid
           asid := s.asid, lcore := s.lc, swzoff := s.swzOff, aux := if kind = 4 then [0, (s.ar.getSr 0x00A).toNat] else [], gid := s.cmdGid kind stg, capt := s.cyc, released := 0, loose := s.looseCmd kind (s.cmdGid kind stg) stg
           unpred := ((s.core s.cur).matPend.filter (fun r => r.ctx == s.ctx && s.cyc ≤ r.cyc)).map (fun r => (r.lcore, r.tile, r.a.length)) }

/-- A command is captured: its counter rises with latency 1, and it waits for a commit (R137). -/
def State.capture (s : State) (i : Instr) : State :=
  match i.cmdOf with
  | none => s
  | some (kind, op, h) =>
    match s.mkCmd i (s.captureStg kind op h.set) with
    | none => s
    | some c =>
      let s := if h.cmode % 2 = 1 then s.out .cc h.cc 1 1 else s
      (s.modBun (fun b => { b with ops := b.ops ++ [⟨s.slot, i, [], 0, some c⟩] })).bump

/-! ### Accesses of a running command -/

/-- Why a command stops for a moment or for good. -/
inductive EErr where
  /-- An inner cause with detail words 0 and 1 (R154). -/
  | fault (code d0 d1 : Nat)
  /-- A translation fault: the request waits at its queue head (R83). -/
  | xl (code va : Nat) (write : Bool)
  /-- A line of another package that has not arrived. -/
  | far (pa : Nat)
  /-- It waits for a matrix result (R299), a BUSY entry or a pin (R175, R177). -/
  | hold
  /-- A gather raises a fill demand (R180). -/
  | demand (d : Demand)
deriving DecidableEq, Repr

abbrev ERes (α : Type) := Except EErr α

/-- `n` bytes as a number, with a bit for each poisoned one. -/
structure EData where
  n : Nat
  v : Nat
  p : Nat
deriving DecidableEq, Repr

def EData.join (a b : EData) : EData := ⟨a.n + b.n, a.v % 2 ^ (8 * a.n) + b.v * 2 ^ (8 * a.n), a.p % 2 ^ a.n + b.p * 2 ^ a.n⟩

/-- Bytes `i` to `i + n - 1`. -/
def EData.slice (d : EData) (i n : Nat) : EData := ⟨n, d.v / 2 ^ (8 * i) % 2 ^ (8 * n), d.p / 2 ^ i % 2 ^ n⟩

/-- The address of a byte of a staging word. -/
def wordEa (w : Nat) (off : Int) : Nat := modI 64 ((fld w 56 0 : Nat) + off)

/-- Whose TLBs an engine's accesses go through. -/
def Cmd.xl (c : Cmd) : Xl :=
  if c.kind = 0 || c.kind = 2 then .core c.pcore else if c.kind = 1 then .clus (clusterOf c.pcore) else .die (dieOf c.pcore)

/-- One access of an engine within a page: translation, then the region check (R83, R86). -/
def State.engPhys (s : State) (c : Cmd) (va : Nat) (write : Bool) : ERes Phys :=
  match s.xlate c.xl c.asid va write with
  | .error k => .error (.xl k va write)
  | .ok ph =>
    match s.regionCheck (dieOf c.lcore) ph c.task c.asid (.engine (selectorOf c.kind c.pcore)) write with
    | some k => .error (.fault 3 k va)
    | none => .ok ph

/-- Whether a command reads accumulator bytes before its context's own result has been written (R299). -/
def State.engHold (s : State) (c : Cmd) (unit off n : Nat) : Bool :=
  (s.core c.pcore).matPend.any (fun r => !r.written && r.ctx == c.ctx && (s.ctxAt c.pcore c.ctx).task == some c.task
    && r.cyc < c.capt && r.touches unit off n)

/-- Accumulator bytes that read unpredictable for a command are free values (R299, log 6). -/
def State.engFree (s : State) (c : Cmd) (unit off n v : Nat) : Nat :=
  if c.unpred.isEmpty then v
  else joinEl 8 ((List.range n).map (fun i =>
    if c.unpred.any (fun t => t.1 == unit && (List.range t.2.2).any (fun m => tileOff t.2.1 m ≤ off + i && off + i < tileOff t.2.1 m + 512))
    then (Config.freeByte s.free (off + i)).toNat else el 8 v i))

/-- A byte mask of the bytes `a`, …, `a + n - 1` that lie in poisoned granules. -/
def poisMask (f : Nat → Bool) (a n : Nat) : Nat := joinEl 1 ((List.range n).map (fun i => b2n (f (a + i))))

/-- Bytes of global memory within one page. -/
def State.engChunk (s : State) (c : Cmd) (va n : Nat) : ERes EData :=
  match s.engPhys c va false with
  | .error e => .error e
  | .ok ph =>
    let d := dieOf c.lcore
    let data : ERes EData :=
      if s.spanAtOnce d ph.pa n c.task c.rel then .ok ⟨n, s.readPAn ph.pa n, poisMask s.poisPA ph.pa n⟩
      else
        match (List.range (ceilDiv (ph.pa % 256 + n) 256)).find? (fun i => !s.lineHere d (cmdKey c.id) (ph.pa / 256 * 256 + 256 * i) c.task c.rel) with
        | some i => .error (.far (ph.pa / 256 * 256 + 256 * i))
        | none => .ok ⟨n, joinEl 8 ((List.range n).map (fun i => s.bytesHere d (cmdKey c.id) (ph.pa + i) c.task c.rel 1)),
            poisMask (fun a => s.poisHere d (cmdKey c.id) a c.task c.rel) ph.pa n⟩
    match s.isLocal d ph.pa, s.home ph.pa with
    | true, .acc u o => if s.engHold c u o n then .error .hold else data.map (fun x => { x with v := s.engFree c u o n x.v })
    | _, _ => data

/-- Global bytes, page by page. -/
def State.engGlob (s : State) (c : Cmd) : Nat → Nat → Nat → ERes EData
  | 0, _, _ => .ok ⟨0, 0, 0⟩
  | f + 1, va, n =>
    if n = 0 then .ok ⟨0, 0, 0⟩
    else
      let k := Nat.min n (2 ^ 16 - va % 2 ^ 16)
      match s.engChunk c va k with
      | .error e => .error e
      | .ok d =>
        match s.engGlob c f (va + k) (n - k) with
        | .error e => .error e
        | .ok r => .ok (d.join r)

def State.engReadVa (s : State) (c : Cmd) (va n : Nat) : ERes EData := s.engGlob c (n / 2 ^ 16 + 2) va n

/-- Bytes of a scratchpad under a rotation code, with the tag check (R109, R112, R113). -/
def State.engReadSp (s : State) (c : Cmd) (ea rc n : Nat) : ERes EData :=
  match clusterAddr c.lcore spSize ea n with
  | .error k => .error (.fault 4 k ea)
  | .ok (u, o) =>
    let l := s.lcore u
    match (if c.swzoff then none else l.tagFail rc o n) with
    | some k => .error (.fault 5 k ea)
    | none => .ok ⟨n, l.readN .sp (some rc) o n, poisMask (fun a => l.sp.isPois (l.place .sp (some rc) a)) o n⟩

/-- Bytes of accumulator memory. -/
def State.engReadAcc (s : State) (c : Cmd) (ea n : Nat) : ERes EData :=
  match clusterAddr c.lcore accSize ea n with
  | .error k => .error (.fault 4 k ea)
  | .ok (u, o) =>
    if s.engHold c u o n then .error .hold
    else .ok ⟨n, s.engFree c u o n ((s.lcore u).readN .acc none o n), poisMask (fun a => (s.lcore u).acc.isPois a) o n⟩

/-- Bytes at an offset of a source word. -/
def State.engRead (s : State) (c : Cmd) (w : Nat) (off : Int) (n : Nat) : ERes EData :=
  let ea := wordEa w off
  match fld w 63 62 with
  | 0 => s.engReadVa c ea n
  | 1 => s.engReadSp c ea (fld w 61 60) n
  | _ => s.engReadAcc c ea n

/-- A command as it sends (R440). -/
def Cmd.sender (c : Cmd) : Sender := { task := c.task, num := c.rel, req := cmdKey c.id }

/-- Whether everything the command sent has been answered (R422, R433). -/
def State.answered (s : State) (c : Cmd) : Bool :=
  s.parts.all (fun p => p.cmd != c.id) && (s.die (dieOf c.lcore)).copies.all (fun k => k.req != cmdKey c.id)

/-! ### Delivery -/

/-- The destination window (R149): low end and one past the high end, in the address form of the space; none for no window. -/
def Cmd.window (c : Cmd) : Option (Nat × Nat) :=
  let n := fld (c.stg.getD 11 0) 31 0
  if (c.kind = 0 || c.kind = 2) && n != 0 then some (c.stg.getD 10 0 % 2 ^ 57, c.stg.getD 10 0 % 2 ^ 57 + n) else none

/-- First byte and number of bytes of [a, a + n) within [lo, hi). -/
def clipTo (lo hi a n : Nat) : Nat × Nat :=
  let b := Nat.max a lo
  let e := Nat.min (a + n) hi
  if b < e then (b - a, e - b) else (0, 0)

/-- An address of a scratchpad or accumulator window with SELF resolved. -/
def Cmd.inCore (c : Cmd) (w : Nat) : Nat := if bit w 26 then w / 2 ^ 27 * 2 ^ 27 + coreIn c.lcore * 2 ^ 21 + w % 2 ^ 21 else w

/-- What the window leaves of `n` bytes at an address of the destination; `core` is the core of a local space, `mc` whether
only OFFSET counts. -/
def Cmd.clip (c : Cmd) (sp core a n : Nat) (mc : Bool) : Nat × Nat :=
  match c.window with
  | none => (0, n)
  | some (lo, hi) =>
    if sp = 0 then clipTo lo hi a n
    else if sp = 3 then clipTo lo hi a n
    else if mc then clipTo (lo % 2 ^ 21) (lo % 2 ^ 21 + (hi - lo)) (a % 2 ^ 21) n
    else clipTo (c.inCore lo) (c.inCore lo + (hi - lo)) (core * 2 ^ 21 + a % 2 ^ 21) n

/-- Lengths of the pieces of [a, a + n) granule by granule. -/
def granules (a : Nat) : Nat → Nat → List Nat
  | 0, _ => []
  | f + 1, n => if n = 0 then [] else let k := Nat.min n (16 - a % 16); k :: granules (a + k) f (n - k)

/-- Delivered bytes arrive at the bound barrier, granule by granule (R143). -/
def State.engArrive (s : State) (c : Cmd) (a n : Nat) : State :=
  if c.h.cmode < 2 then s
  else
    match clusterAddr c.lcore spSize (c.stg.getD 15 0) 8 with
    | .error _ => s
    | .ok (u, o) => s.barMod u o (fun w => (granules a (n + 1) n).foldl (fun w k => barArrive w 0 k) w)

/-- Whether ranges cover [a, e). -/
def covered (l : List (Nat × Nat)) (e : Nat) : Nat → Nat → Bool
  | 0, a => e ≤ a
  | f + 1, a => if e ≤ a then true else
      match l.find? (fun t => t.1 ≤ a && a < t.1 + t.2) with
      | none => false
      | some t => covered l e f (t.1 + t.2)

/-- A block's tag as a command has written it, all of it by now or a part (R111, R153). `l` are the ranges that the command has written
in its memory under the code. -/
def tagWritten (rc : Nat) (l : List (Nat × Nat)) (t : Tbl Nat) (b : Nat) : Tbl Nat :=
  let l := l.filter (fun r => r.1 < 2048 * b + 2048 && 2048 * b < r.1 + r.2)
  if covered l (2048 * b + 2048) (l.length + 1) (2048 * b) then Tbl.put t b rc
  else if Tbl.get 0 t b % 4 = rc then t else Tbl.put t b (rc + 4)

/-- The bytes of some data, clean ones and poisoned ones. -/
def EData.split (d : EData) (a : Nat) : List (Nat × Nat) × List (Nat × Nat) :=
  ((spread a d.n d.v).zipIdx.partition (fun t => !bit d.p t.2)).map (fun l => l.map (fun t => t.1)) (fun l => l.map (fun t => t.1))

/-- Data into a scratchpad at an offset: bytes, full bits, marks, tags in part, barrier bytes (R143, R153). -/
def State.putSp (s : State) (c : Cmd) (u o rc : Nat) (d : EData) : State × Cmd :=
  if d.n = 0 then (s, c)
  else
    let (cl, po) := d.split o
    let c := { c with cover := (4 * u + rc, o, d.n) :: c.cover }
    let rs := (c.cover.filter (fun t => t.1 == 4 * u + rc)).map (fun t => t.2)
    let s := s.modLcore u (fun l =>
      let l := (l.storeRaw .sp (some rc) cl false true).storeRaw .sp (some rc) po true true
      { l with tags := (List.range (ceilDiv (o % 2048 + d.n) 2048)).foldl (fun t i => tagWritten rc rs t (o / 2048 + i)) l.tags })
    (s.engArrive c o d.n, c)

/-- Data into global memory, page by page; all translations have been made. -/
def State.putVa (s : State) (c : Cmd) : Nat → Nat → EData → State
  | 0, _, _ => s
  | f + 1, va, d =>
    if d.n = 0 then s
    else
      let k := Nat.min d.n (2 ^ 16 - va % 2 ^ 16)
      let s := match s.engPhys c va true with
        | .error _ => s
        | .ok ph =>
          if s.spanAtOnce (dieOf c.lcore) ph.pa k c.task c.rel then
            let (cl, po) := (d.slice 0 k).split ph.pa
            (s.storePA cl false true).storePA po true true
          else
            (List.range (ceilDiv (ph.pa % 64 + k) 64)).foldl (fun s i =>
              let line := ph.pa / 64 * 64 + 64 * i
              let sh := d.v % 2 ^ (8 * k) * 2 ^ (8 * (ph.pa % 64))
              let m := ones k * 2 ^ (ph.pa % 64)
              let data := sh / 2 ^ (512 * i) % 2 ^ 512
              let mask := m / 2 ^ (64 * i) % 2 ^ 64
              let hurt := d.p % 2 ^ k * 2 ^ (ph.pa % 64) / 2 ^ (64 * i) % 2 ^ 64
              let pois := joinEl 1 ((List.range 4).map (fun g => b2n (hurt / 2 ^ (16 * g) % 2 ^ 16 != 0)))
              s.storeFar (dieOf c.lcore) line mask data 0 pois true c.sender) s
      s.putVa c f (va + k) (d.slice k (d.n - k))

/-- Checks of a write to global memory, page by page. -/
def State.chkVa (s : State) (c : Cmd) : Nat → Nat → Nat → ERes Unit
  | 0, _, _ => .ok ()
  | f + 1, va, n =>
    if n = 0 then .ok ()
    else
      let k := Nat.min n (2 ^ 16 - va % 2 ^ 16)
      match s.engPhys c va true with
      | .error e => .error e
      | .ok _ => s.chkVa c f (va + k) (n - k)

/-- Data written to global memory with its checks and its barrier bytes. -/
def State.engWriteVa (s : State) (c : Cmd) (va : Nat) (d : EData) : ERes State :=
  match s.chkVa c (d.n / 2 ^ 16 + 2) va d.n with
  | .error e => .error e
  | .ok _ => .ok ((s.putVa c (d.n / 2 ^ 16 + 2) va d).engArrive c va d.n)

/-- Data at an offset of a destination word, clipped by the window; `core` names the core of one multicast delivery. -/
def State.engWrite (s : State) (c : Cmd) (w : Nat) (off : Int) (core : Option Nat) (d : EData) : ERes (State × Cmd) :=
  let ea := wordEa w off
  match fld w 63 62, core with
  | 0, _ =>
    let (i, n) := c.clip 0 0 ea d.n false
    match s.engWriteVa c (ea + i) (d.slice i n) with
    | .error e => .error e
    | .ok s => .ok (s, c)
  | 1, none =>
    match clusterAddr c.lcore spSize ea d.n with
    | .error k => .error (.fault 4 k ea)
    | .ok (u, o) =>
      let (i, n) := c.clip 1 (coreIn u) o d.n false
      .ok (s.putSp c u (o + i) (fld w 61 60) (d.slice i n))
  | 1, some k =>
    let o := modI 64 ((fld w 20 0 : Nat) + off)
    if spSize < o + d.n then .error (.fault 4 3 o)
    else
      let (i, n) := c.clip 1 k o d.n true
      .ok (s.putSp c (clusterOf c.lcore * 24 + k) (o + i) (fld w 61 60) (d.slice i n))
  | 2, _ =>
    match clusterAddr c.lcore accSize ea d.n with
    | .error k => .error (.fault 4 k ea)
    | .ok (u, o) =>
      let (i, n) := c.clip 2 (coreIn u) o d.n false
      let (cl, po) := (d.slice i n).split (o + i)
      .ok ((s.modLcore u (fun l => (l.storeRaw .acc none cl false true).storeRaw .acc none po true true)).engArrive c (o + i) n, c)
  | _, _ =>
    let (i, n) := c.clip 3 0 (ea % 2 ^ 18) d.n false
    let (cl, po) := (d.slice i n).split (ea % 2 ^ 18 + i)
    .ok ((s.modLcore c.lcore (fun l => (l.storeRaw .code none cl false false).storeRaw .code none po true false)).engArrive c (ea + i) n, c)

end Sys2Proof.Machine
end

