-- ==== Sys2Proof/Machine/Copy.lean ====
section
/-! DEFINITION. The copy engine (R148 to R152) and the Sieve (R204 to R209), step by step: a step is one destination row. -/

namespace Sys2Proof.Machine

/-! ### COPY -/

/-- Destination rows of the data, and pad rows after them. -/
def copySteps (stg : List Nat) : Nat := (copyRect stg).1
def padSteps (stg : List Nat) : Nat := if bit (stg.getD 5 0) 2 then fld (stg.getD 6 0) 44 32 else 0

/-- Byte b of a pad row (R145). -/
def padByte (stg : List Nat) (b : Nat) : Nat := el 8 (fld (stg.getD 7 0) 31 0) (b % 4)

/-- `n` pad bytes from byte b. -/
def padData (stg : List Nat) (b n : Nat) : EData := ⟨n, joinEl 8 ((List.range n).map (fun i => padByte stg (b + i))), 0⟩

/-- Rows i, i + 1, … of a column of elements of `es` bytes (R148). -/
def State.copyCol (s : State) (c : Cmd) (col es : Nat) : Nat → Nat → ERes EData
  | 0, _ => .ok ⟨0, 0, 0⟩
  | f + 1, i =>
    match s.engRead c (c.stg.getD 0 0) (i * s64 (c.stg.getD 3 0) + col) es with
    | .error e => .error e
    | .ok d =>
      match s.copyCol c col es f (i + 1) with
      | .error e => .error e
      | .ok r => .ok (d.join r)

/-- The destination row of data step k with its bytes; none where nothing is written. -/
def State.copyRow (s : State) (c : Cmd) (k : Nat) : ERes (Option (Nat × EData)) :=
  let w (i : Nat) := c.stg.getD i 0
  let mode := w 5
  let rowb := fld (w 2) 20 0
  let es := 2 ^ fld mode 5 4
  let src (i : Nat) := s.engRead c (w 0) (i * s64 (w 3)) rowb
  if bit mode 0 then (s.copyCol c (k * es) es (fld (w 2) 44 32) 0).map (fun d => some (k, d))
  else if bit mode 1 then
    let m := (s.lcore c.lcore).permEnt (w 8 + k)
    if bit mode 6 then
      if bit m 15 then .ok none else (src k).map (fun d => some (m % 4096, d))
    else if bit m 15 then .ok (some (k, padData c.stg 0 rowb))
    else (src (m % 4096)).map (fun d => some (k, d))
  else (src k).map (fun d => some (k, d))

/-- Bytes of destination row r that the data has written (R148). -/
def State.copyWidth (s : State) (c : Cmd) (r : Nat) : Nat :=
  let mode := c.stg.getD 5 0
  let (rows, width) := copyRect c.stg
  if bit mode 1 && bit mode 6 then
    if (List.range rows).any (fun k => (s.lcore c.lcore).permEnt (c.stg.getD 8 0 + k) == r) then width else 0
  else if r < rows then width else 0

/-- One row delivered to each destination core. -/
def State.copyPut (s : State) (c : Cmd) (off : Int) (d : EData) : List (Option Nat) → ERes (State × Cmd)
  | [] => .ok (s, c)
  | k :: ks =>
    match s.engWrite c (c.stg.getD 1 0) off k d with
    | .error e => .error e
    | .ok (s, c) => s.copyPut c off d ks

/-- A COPY as it starts: the cores of its multicast are those of now (R150). A RESTO whose entries name no row twice has no order of its rows
where source and destination are apart (R144, R208). -/
def State.copyOpen (s : State) (c : Cmd) : Cmd :=
  if c.kind = 0 && bit (c.stg.getD 5 0) 3 && c.aux.isEmpty then { c with aux := 1 :: s.mcastCores c.lcore c.gid (c.stg.getD 9 0) }
  else if c.kind = 2 && c.op = 1 && !c.started then
    let rows := (s.lcore c.lcore).permRows (c.stg.getD 7 0) (fld (c.stg.getD 2 0) 44 32)
    let n := fld (c.stg.getD 2 0) 20 0
    { c with loose := c.loose || (decide rows.Nodup && fld (c.stg.getD 0 0) 63 62 != fld (c.stg.getD 1 0) 63 62
        && (n : Int) ≤ (s64 (c.stg.getD 4 0)).natAbs) }
  else c

/-- Destination cores (R150): none names the destination word's own. -/
def Cmd.copyCores (c : Cmd) : List (Option Nat) := if bit (c.stg.getD 5 0) 3 then (c.aux.drop 1).map some else [none]

/-- Rows of an in-place transpose, all read before any is written (R152). -/
def State.transposeRows (s : State) (c : Cmd) : Nat → Nat → ERes (List EData)
  | 0, _ => .ok []
  | f + 1, k =>
    match s.copyRow c k with
    | .error e => .error e
    | .ok r =>
      match s.transposeRows c f (k + 1) with
      | .error e => .error e
      | .ok l => .ok ((r.getD (0, ⟨0, 0, 0⟩)).2 :: l)

def State.putRows (s : State) (c : Cmd) : Nat → List EData → ERes (State × Cmd)
  | _, [] => .ok (s, c)
  | k, d :: l =>
    match s.engWrite c (c.stg.getD 1 0) (k * s64 (c.stg.getD 4 0)) none d with
    | .error e => .error e
    | .ok (s, c) => s.putRows c (k + 1) l

/-- The transpose tile after an in-place transpose: the transposed block, an element a cell (R152). -/
def tileOfRows (es : Nat) (l : List EData) (t : Tbl Nat) : Tbl Nat :=
  l.zipIdx.foldl (fun t r => (List.range (r.1.n / es)).foldl (fun t j => Tbl.put t (r.2 * 64 + j) (el (8 * es) r.1.v j)) t) t

/-- The whole of an in-place square transpose. -/
def State.copyInPlace (s : State) (c : Cmd) : ERes (State × Cmd) :=
  let es := 2 ^ fld (c.stg.getD 5 0) 5 4
  match s.transposeRows c (copySteps c.stg) 0 with
  | .error e => .error e
  | .ok l =>
    match s.putRows c 0 l with
    | .error e => .error e
    | .ok (s, c) =>
      .ok (s.modLcore c.lcore (fun u => { u with ttile := tileOfRows es l u.ttile }), { c with fin := true })

/-- The step that a command takes next, of `n`: where its order is not fixed, any that it has not taken (R144). -/
def Cmd.nextStep (c : Cmd) (lot n : Nat) : Nat :=
  let p := if c.loose && c.row < n then c.row + lot % (n - c.row) else c.row
  if NatSet.mem c.past p then c.row else p

/-- The first number from `r` on that is none of `l`. -/
def firstFree (l : NatSet) : Nat → Nat → Nat
  | 0, r => r
  | f + 1, r => if NatSet.mem l r then firstFree l f (r + 1) else r

/-- Step `k` has been taken; `row` is the first that has not, `past` are those beyond it that have. -/
def Cmd.took (c : Cmd) (k : Nat) : Cmd :=
  if k = c.row then { c with row := firstFree c.past c.past.length (k + 1) } else { c with past := NatSet.insert c.past k }

/-- A step of a COPY: data rows are numbered first, then pad rows (R148). -/
def State.copyStep (s : State) (c : Cmd) : ERes (State × Cmd) :=
  let n := copySteps c.stg
  let k := c.nextStep s.lot (n + padSteps c.stg)
  let dstr := s64 (c.stg.getD 4 0)
  if inPlace c.stg then s.copyInPlace c
  else if k < n then
    match s.copyRow c k with
    | .error e => .error e
    | .ok none => .ok (s, c.took k)
    | .ok (some (r, d)) =>
      match s.copyPut c (r * dstr) d c.copyCores with
      | .error e => .error e
      | .ok (s, c) => .ok (s, c.took k)
  else if k < n + padSteps c.stg then
    let r := k - n
    let b := s.copyWidth c r
    let len := fld (c.stg.getD 6 0) 20 0 - b
    if len = 0 then .ok (s, c.took k)
    else
      match s.copyPut c (r * dstr + b) (padData c.stg b len) c.copyCores with
      | .error e => .error e
      | .ok (s, c) => .ok (s, c.took k)
  else .ok (s, { c with fin := true })

/-- Row and byte of the first byte not yet delivered (R154). -/
def State.copyAt (s : State) (c : Cmd) : Nat × Nat :=
  let k := c.row
  let n := copySteps c.stg
  let mode := c.stg.getD 5 0
  if k < n then
    if bit mode 1 && bit mode 6 then ((s.lcore c.lcore).permEnt (c.stg.getD 8 0 + k) % 4096, 0) else (k, 0)
  else (k - n, s.copyWidth c (k - n))

/-! ### SIEVE -/

/-- Bytes of a bare scratchpad address, read as scalars are, under the block's own code (R112). -/
def State.engBare (s : State) (c : Cmd) (ea n : Nat) : ERes (Nat × Nat × Nat) :=
  match clusterAddr c.lcore spSize ea n with
  | .error k => .error (.fault 4 k ea)
  | .ok (u, o) => .ok (u, o, (s.lcore u).readN .sp none o n)

/-- A table header that breaks R192. -/
def headerBad (h : Nat) : Bool :=
  let w0 := el 32 h 0
  w0 % 2 ^ 13 == 0 || 4096 < w0 % 2 ^ 13 || fld w0 30 13 != 0 || h / 2 ^ 96 != 0

/-- The live rows of a table, after the checks of R206. All its words are read in one step, and count as they stand, poisoned or not (DESIGN
CHOICE, logs 21 and 22). -/
def State.sieveTable (s : State) (c : Cmd) : ERes (List Nat) :=
  let tbl := c.stg.getD 5 0
  match s.engBare c tbl 64 with
  | .error e => .error e
  | .ok (_, _, h) =>
    let w0 := el 32 h 0
    if headerBad h then .error (.fault 11 1 w0)
    else if bit w0 31 then .error (.fault 11 2 w0)
    else
      let nr := w0 % 2 ^ 13
      match s.engBare c tbl (64 + 4 * nr) with
      | .error e => .error e
      | .ok (_, _, t) =>
        let word (k : Nat) := el 32 t (16 + k)
        match (List.range nr).find? (fun k => bit (word k) 31 && fld (word k) 28 17 != k) with
        | some k => .error (.fault 11 3 k)
        | none => .ok ((List.range nr).filter (fun k => rowLive (word k) (c.stg.getD 6 0)))

/-- L, P and TLOG of a SIEVE whose live rows are known. -/
def sieveP (stg live : List Nat) : Nat :=
  let t := 2 ^ fld (stg.getD 2 0) 35 32
  ceilDiv live.length t * t

/-- The count word (R206). -/
def countWord (stg live : List Nat) : Nat := fld (stg.getD 2 0) 35 32 * 2 ^ 32 + sieveP stg live * 2 ^ 16 + live.length

/-- LRC's value (R207). -/
def lrcOf (c : Cmd) : Nat := fld (c.stg.getD 2 0) 35 32 * 2 ^ 16 + (c.aux.drop 1).length

def LCore.setPerm (l : LCore) (k v : Nat) : LCore := { l with perm := Tbl.put l.perm (k % 4096) v }

/-- Step 0 reads the table; steps 1 to P write an entry and a row; the last writes the count word (R206). -/
def State.sieveStep (s : State) (c : Cmd) : ERes (State × Cmd) :=
  let w (i : Nat) := c.stg.getD i 0
  if c.row = 0 then
    match s.sieveTable c with
    | .error e => .error e
    | .ok l => .ok (s, { c with row := 1, aux := 0 :: l })
  else
    let live := c.aux.drop 1
    let m := c.row - 1
    let rowb := fld (w 2) 20 0
    if m < sieveP c.stg live then
      let data : ERes EData := if m < live.length then s.engRead c (w 0) (live.getD m 0 * s64 (w 3)) rowb else .ok ⟨rowb, 0, 0⟩
      let s' := s.modLcore c.lcore (fun l => l.setPerm (w 7 + m) (if m < live.length then live.getD m 0 else 0x8000))
      if bit (w 9) 0 then .ok (s', { c with row := c.row + 1 })
      else
        match data with
        | .error e => .error e
        | .ok d =>
          match s'.engWrite c (w 1) (m * s64 (w 4)) none d with
          | .error e => .error e
          | .ok (s, c) => .ok (s, { c with row := c.row + 1 })
    else
      match s.engBare c (w 8) 8 with
      | .error e => .error e
      | .ok (u, o, _) =>
        .ok (s.modLcore u (fun l => l.store .sp none (spread o 8 (countWord c.stg live)) false true), { c with fin := true })

/-! ### RESTO -/

/-- Element adds of a row into accumulator memory (R208, R316), at the byte address, whatever its alignment (DESIGN CHOICE, log 72). -/
def State.engAdd (s : State) (c : Cmd) (off : Int) (d : EData) : ERes State :=
  let ea := wordEa (c.stg.getD 1 0) off
  match clusterAddr c.lcore accSize ea d.n with
  | .error k => .error (.fault 4 k ea)
  | .ok (u, o) =>
    let f := !bit (c.stg.getD 5 0) 1
    let ins := (List.range (d.n / 4)).filter (fun i => (c.clip 2 (coreIn u) (o + 4 * i) 4 false).2 == 4)
    let s := s.modLcore u (fun l => ins.foldl (fun l i =>
      let a := l.acc.mem.readN (o + 4 * i) 4
      let bytes := spread (o + 4 * i) 4 (if f then addF32 a (el 32 d.v i) else (a + el 32 d.v i) % 2 ^ 32)
      let free := bytes.map (fun t => (t.1, (Config.freeByte s.free t.1).toNat))
      let b := if el 4 d.p i = 0 then { l.acc with mem := l.acc.mem.writeL bytes } else l.acc.storePois free
      { l with acc := b.fill (bytes.map (fun t => t.1)) }) l)
    .ok (ins.foldl (fun s i => s.engArrive c (o + 4 * i) 4) s)

/-- One row of a RESTO (R208). -/
def State.restoStep (s : State) (c : Cmd) : ERes (State × Cmd) :=
  let w (i : Nat) := c.stg.getD i 0
  let k := c.nextStep s.lot (fld (w 2) 44 32)
  if k < fld (w 2) 44 32 then
    let e := (s.lcore c.lcore).permEnt (w 7 + k)
    if bit e 15 then .ok (s, c.took k)
    else
      match s.engRead c (w 0) (k * s64 (w 3)) (fld (w 2) 20 0) with
      | .error e => .error e
      | .ok d =>
        let off := (e % 4096 : Nat) * s64 (w 4)
        if bit (w 5) 0 then (s.engAdd c off d).map (fun s => (s, c.took k))
        else (s.engWrite c (w 1) off none d).map (fun t => (t.1, t.2.took k))
  else .ok (s, { c with fin := true })

end Sys2Proof.Machine
end

