-- ==== Sys2Proof/Machine/Fun.lean ====
section
/-! DEFINITION. The six special functions: the exact result rounded once to nearest even (R248, R282, R283). A result that
is not a dyadic number is carried as a truncated number with a low bit that stands for the rest (log 11). -/

namespace Sys2Proof.Machine

/-- ln 2 in units of 2^-320, truncated. -/
def ln2Fix : Nat := 0xB172_17F7_D1CF_79AB_C9E3_B398_03F2_F6AF_40F3_4326_7298_B62D_8A0D_175B_8BAA_FA2B_E7B8_7620_6DEB_AC98

/-- The fixed-point scale. -/
def fixP : Nat := 320

/-- floor of the square root, bit by bit from bit `n` - 1 downward. -/
def isqrtFrom (x : Nat) : Nat → Nat → Nat
  | 0, r => r
  | n + 1, r => if (r + 2 ^ n) * (r + 2 ^ n) ≤ x then isqrtFrom x n (r + 2 ^ n) else isqrtFrom x n r

def isqrt (x : Nat) : Nat := isqrtFrom x (Nat.log2 x / 2 + 1) 0

/-- A truncated positive value n × 2^e with what lies below it. -/
def sticky (neg : Bool) (n : Nat) (e : Int) (exact : Bool) : FV :=
  .fin neg (2 * n + (if exact then 0 else 1)) (e - 1)

/-- 1 / (m × 2^e). -/
def rcpV (neg : Bool) (m : Nat) (e : Int) : FV :=
  let k := Nat.log2 m + 80
  sticky neg (2 ^ k / m) (-(k : Int) - e) (2 ^ k % m == 0)

/-- 1 / sqrt(m × 2^e). -/
def rsqV (m : Nat) (e : Int) : FV :=
  let m' := if e % 2 = 0 then m else 2 * m
  let e' := if e % 2 = 0 then e else e - 1
  let k := Nat.log2 m' + 80
  let n := isqrt (2 ^ (2 * k) / m')
  sticky false n (-(k : Int) - e' / 2) (n * n * m' == 2 ^ (2 * k))

/-- Bits of log2 of f / 2^P, f in [2^P, 2^(P+1)), by repeated squaring. -/
def logBits : Nat → Nat → Nat → Nat
  | 0, _, acc => acc
  | n + 1, f, acc =>
    let g := f * f / 2 ^ fixP
    if 2 ^ (fixP + 1) ≤ g then logBits n (g / 2) (2 * acc + 1) else logBits n g (2 * acc)

/-- log2(m × 2^e). -/
def log2V (m : Nat) (e : Int) : FV :=
  let g := Nat.log2 m
  let i := (g : Int) + e
  if m = 2 ^ g then .fin (i < 0) i.natAbs 0
  else
    let fr := logBits 120 (m * 2 ^ fixP / 2 ^ g) 0
    if 0 ≤ i then sticky false (i.toNat * 2 ^ 120 + fr) (-120) false
    else sticky true ((-i).toNat * 2 ^ 120 - fr - 1) (-120) false

/-- The Taylor series of exp(r) - the terms from k upward, r in units of 2^-P. -/
def expTerms (r : Nat) : Nat → Nat → Nat → Nat
  | 0, _, _ => 0
  | n + 1, k, t => t + expTerms r n (k + 1) (t * r / 2 ^ fixP / k)

/-- exp(r) for 0 ≤ r < ln 2, in units of 2^-P. -/
def expFix (r : Nat) : Nat := expTerms r 70 1 (2 ^ fixP)

/-- 2^(± m × 2^e). -/
def exp2V (neg : Bool) (m : Nat) (e : Int) : FV :=
  if 10 ≤ (Nat.log2 m : Int) + e then if neg then .fin false 1 (-4000) else .fin false 1 4000
  else if 0 ≤ e then .fin false 1 (if neg then -((m * 2 ^ e.toNat : Nat) : Int) else (m * 2 ^ e.toNat : Nat))
  else if (Nat.log2 m : Int) + e < -60 then
    .fin false (if neg then 2 ^ 60 - 1 else 2 ^ 60 + 1) (-60)
  else
    let s := (-e).toNat
    let ip : Int := if neg then -((m / 2 ^ s : Nat) : Int) - (if m % 2 ^ s = 0 then 0 else 1) else (m / 2 ^ s : Nat)
    let fr := if neg then (2 ^ s - m % 2 ^ s) % 2 ^ s else m % 2 ^ s
    if fr = 0 then .fin false 1 ip
    else sticky false (expFix (fr * ln2Fix / 2 ^ s)) (ip - fixP) false

/-- exp(-z) for z in units of 2^-P, in the same units. -/
def expNeg (z : Nat) : Nat :=
  let k := z / ln2Fix
  2 ^ (2 * fixP) / expFix (z % ln2Fix) / 2 ^ k

/-- m × 2^e in units of 2^-P. -/
def toFix (m : Nat) (e : Int) : Nat :=
  if 0 ≤ e + fixP then m * 2 ^ (e + fixP).toNat else m / 2 ^ (-(e + fixP)).toNat

/-- tanh(± m × 2^e). -/
def tanhV (neg : Bool) (m : Nat) (e : Int) : FV :=
  let g := (Nat.log2 m : Int) + e
  if g < -30 then .fin neg (m * 2 ^ 70 - 1) (e - 70)
  else if 6 ≤ g then .fin neg (2 ^ 70 - 1) (-70)
  else
    let t := expNeg (2 * toFix m e)
    sticky neg ((2 ^ fixP - t) * 2 ^ fixP / (2 ^ fixP + t)) (-fixP) false

/-- 1 / (1 + exp(-(± m × 2^e))). -/
def sigmV (neg : Bool) (m : Nat) (e : Int) : FV :=
  let g := (Nat.log2 m : Int) + e
  if g < -60 then .fin false (if neg then 2 ^ 70 - 1 else 2 ^ 70 + 1) (-71)
  else if 8 ≤ g then if neg then .fin false 1 (-4000) else .fin false (2 ^ 70 - 1) (-70)
  else
    let t := expNeg (toFix m e)
    let num := if neg then t else 2 ^ fixP
    sticky false (num * 2 ^ fixP / (2 ^ fixP + t)) (-fixP) false

/-- The functions in opcode order: VEXP2, VLOG2, VRCP, VRSQ, VTANH, VSIGM; the value to round, none for the default NaN.
-/
def funV (fn : Nat) (x : FV) : Option FV :=
  match x with
  | .nan _ _ => none
  | .inf neg =>
    match fn with
    | 0 => some (if neg then .fin false 0 0 else .inf false)
    | 1 => if neg then none else some (.inf false)
    | 2 => some (.fin neg 0 0)
    | 3 => if neg then none else some (.fin false 0 0)
    | 4 => some (.fin neg 1 0)
    | _ => some (if neg then .fin false 0 0 else .fin false 1 0)
  | .fin neg m e =>
    if m = 0 then
      match fn with
      | 0 => some (.fin false 1 0)
      | 1 => some (.inf true)
      | 2 => some (.inf neg)
      | 3 => some (.inf neg)
      | 4 => some (.fin neg 0 0)
      | _ => some (.fin false 1 (-1))
    else
      match fn with
      | 0 => some (exp2V neg m e)
      | 1 => if neg then none else some (log2V m e)
      | 2 => some (rcpV neg m e)
      | 3 => if neg then none else some (rsqV m e)
      | 4 => some (tanhV neg m e)
      | _ => some (sigmV neg m e)

/-- One element of a special function (R282). -/
def funEl (fn t a : Nat) : Nat :=
  if isNan a t then quiet a t
  else
    match funV fn (valueOf a t) with
    | none => defaultNan t
    | some x => bitsOf x t 0 false

def vecFun (fn t p old a : Nat) : Nat :=
  let n := typeWidth t
  joinEl n ((List.range (2048 / n)).map (fun i => if bit p (n * i / 8) then funEl fn t (el n a i) else el n old i))

end Sys2Proof.Machine
end

