-- ==== Sys2Proof/Machine/Kv.lean ====
section
/-! DEFINITION. The gather engine and Flowstone: block tables, pools, sealing arithmetic, GATH, EXSAVE, TRUNC, FILL and fill
demands (R166 to R190). -/

namespace Sys2Proof.Machine

/-! ### Structures in global memory -/

/-- Whether a structure's bytes lie on this package, page by page: one on another stops the command (R177, R182). -/
def State.kvHere (s : State) (c : Cmd) (base : Nat) (write : Bool) : Nat → Nat → Nat → ERes Unit
  | 0, _, _ => .ok ()
  | f + 1, va, n =>
    if n = 0 then .ok ()
    else
      let k := Nat.min n (2 ^ 16 - va % 2 ^ 16)
      match s.engPhys c va write with
      | .error e => .error e
      | .ok ph => if s.isLocal (dieOf c.lcore) ph.pa then s.kvHere c base write f (va + k) (n - k) else .error (.fault 6 base 0)

/-- Bytes of a structure whose base is `base`. -/
def State.kvRead (s : State) (c : Cmd) (base va n : Nat) : ERes EData :=
  match s.kvHere c base false (n / 2 ^ 16 + 2) va n with
  | .error e => .error e
  | .ok _ => s.engReadVa c va n

def State.kvWord (s : State) (c : Cmd) (base va : Nat) : ERes Nat := (s.kvRead c base va 8).map (fun d => d.v)

/-- Bytes written to a structure: no barrier byte arrives for them (log 26). -/
def State.kvWrite (s : State) (c : Cmd) (base va : Nat) (d : EData) : ERes State :=
  match s.kvHere c base true (d.n / 2 ^ 16 + 2) va d.n with
  | .error e => .error e
  | .ok _ => .ok (s.putVa c (d.n / 2 ^ 16 + 2) va d)

def State.kvPut (s : State) (c : Cmd) (base va w : Nat) : ERes State := s.kvWrite c base va ⟨8, w % 2 ^ 64, 0⟩

/-- A step of an operation whose earlier writes have been performed: an entry, a record or a count changes only then (R175, R177, R189). -/
def State.afterWrites {α : Type} (s : State) (c : Cmd) (r : ERes α) : ERes α := if s.answered c then r else .error .hold

/-- A block table's header (R173). -/
structure Table where
  tbl : Nat
  fdt : Nat
  xbase : Nat
  slen : Nat
  nbmax : Nat
  nl : Nat
deriving DecidableEq, Repr

/-- Whether header word i breaks R173. -/
def tableBad (w : Nat → Nat) (i : Nat) : Bool :=
  match i with
  | 0 => fld (w 0) 63 57 != 0 || w 0 % 128 != 0
  | 1 => fld (w 1) 63 57 != 0
  | 2 => fld (w 2) 15 9 != 0 || fld (w 2) 31 16 == 0 || fld (w 2) 8 0 == 0 || 256 < fld (w 2) 8 0
      || 16 * fld (w 2) 31 16 < fld (w 2) 63 32
  | 3 => false
  | _ => w i != 0

/-- A table's header. The bytes of a header, an entry, a record or a list word count as they stand, poisoned or not (DESIGN CHOICE, log 22). -/
def State.kvTable (s : State) (c : Cmd) (tbl : Nat) : ERes Table :=
  match s.kvRead c tbl tbl 256 with
  | .error e => .error e
  | .ok d =>
    let w (i : Nat) := el 64 d.v i
    match (List.range 32).find? (tableBad w) with
    | some i => .error (.fault 6 (tbl + 8 * i) (w i))
    | none => .ok ⟨tbl, w 0, w 1, fld (w 2) 63 32, fld (w 2) 31 16, fld (w 2) 8 0⟩

/-- Address of an entry (R173). -/
def Table.entry (t : Table) (l lb : Nat) : Nat := t.tbl + 256 + 8 * (l * t.nbmax + lb)

/-- A fill descriptor record (R171). -/
structure FDesc where
  spool : Nat
  opool : Nat
  layer : Nat
  dm : Nat
  h : Nat
  d : Nat
  gain : Nat
  wk : Nat
  wv : Nat
  rope : Nat
  style : Nat
  rh : Nat
  eps : Nat
  npos : Nat
deriving DecidableEq, Repr

/-- Whether record word i breaks R171. -/
def fdescBad (layer : Nat) (w : Nat → Nat) (i : Nat) : Bool :=
  match i with
  | 0 | 1 => fld (w i) 63 57 != 0 || w i % 256 != 0
  | 2 => fld (w 2) 39 32 != layer || fld (w 2) 63 40 != 0 || fld (w 2) 15 8 != 0 || fld (w 2) 3 2 != 0 || fld (w 2) 1 0 == 3
      || fld (w 2) 31 16 == 0 || fld (w 2) 31 16 % 64 != 0
  | 3 | 4 | 5 | 6 => fld (w i) 63 57 != 0
  | 7 => fld (w 7) 63 41 != 0 || 32 * 2 ^ fld (w 2) 1 0 < fld (w 7) 39 32
  | 8 => fld (w 8) 63 32 != 0
  | _ => w i != 0

def State.kvDesc (s : State) (c : Cmd) (fdt layer : Nat) : ERes FDesc :=
  match s.kvRead c fdt (fdt + 128 * layer) 128 with
  | .error e => .error e
  | .ok d =>
    let w (i : Nat) := el 64 d.v i
    match (List.range 16).find? (fdescBad layer w) with
    | some i => .error (.fault 8 i (w i))
    | none => .ok ⟨w 0, w 1, layer, fld (w 2) 31 16, fld (w 2) 7 4 + 1, 64 * 2 ^ fld (w 2) 1 0, w 3, w 4, w 5, w 6,
        fld (w 7) 40 40, fld (w 7) 39 32, fld (w 7) 31 0, w 8⟩

/-- Sizes of R166. -/
def FDesc.hsec (f : FDesc) : Nat := 128 + 26 * f.d
def FDesc.sbsz (f : FDesc) : Nat := ceilDiv (f.h * f.hsec) 256 * 256
def FDesc.obsz (f : FDesc) : Nat := f.h * 64 * f.d

/-- Pool and head section of a block (R166). -/
def FDesc.sect (f : FDesc) (isSealed : Bool) (pbn hh : Nat) : Nat × Nat :=
  if isSealed then (f.spool, f.spool + pbn * f.sbsz + hh * f.hsec) else (f.opool, f.opool + pbn * f.obsz + hh * 64 * f.d)

/-! ### Entries (R174) -/

def entV (e : Nat) : Bool := bit e 63
def entSealed (e : Nat) : Bool := bit e 62
def entGap (e : Nat) : Nat := fld e 60 45
def entVer (e : Nat) : Nat := fld e 44 33
def entBusy (e : Nat) : Bool := bit e 32
def entPbn (e : Nat) : Nat := fld e 31 0

/-- The key of a pin: address space and address of the entry (R177). -/
def pinKey (c : Cmd) (va : Nat) : Nat := c.asid * 2 ^ 64 + va

def State.pinned (s : State) (key ver : Nat) : Bool :=
  s.clusters.any (fun k => k.2.pins.any (fun p => p.entry == key && p.ver == ver))

def State.unpin (s : State) (c : Cmd) : State :=
  s.modCluster (clusterOf c.pcore) (fun k => { k with pins := k.pins.filter (fun p => p.cmd != c.id) })

/-! ### Decoding a block (R167 to R169, R180) -/

/-- One head section with what it holds: bytes as a number, a bit for each poisoned byte. -/
structure Sect where
  isSealed : Bool
  d : Nat
  v : Nat
  p : Nat
deriving DecidableEq, Repr

/-- The byte ranges of a head section that decoding keys or values of tokens reads (R167, R169). -/
def needRanges (isSealed : Bool) (d : Nat) (keys vals : Bool) (ts : List Nat) : List (Nat × Nat) :=
  let k := if !keys then [] else if isSealed then (0, 32) :: (64, 2 * d) :: ts.map (fun t => (64 + 2 * d + t * (d / 2), d / 2))
    else ts.map (fun t => (2 * t * d, 2 * d))
  let v := if !vals then [] else if isSealed then (ts.map (fun t => [(64 + 10 * d + 2 * t, 2), (128 + 10 * d + t * d, d)])).flatten
    else ts.map (fun t => (32 * d + 2 * t * d, 2 * d))
  k ++ v

/-- Ranges of bytes from `a`, each at its place. -/
def State.kvParts (s : State) (c : Cmd) (pool a : Nat) : List (Nat × Nat) → ERes (Nat × Nat)
  | [] => .ok (0, 0)
  | (o, n) :: l =>
    match s.kvRead c pool (a + o) n with
    | .error e => .error e
    | .ok x =>
      match s.kvParts c pool a l with
      | .error e => .error e
      | .ok (v, p) => .ok (v ||| x.v % 2 ^ (8 * n) * 2 ^ (8 * o), p ||| x.p % 2 ^ n * 2 ^ o)

/-- The bytes of a head section in the ranges; no other byte of it is read. -/
def State.kvSect (s : State) (c : Cmd) (f : FDesc) (e hh : Nat) (l : List (Nat × Nat)) : ERes Sect :=
  let (pool, a) := f.sect (entSealed e) (entPbn e) hh
  (s.kvParts c pool a l).map (fun x => ⟨entSealed e, f.d, x.1, x.2⟩)

/-- Byte `o`, and halfword at byte `o`. -/
def Sect.byte (x : Sect) (o : Nat) : Nat := el 8 x.v o
def Sect.half (x : Sect) (o : Nat) : Nat := x.v / 2 ^ (8 * o) % 2 ^ 16
def Sect.hurt (x : Sect) (o n : Nat) : Bool := x.p / 2 ^ o % 2 ^ n != 0

/-- The outlier entries (R168). -/
def Sect.outliers (x : Sect) : List Nat := (List.range 8).map (fun i => el 32 x.v i)

/-- The last valid entry that names an element. -/
def outlierOf (d t ch : Nat) (l : List Nat) : Option Nat :=
  (l.filter (fun e => bit e 31 && fld e 23 16 < d && fld e 27 24 == t && fld e 23 16 == ch)).getLast?.map (fun e => fld e 15 0)

/-- A key code (R167). -/
def Sect.kcode (x : Sect) (t ch : Nat) : Nat :=
  let b := x.byte (64 + 2 * x.d + t * (x.d / 2) + ch / 2)
  if ch % 2 = 0 then b % 16 else b / 16

/-- decode_key and decode_value of R180, and whether poison reaches the element. -/
def Sect.key (x : Sect) (t ch : Nat) : FV × Bool :=
  if x.isSealed then
    let sc := 64 + 2 * ch
    (match outlierOf x.d t ch x.outliers with
     | some v => valueOf v 2
     | none => prodOf (.ofInt (sextI 4 (x.kcode t ch))) (valueOf (x.half sc) 2),
     x.hurt 0 32 || x.hurt sc 2 || x.hurt (64 + 2 * x.d + t * (x.d / 2) + ch / 2) 1)
  else (valueOf (x.half (2 * (t * x.d + ch))) 2, x.hurt (2 * (t * x.d + ch)) 2)

def Sect.value (x : Sect) (t ch : Nat) : FV × Bool :=
  if x.isSealed then
    let a := 128 + 10 * x.d + t * x.d + ch
    let st := 64 + 10 * x.d + 2 * t
    (match valueOf (x.byte a) 3 with
     | .nan _ _ => .nan (defaultNan 0) 0
     | v => prodOf v (valueOf (x.half st) 2), x.hurt a 1 || x.hurt st 2)
  else
    let a := 32 * x.d + 2 * (t * x.d + ch)
    (valueOf (x.half a) 2, x.hurt a 2)

/-- Output types of GATH (R179). -/
def otType (ot : Nat) : Nat := ot

/-- A row of D elements of a type. -/
def rowData (d ot : Nat) (f : Nat → FV × Bool) : EData :=
  let w := typeWidth (otType ot)
  let xs := (List.range d).map f
  ⟨d * w / 8, joinEl w (xs.map (fun x => bitsOf x.1 (otType ot) 0 true)), joinEl (w / 8) (xs.map (fun x => if x.2 then ones (w / 8) else 0))⟩

/-! ### Sealing (R170) -/

/-- The quotient of two positive dyadic numbers, truncated with a low bit for the rest. -/
def quotV (neg : Bool) (m : Nat) (e : Int) (m' : Nat) (e' : Int) : FV :=
  let k := Nat.log2 m' + 80
  sticky neg (m * 2 ^ k / m') (e - k - e') (m * 2 ^ k % m' == 0)

/-- x / y for finite x and finite non-zero y. -/
def divV (x y : FV) : FV :=
  match x, y with
  | .fin s m e, .fin s' m' e' => if m = 0 then .fin (s != s') 0 0 else quotV (s != s') m e m' e'
  | v, _ => v

def isFinV : FV → Bool
  | .fin .. => true
  | _ => false

def isZeroV : FV → Bool
  | .fin _ m _ => m == 0
  | _ => false

def absV : FV → FV
  | .fin _ m e => .fin false m e
  | .inf _ => .inf false
  | v => v

def isNegV : FV → Bool
  | .fin s .. => s
  | .inf s => s
  | _ => false

/-- Key channel scale from the magnitudes of its elements, 0 without a finite one (R170). -/
def keyScale (l : List FV) : Nat :=
  let m := (l.filter isFinV).map (fun x => finParts (absV x))
  if m.isEmpty then 0 else bitsOf (divV (exactSum m 0) (.fin false 28 0)) 2 2 true

/-- The key branch of R170: the code, and whether the element is an outlier. A scale that is not finite stands in a block that sealing
did not write: no element is within 7 times a NaN or -∞, and each is within +∞, where its quotient is 0. -/
def keyCode (sc : Nat) (x : FV) : Nat × Bool :=
  match isFinV x, valueOf sc 2 with
  | true, .inf neg => (0, neg)
  | true, .fin sg m e =>
    let sv : FV := .fin sg m e
    if cmpV (absV x) (prodOf (.ofInt 7) sv) ≤ 0 then (if isZeroV x then 0 else bitsOf (divV x sv) 9 0 true, false) else (0, true)
  | _, _ => (0, true)

/-- Code where the outlier list is full. -/
def satKey (x : FV) : Nat :=
  match x with
  | .nan _ _ => 0
  | _ => if isNegV x then 9 else 7

def outlierWord (t ch : Nat) (x : FV) : Nat := 2 ^ 31 + t * 2 ^ 24 + ch * 2 ^ 16 + bitsOf x 2 0 true

/-- Keys of a list of elements (token, channel, value), with the outlier list growing: codes, list, OVF. -/
def keyCodes (scale : Nat → Nat) : List (Nat × Nat × FV) → List Nat → Bool → List Nat × List Nat × Bool
  | [], ol, ovf => ([], ol, ovf)
  | (t, ch, x) :: l, ol, ovf =>
    let (k, out) := keyCode (scale ch) x
    if out then
      if ol.length < 8 then
        let (ks, r) := keyCodes scale l (ol ++ [outlierWord t ch x]) ovf
        (0 :: ks, r)
      else
        let (ks, r) := keyCodes scale l ol true
        (satKey x :: ks, r)
    else
      let (ks, r) := keyCodes scale l ol ovf
      (k :: ks, r)

/-- The greatest of finite magnitudes, 0 if none. -/
def maxAbs (l : List FV) : FV := l.foldl (fun a x => if isFinV x && cmpV a (absV x) < 0 then absV x else a) (.fin false 0 0)

/-- Value token scale and codes (R170): scale, codes, OVF. -/
def valueCodes (l : List FV) : Nat × List Nat × Bool :=
  let st := bitsOf (divV (maxAbs l) (.fin false 448 0)) 2 2 true
  (st, l.map (fun y =>
    match y with
    | .nan _ _ => 0x7F
    | .inf s => if s then 0xFE else 0x7E
    | .fin .. => if st = 0 then 0 else bitsOf (divV y (valueOf st 2)) 3 0 true),
   l.any (fun y => match y with
    | .inf _ => true
    | _ => false))

/-- A sealed head section from 16 × D keys and values; `gap` is G (R167, R170). -/
def sealSect (d gap : Nat) (x y : Nat → Nat → FV) : Nat × Bool :=
  let live (t : Nat) : Bool := !bit gap t
  let toks := (List.range 16).filter live
  let scales := (List.range d).map (fun ch => keyScale (toks.map (fun t => x t ch)))
  let els := (toks.map (fun t => (List.range d).map (fun ch => (t, ch, x t ch)))).flatten
  let (ks, ol, ovf) := keyCodes (fun ch => scales.getD ch 0) els [] false
  let row (t : Nat) : List Nat := match toks.findIdx? (fun u => u == t) with
    | some i => (ks.drop (i * d)).take d
    | none => List.replicate d 0
  let vals := (List.range 16).map (fun t => if live t then valueCodes ((List.range d).map (fun ch => y t ch)) else (0, List.replicate d 0, false))
  let keysN := joinEl 4 ((List.range 16).map row).flatten
  (joinEl 32 ol + joinEl 16 scales * 2 ^ 512 + keysN * 2 ^ (8 * (64 + 2 * d))
    + joinEl 16 (vals.map (fun v => v.1)) * 2 ^ (8 * (64 + 10 * d))
    + joinEl 8 (vals.map (fun v => v.2.1)).flatten * 2 ^ (8 * (128 + 10 * d)),
   ovf || vals.any (fun v => v.2.2))

/-- An open head section (R169, R187 mode 3): gap tokens zero. -/
def openSect (d gap : Nat) (x y : Nat → Nat → FV) : Nat :=
  let half (f : Nat → Nat → FV) : List Nat := ((List.range 16).map (fun t => (List.range d).map (fun ch =>
    if bit gap t then 0 else bitsOf (f t ch) 2 0 true))).flatten
  joinEl 16 (half x ++ half y)

/-! ### GATH -/

/-- Tokens of block lb within [t0, t0 + n). -/
def needOf (t0 n lb : Nat) : List Nat := (List.range 16).filter (fun t => t0 ≤ 16 * lb + t && 16 * lb + t < t0 + n)

/-- Rows of a block written to KDST or VDST: all, or none where one of them faults (DESIGN CHOICE, log 21). -/
def State.gathRows (s : State) (c : Cmd) : List (Nat × Nat × EData) → ERes (State × Cmd)
  | [] => .ok (s, c)
  | (idx, j, d) :: l =>
    match s.engWrite c (c.stg.getD idx 0) ((j * c.stg.getD (idx + 4) 0 : Nat) : Int) none d with
    | .error e => .error e
    | .ok (s, c) => s.gathRows c l

/-- The rows of one head. -/
def State.gathHead (s : State) (c : Cmd) (f : FDesc) (e hh lb : Nat) : ERes (List (Nat × Nat × EData)) :=
  let sel := c.stg.getD 4 0
  let n := fld (c.stg.getD 3 0) 63 32
  let t0 := fld (c.stg.getD 3 0) 31 0
  let ot := fld sel 17 16
  (s.kvSect c f e hh (needRanges (entSealed e) f.d (!bit sel 18) (!bit sel 19) (needOf t0 n lb))).map (fun x =>
    ((needOf t0 n lb).map (fun t =>
      let j := (hh - fld sel 11 8) * n + (16 * lb + t - t0)
      (if bit sel 18 then [] else [(1, j, rowData f.d ot (x.key t))])
        ++ (if bit sel 19 then [] else [(2, j, rowData f.d ot (x.value t))]))).flatten)

def State.gathHeads (s : State) (c : Cmd) (f : FDesc) (e lb : Nat) : Nat → Nat → ERes (List (Nat × Nat × EData))
  | 0, _ => .ok []
  | k + 1, hh =>
    match s.gathHead c f e hh lb with
    | .error x => .error x
    | .ok l =>
      match s.gathHeads c f e lb k (hh + 1) with
      | .error x => .error x
      | .ok r => .ok (l ++ r)

/-- Header, record and the limits of a GATH (R180). -/
def State.gathOpen (s : State) (c : Cmd) : ERes (Table × FDesc) :=
  let sel := c.stg.getD 4 0
  let n := fld (c.stg.getD 3 0) 63 32
  let t0 := fld (c.stg.getD 3 0) 31 0
  let layer := fld sel 7 0
  match s.kvTable c (c.stg.getD 0 0) with
  | .error e => .error e
  | .ok t =>
    if t.slen < t0 + n then .error (.fault 7 (t0 + n) t.slen)
    else if t.nl ≤ layer then .error (.fault 7 layer t.nl)
    else
      match s.kvDesc c t.fdt layer with
      | .error e => .error e
      | .ok f =>
        let need := f.d * typeWidth (otType (fld sel 17 16)) / 8
        let top := fld sel 11 8 + fld sel 15 12 + 1
        if f.h < top then .error (.fault 7 top f.h)
        else if c.stg.getD 5 0 < need then .error (.fault 7 (c.stg.getD 5 0) need)
        else if c.stg.getD 6 0 < need then .error (.fault 7 (c.stg.getD 6 0) need)
        else .ok (t, f)

/-- One logical block of a GATH (R180). -/
def State.gathStep (s : State) (c : Cmd) : ERes (State × Cmd) :=
  let sel := c.stg.getD 4 0
  let n := fld (c.stg.getD 3 0) 63 32
  let t0 := fld (c.stg.getD 3 0) 31 0
  let lb := t0 / 16 + c.row
  if (t0 + n - 1) / 16 < lb then .ok (s.unpin c, { c with fin := true })
  else
    match s.gathOpen c with
    | .error e => .error e
    | .ok (t, f) =>
      let va := t.entry (fld sel 7 0) lb
      match s.kvWord c t.tbl va with
      | .error e => .error e
      | .ok e =>
        if !entV e then .error (.fault 6 va e)
        else if (needOf t0 n lb).any (fun k => bit (entGap e) k) then
          .error (.demand { tbl := t.tbl, layer := fld sel 7 0, lb := lb, cmd := { c with kind := 3, aux := [] } })
        else
          match s.gathHeads c f e lb (fld sel 15 12 + 1) (fld sel 11 8) with
          | .error x => .error x
          | .ok rows => (s.gathRows c rows).map (fun r => (r.1.unpin c, { r.2 with row := c.row + 1 }))

/-- The entry that a waiting GATH pins: its key and version. -/
def State.gathPin (s : State) (c : Cmd) : Option (Nat × Nat) :=
  let lb := fld (c.stg.getD 3 0) 31 0 / 16 + c.row
  match s.gathOpen c with
  | .error _ => none
  | .ok (t, _) =>
    let va := t.entry (fld (c.stg.getD 4 0) 7 0) lb
    match s.kvWord c t.tbl va with
    | .error _ => none
    | .ok e => if entV e then some (pinKey c va, entVer e) else none

/-! ### BUSY -/

/-- Whether the command holds BUSY: aux is [1, physical address of the byte of BUSY, that byte with BUSY clear, …]. -/
def Cmd.holds (c : Cmd) : Bool := c.aux.getD 0 0 == 1

/-- BUSY := 1 in an entry at `va` whose value is `e` (R175). -/
def State.takeBusy (s : State) (c : Cmd) (tbl va e : Nat) (rest : List Nat) : ERes (State × Cmd) :=
  match s.engPhys c va true with
  | .error x => .error x
  | .ok ph => (s.kvPut c tbl va (setFld e 32 32 1)).map (fun s => (s, { c with aux := [1, ph.pa + 4, fld e 39 33 * 2] ++ rest }))

/-- BUSY := 0 where a command that stops holds it, as one indivisible write of its byte, which nobody else changes meanwhile (R175). -/
def State.dropBusy (s : State) (c : Cmd) : State :=
  if (c.kind = 1 && c.op = 2 || c.kind = 3) && c.holds then
    let pa := c.aux.getD 1 0
    let v := c.aux.getD 2 0
    if s.atOnce (dieOf c.lcore) pa c.task c.rel then s.storePA [(pa, v)] false true
    else s.storeFar (dieOf c.lcore) (pa / 64 * 64) (2 ^ (pa % 64)) (v * 2 ^ (8 * (pa % 64))) 0 0 true c.sender
  else s

/-- A retire list's word 0, where it has room for a record (R177). -/
def State.retireRoom (s : State) (c : Cmd) (ret : Nat) : ERes Nat :=
  match s.kvWord c ret ret with
  | .error x => .error x
  | .ok w =>
    if fld w 31 0 = fld w 63 32 then .error (.fault 10 ret w)
    else
      match s.kvHere c ret true 2 (ret + 8 + 8 * fld w 31 0) 8, s.kvHere c ret true 2 ret 8 with
      | .error x, _ | _, .error x => .error x
      | .ok _, .ok _ => .ok w

/-- The record of a block that leaves its table (R177). -/
def State.retireRec (s : State) (c : Cmd) (ret e layer : Nat) : ERes State :=
  match s.retireRoom c ret with
  | .error x => .error x
  | .ok w => s.kvPut c ret (ret + 8 + 8 * fld w 31 0) (entPbn e + b2n (entSealed e) * 2 ^ 32 + layer * 2 ^ 40)

/-- COUNT := COUNT + 1, in a step after the record's (R177). -/
def State.retireCount (s : State) (c : Cmd) (ret : Nat) : ERes State :=
  match s.kvWord c ret ret with
  | .error x => .error x
  | .ok w => s.kvPut c ret ret (setFld w 31 0 (fld w 31 0 + 1))

/-! ### EXSAVE (R188, R189) -/

/-- A step is the copy of one list entry, or one layer's gap bit after it. Other bits of an entry have no effect, but for those of its address
above 56, which no translation has (DESIGN CHOICE, log 72). -/
def State.exsaveStep (s : State) (c : Cmd) : ERes (State × Cmd) :=
  s.afterWrites c <|
  let w (i : Nat) := c.stg.getD i 0
  let k := c.row
  let lf := fld (w 4) 7 0
  let ll := fld (w 4) 15 8
  if w 2 ≤ k then .ok (s, { c with fin := true })
  else
    match s.engRead c (w 1) ((16 * k : Nat) : Int) 16 with
    | .error e => .error e
    | .ok ent =>
      let tbl := el 64 ent.v 0
      let w1 := el 64 ent.v 1
      if bit w1 63 then .ok (s, { c with row := k + 1 })
      else if tbl % 256 != 0 then .error (.fault 6 (wordEa (w 1) (16 * k : Nat)) tbl)
      else
        match s.kvTable c tbl with
        | .error e => .error e
        | .ok t =>
          let pos := fld w1 31 0
          if c.aux.isEmpty then
            if t.slen ≤ pos then .error (.fault 7 pos t.slen)
            else if ll < lf then .error (.fault 7 lf ll)
            else if t.nl ≤ ll then .error (.fault 7 ll t.nl)
            else
              match s.kvDesc c t.fdt lf with
              | .error e => .error e
              | .ok f =>
                match s.engRead c (w 0) ((k * w 3 : Nat) : Int) (2 * f.dm) with
                | .error e => .error e
                | .ok d => (s.kvWrite c t.xbase (t.xbase + 2 * f.dm * pos) d).map (fun s => (s, { c with aux := [0, lf] }))
          else
            let l := c.aux.getD 1 0
            let va := t.entry l (pos / 16)
            match s.kvWord c t.tbl va with
            | .error e => .error e
            | .ok e =>
              if !entV e then .error (.fault 6 va e)
              else
                (s.kvPut c t.tbl va (setFld e 60 45 (entGap e ||| 2 ^ (pos % 16)))).map (fun s =>
                  (s, if l = ll then { c with row := k + 1, aux := [] } else { c with aux := [0, l + 1] }))

/-! ### TRUNC (R190) -/

/-- The entry of step n ≥ 1: layer, block, and whether it is removed whole. -/
def truncEntry (cut s0 nl n : Nat) : Option (Nat × Nat × Bool) :=
  let lo := ceilDiv cut 16
  let m := ceilDiv s0 16 - lo
  if n ≤ nl * m then some ((n - 1) / m, lo + (n - 1) % m, true)
  else if cut % 16 != 0 && n ≤ nl * m + nl then some (n - nl * m - 1, cut / 16, false) else none

/-- Step 0 cuts SLEN; each other takes one entry: BUSY, the record of its block, COUNT, the entry. aux is [BUSY held, place and byte of BUSY,
S0, NL, stage]. -/
def State.truncStep (s : State) (c : Cmd) : ERes (State × Cmd) :=
  s.afterWrites c <|
  let tbl := c.stg.getD 0 0
  let cut := fld (c.stg.getD 3 0) 31 0
  match s.kvTable c tbl with
  | .error e => .error e
  | .ok t =>
    if c.row = 0 then
      if t.slen < cut then .error (.fault 7 cut t.slen)
      else (s.kvWrite c tbl (tbl + 20) ⟨4, cut, 0⟩).map (fun s => (s, { c with row := 1, aux := [0, 0, 0, t.slen, t.nl, 0] }))
    else
      let s0 := c.aux.getD 3 0
      match truncEntry cut s0 t.nl c.row with
      | none => .ok (s, { c with fin := true })
      | some (l, lb, whole) =>
        let va := t.entry l lb
        match s.kvWord c tbl va with
        | .error e => .error e
        | .ok e =>
          if !c.holds then
            if entBusy e then .error .hold
            else s.takeBusy c tbl va e [s0, t.nl, c.aux.getD 5 0]
          else
            let stage (n : Nat) (s : State) : State × Cmd := (s, { c with aux := setAt c.aux 5 n })
            let done (s : State) : State × Cmd := (s, { c with row := c.row + 1, aux := [0, 0, 0, s0, t.nl, 0] })
            if whole then
              match c.aux.getD 5 0 with
              | 0 => if s.pinned (pinKey c va) (entVer e) then .error .hold
                else if entV e then (s.retireRec c (c.stg.getD 1 0) e l).map (stage 1) else .ok (stage 2 s)
              | 1 => (s.retireCount c (c.stg.getD 1 0)).map (stage 2)
              | _ => (s.kvPut c tbl va 0).map done
            else
              (s.kvPut c tbl va (setFld (setFld e 60 45 (entGap e % 2 ^ (cut % 16))) 32 32 0)).map done

/-! ### The fill of a gap token (R184, R185) -/

/-- BF16 or F32 element i of a number. -/
def bfAt (v i : Nat) : FV := valueOf (el 16 v i) 1
def fAt (v i : Nat) : FV := valueOf (el 32 v i) 0

/-- round_f32 of an exact value under nearest even. -/
def r32 (x : FV) : Nat := bitsOf x 0 0 false

/-- round_f32(a / n) for an F32 pattern. -/
def divInt (a n : Nat) : Nat :=
  match valueOf a 0 with
  | .fin sg m e => r32 (divV (.fin sg m e) (.fin false n 0))
  | v => r32 v

/-- The normalised hidden state (R184). -/
def fillNorm (dm eps h gain : Nat) : List Nat :=
  let sum := groupSum32 (dm / 32 + 1) ((List.range dm).map (fun i => prodOf (bfAt h i) (bfAt h i))) 0
  let q := fAdd (divInt sum dm) eps 0 0
  let rs := valueOf (funEl 3 0 q) 0
  (List.range dm).map (fun i =>
    let a := r32 (prodOf (bfAt h i) rs)
    bitsOf (prodOf (valueOf a 0) (bfAt gain i)) 1 0 false)

/-- One projection (R184): rows of weights as a number. -/
def fillProj (dm rows w : Nat) (n : List Nat) : List Nat :=
  (List.range rows).map (fun o =>
    let r := w / 2 ^ (16 * dm * o) % 2 ^ (16 * dm)
    groupSum32 (dm / 32 + 1) (n.zipIdx.map (fun t => prodOf (bfAt r t.2) (valueOf t.1 1))) 0)

/-- The rotated keys (R184). `rope` holds the RH entries of the position. Where one product is 0 × ∞ and the other has a NaN operand, the first
of the two NaNs counts (DESIGN CHOICE, log 72). -/
def fillRope (f : FDesc) (rope : Nat) (yk : List Nat) : List Nat :=
  let y (i : Nat) := valueOf (yk.getD i 0) 0
  (List.range (f.h * f.d)).map (fun o =>
    let hh := o / f.d
    let c := o % f.d
    let pair : Option (Nat × Nat × Nat) :=
      if f.style = 0 then if c / 2 < f.rh then some (c / 2, c / 2 * 2, c / 2 * 2 + 1) else none
      else if c < f.rh then some (c, c, c + f.rh) else if c < 2 * f.rh then some (c - f.rh, c - f.rh, c) else none
    match pair with
    | none => yk.getD o 0
    | some (i, a, b) =>
      let cs := fAt rope (2 * i)
      let sn := fAt rope (2 * i + 1)
      let ya := y (hh * f.d + a)
      let yb := y (hh * f.d + b)
      if c = a then groupSum [prodOf ya cs, negV (prodOf yb sn)] else groupSum [prodOf ya sn, prodOf yb cs])

/-- Keys and values of one token of one layer, and whether poison reached them. -/
structure Filled where
  k : List Nat
  v : List Nat
  hurt : Bool
deriving DecidableEq, Repr

def State.fillToken (s : State) (c : Cmd) (t : Table) (f : FDesc) (pos : Nat) : ERes Filled :=
  if f.rh != 0 && f.npos ≤ pos then .error (.fault 8 8 f.npos)
  else
    match s.kvRead c t.xbase (t.xbase + 2 * f.dm * pos) (2 * f.dm), s.kvRead c f.gain f.gain (2 * f.dm),
        s.kvRead c f.wk f.wk (2 * f.dm * f.h * f.d), s.kvRead c f.wv f.wv (2 * f.dm * f.h * f.d),
        (if f.rh = 0 then .ok ⟨0, 0, 0⟩ else s.kvRead c f.rope (f.rope + 8 * (pos * f.rh)) (8 * f.rh)) with
    | .error e, _, _, _, _ | _, .error e, _, _, _ | _, _, .error e, _, _ | _, _, _, .error e, _ | _, _, _, _, .error e => .error e
    | .ok h, .ok g, .ok wk, .ok wv, .ok rope =>
      let n := fillNorm f.dm f.eps h.v g.v
      .ok ⟨fillRope f rope.v (fillProj f.dm (f.h * f.d) wk.v n), fillProj f.dm (f.h * f.d) wv.v n,
        h.p != 0 || g.p != 0 || wk.p != 0 || wv.p != 0 || rope.p != 0⟩

/-- A number with bytes `o` to `o + n - 1` replaced. -/
def putBytes (v o n x : Nat) : Nat := setFld v (8 * (o + n) - 1) (8 * o) x

/-- Valid entries of an outlier list, from its first (R168). -/
def listLen (l : List Nat) : Nat := (l.takeWhile (fun e => bit e 31)).length

/-- A head section after one token is filled (R185): the bytes, and OVF. -/
def fillSect (f : FDesc) (x : Sect) (hh t : Nat) (y : Filled) : Nat × Bool :=
  let d := f.d
  let key (ch : Nat) := valueOf (y.k.getD (hh * d + ch) 0) 0
  let val (ch : Nat) := valueOf (y.v.getD (hh * d + ch) 0) 0
  if x.isSealed then
    let n := listLen x.outliers
    let ol := x.outliers.take n
    let (ks, ol', ovf) := keyCodes (fun ch => x.half (64 + 2 * ch)) ((List.range d).map (fun ch => (t, ch, key ch))) ol false
    let (st, vs, ovf') := valueCodes ((List.range d).map val)
    let b := putBytes x.v (4 * n) (4 * (ol'.length - n)) (joinEl 32 (ol'.drop n))
    let b := putBytes b (64 + 2 * d + t * (d / 2)) (d / 2) (joinEl 4 ks)
    let b := putBytes b (64 + 10 * d + 2 * t) 2 st
    (putBytes b (128 + 10 * d + t * d) d (joinEl 8 vs), ovf || ovf')
  else
    let b := putBytes x.v (2 * t * d) (2 * d) (joinEl 16 ((List.range d).map (fun ch => bitsOf (key ch) 2 0 true)))
    (putBytes b (32 * d + 2 * t * d) (2 * d) (joinEl 16 ((List.range d).map (fun ch => bitsOf (val ch) 2 0 true))), false)

/-- The byte ranges of a head section that the fill of token t writes; `v` are its bytes then. Of the outlier list these are the entries that
it appends. -/
def fillRanges (x : Sect) (v t : Nat) : List (Nat × Nat) :=
  let d := x.d
  if x.isSealed then
    let n := listLen x.outliers
    [(4 * n, 4 * (listLen ({ x with v := v } : Sect).outliers - n)), (64 + 2 * d + t * (d / 2), d / 2), (64 + 10 * d + 2 * t, 2), (128 + 10 * d + t * d, d)]
  else [(2 * t * d, 2 * d), (32 * d + 2 * t * d, 2 * d)]

/-- The bytes that a fill writes, stored range by range. -/
def State.fillPut (s : State) (c : Cmd) (pool a v : Nat) (hurt : Bool) : List (Nat × Nat) → ERes State
  | [] => .ok s
  | (o, n) :: l =>
    match s.kvWrite c pool (a + o) ⟨n, v / 2 ^ (8 * o) % 2 ^ (8 * n), if hurt then ones n else 0⟩ with
    | .error e => .error e
    | .ok s => s.fillPut c pool a v hurt l

/-- One token of every head. -/
def State.fillHeads (s : State) (c : Cmd) (f : FDesc) (e t : Nat) (y : Filled) : Nat → Nat → Bool → ERes (State × Bool)
  | 0, _, ovf => .ok (s, ovf)
  | k + 1, hh, ovf =>
    match s.kvSect c f e hh (if entSealed e then [(0, 32), (64, 2 * f.d)] else []) with
    | .error x => .error x
    | .ok x =>
      let (v, o) := fillSect f x hh t y
      let (pool, a) := f.sect (entSealed e) (entPbn e) hh
      match s.fillPut c pool a v y.hurt (fillRanges x v t) with
      | .error x => .error x
      | .ok s => s.fillHeads c f e t y k (hh + 1) (ovf || o)

/-- Gap tokens filled one after the other. -/
def State.fillTokens (s : State) (c : Cmd) (t : Table) (f : FDesc) (e lb : Nat) : List Nat → Bool → ERes (State × Bool)
  | [], ovf => .ok (s, ovf)
  | k :: ks, ovf =>
    match s.fillToken c t f (16 * lb + k) with
    | .error x => .error x
    | .ok y =>
      match s.fillHeads c f e k y f.h 0 ovf with
      | .error x => .error x
      | .ok (s, ovf) => s.fillTokens c t f e lb ks ovf

/-- One step of filling a block's gaps (R175, R183, R185, R187 mode 0): it takes BUSY, which it waits for, fills, and updates the entry once
the fill's writes have been performed. aux is [BUSY held, place and byte of BUSY, filled, the set F that it filled, OVF]; the answer says
whether the block is done. -/
def State.fillGaps (s : State) (c : Cmd) (tbl layer lb : Nat) : ERes (State × Cmd × Bool) :=
  s.afterWrites c <|
  match s.kvTable c tbl with
  | .error e => .error e
  | .ok t =>
    if t.nl ≤ layer then .error (.fault 7 layer t.nl)
    else if t.nbmax ≤ lb then .error (.fault 7 lb t.nbmax)
    else
      match s.kvDesc c t.fdt layer with
      | .error e => .error e
      | .ok f =>
        let va := t.entry layer lb
        match s.kvWord c tbl va with
        | .error e => .error e
        | .ok e =>
          if !c.holds then
            if entBusy e then .error .hold
            else if !entV e then .error (.fault 6 va e)
            else (s.takeBusy c tbl va e [0, 0, 0]).map (fun r => (r.1, r.2, false))
          else if c.aux.getD 3 0 = 0 then
            (s.fillTokens c t f e lb ((List.range 16).filter (fun k => bit (entGap e) k)) false).map (fun r =>
              (r.1, { c with aux := c.aux.take 3 ++ [1, entGap e, b2n r.2] }, false))
          else
            let e' := if c.aux.getD 5 0 = 1 then setFld e 61 61 1 else e
            (s.kvPut c tbl va (setFld (setFld e' 60 45 (entGap e - (entGap e &&& c.aux.getD 4 0))) 32 32 0)).map
              (fun s => (s, { c with aux := [] }, true))

/-! ### FILL modes 1 to 3 (R187) -/

/-- A mask of poisoned bytes: of those at places of a list, each over `n` bytes. -/
def hurtAt (n : Nat) (l : List (Nat × Bool)) : Nat := l.foldl (fun m t => if t.2 then m ||| ones n * 2 ^ t.1 else m) 0

/-- The poisoned bytes of a new head section (R91, R187): each one that a poisoned element goes into, through its scale too, and the
outlier list where any key is poisoned. -/
def reblockHurt (open_ : Bool) (d gap : Nat) (key val : Nat → Nat → Bool) : Nat :=
  let ts := (List.range 16).filter (fun t => !bit gap t)
  let cs := List.range d
  let all (f : Nat → Nat → List (Nat × Bool)) : List (Nat × Bool) := (ts.map (fun t => (cs.map (fun c => f t c)).flatten)).flatten
  if open_ then hurtAt 2 (all (fun t c => [(2 * (t * d + c), key t c), (32 * d + 2 * (t * d + c), val t c)]))
  else
    let chan := cs.map (fun c => ts.any (fun t => key t c))
    let tok := (List.range 16).map (fun t => ts.contains t && cs.any (fun c => val t c))
    hurtAt 32 [(0, chan.any id)] ||| hurtAt 2 (cs.map (fun c => (64 + 2 * c, chan.getD c false)))
      ||| hurtAt 1 (all (fun t c => [(64 + 2 * d + t * (d / 2) + c / 2, chan.getD c false)]))
      ||| hurtAt 2 (ts.map (fun t => (64 + 10 * d + 2 * t, tok.getD t false)))
      ||| hurtAt d (ts.map (fun t => (128 + 10 * d + t * d, tok.getD t false)))

/-- The head sections of the new block, with OVF. -/
def State.reblock (s : State) (c : Cmd) (f : FDesc) (e gap pbn : Nat) : Nat → Nat → Bool → ERes (State × Bool)
  | 0, _, ovf => .ok (s, ovf)
  | k + 1, hh, ovf =>
    match s.kvSect c f e hh (needRanges (entSealed e) f.d true true ((List.range 16).filter (fun t => !bit gap t))) with
    | .error x => .error x
    | .ok x =>
      let to32 (p : FV × Bool) : FV := if c.op = 2 then valueOf (bitsOf p.1 0 0 true) 0 else p.1
      let key (t ch : Nat) := to32 (x.key t ch)
      let val (t ch : Nat) := to32 (x.value t ch)
      let (v, o) := if c.op = 3 then (openSect f.d gap key val, false) else sealSect f.d gap key val
      let (pool, a) := f.sect (c.op != 3) pbn hh
      let n := if c.op = 3 then 64 * f.d else f.hsec
      match s.kvWrite c pool a ⟨n, v, if x.p = 0 then 0 else reblockHurt (c.op == 3) f.d gap (fun t ch => (x.key t ch).2) (fun t ch => (x.value t ch).2)⟩ with
      | .error x => .error x
      | .ok s => s.reblock c f e gap pbn k (hh + 1) (ovf || o)

/-- Stage 0 takes BUSY; stage 1 writes the new block; stage 2 swaps once no pin holds the old block and the retire list has room for it;
stage 3 writes its record and stage 4 raises COUNT. aux is [BUSY held, place and byte of BUSY, stage, G, OVF, old entry]. -/
def State.swapStep (s : State) (c : Cmd) : ERes (State × Cmd) :=
  s.afterWrites c <|
  let ret := c.stg.getD 1 0
  let tbl := c.stg.getD 0 0
  let layer := fld (c.stg.getD 3 0) 7 0
  let lb := fld (c.stg.getD 2 0) 31 0
  let pbn := fld (c.stg.getD 4 0) 31 0
  match s.kvTable c tbl with
  | .error e => .error e
  | .ok t =>
    if t.nl ≤ layer then .error (.fault 7 layer t.nl)
    else if t.nbmax ≤ lb then .error (.fault 7 lb t.nbmax)
    else
      match s.kvDesc c t.fdt layer with
      | .error e => .error e
      | .ok f =>
        let va := t.entry layer lb
        let stage := c.aux.getD 3 0
        match s.kvWord c tbl va with
        | .error e => .error e
        | .ok e =>
          if stage = 3 then (s.retireRec c ret (c.aux.getD 6 0) layer).map (fun s => (s, { c with aux := setAt c.aux 3 4 }))
          else if stage = 4 then (s.retireCount c ret).map (fun s => (s, { c with fin := true, aux := [] }))
          else if !c.holds then
            if entBusy e then .error .hold
            else if !entV e then .error (.fault 6 va e)
            else if entSealed e != (c.op != 1) then .error (.fault 9 va e)
            else s.takeBusy c tbl va e [1, entGap e, 0]
          else if stage = 1 then
            match s.reblock c f e (c.aux.getD 4 0) pbn f.h 0 false with
            | .error x => .error x
            | .ok (s, ovf) => .ok (s, { c with aux := c.aux.take 3 ++ [2, c.aux.getD 4 0, b2n ovf] })
          else if s.pinned (pinKey c va) (entVer e) then .error .hold
          else
            match s.retireRoom c ret with
            | .error x => .error x
            | .ok _ =>
              let n := setFld (setFld (setFld e 31 0 pbn) 44 33 (entVer e + 1)) 32 32 0
              let n := setFld (setFld n 62 62 (b2n (c.op != 3))) 61 61 (c.aux.getD 5 0)
              (s.kvPut c tbl va n).map (fun s => (s, { c with aux := [0, 0, 0, 3, 0, 0, e] }))

def State.fillStep (s : State) (c : Cmd) : ERes (State × Cmd) :=
  if c.op = 0 then
    let first := fld (c.stg.getD 2 0) 31 0
    if fld (c.stg.getD 2 0) 63 32 ≤ c.row then .ok (s, { c with fin := true })
    else
      (s.fillGaps c (c.stg.getD 0 0) (fld (c.stg.getD 3 0) 7 0) (first + c.row)).map (fun r =>
        (r.1, if r.2.2 then { r.2.1 with row := c.row + 1 } else r.2.1))
  else s.swapStep c

end Sys2Proof.Machine
end

