-- ==== Sys2Proof/Machine/Coll.lean ====
section
/-! DEFINITION. The collective engine (R432 to R435) and the exit-notice unit (R436 to R440). -/

namespace Sys2Proof.Machine

/-! ### COLL. aux is [0, window, stage, domain + 1 while it waits, next, opened, participants heard]: stage 0 opens, 1
announces, 2 sends, 3 waits. -/

def collN (stg : List Nat) : Nat := fld (stg.getD 3 0) 7 0 + 1
def collRank (stg : List Nat) : Nat := fld (stg.getD 3 0) 15 8
def collRows (stg : List Nat) : Nat := fld (stg.getD 3 0) 44 32
def collTd (stg : List Nat) : Nat := fld (stg.getD 4 0) 13 8
def collOp (stg : List Nat) : Nat := fld (stg.getD 4 0) 3 2

/-- The core and offset of DST. -/
def collDst (c : Cmd) : ERes (Nat × Nat) :=
  let ea := c.stg.getD 1 0 % 2 ^ 27
  match clusterAddr c.lcore accSize ea (256 * collRows c.stg) with
  | .error k => .error (.fault 4 k ea)
  | .ok r => .ok r

/-- The physical address of a place in an accumulator window. -/
def State.accPA (s : State) (c : Cmd) (u o : Nat) : Nat :=
  (s.die (dieOf c.lcore)).pkg * 2 ^ 44 + 0x500_0000_0000 + dieOf u * 2 ^ 28 + clusterOf u % 4 * 2 ^ 26 + coreIn u * 2 ^ 21 + o

/-- Entry p of PLIST: the physical address of participant p's DST (R314, R432). -/
def State.collPeer (s : State) (c : Cmd) (p : Nat) : ERes Nat :=
  match s.engReadVa c (c.stg.getD 2 0 + 8 * p) 8 with
  | .error e => .error e
  | .ok d =>
    if fld d.v 63 63 = 0 || fld d.v 62 57 != 0 then .error (.fault 4 1 d.v)
    else
      match s.engPhys c (d.v % 2 ^ 57) true with
      | .error e => .error e
      | .ok ph => if isAccWin ph.pa then .ok ph.pa else .error (.fault 4 5 d.v)

/-- The domain opens as TKOPEN opens it, and DST takes its initial values (R433). -/
def State.collOpen (s : State) (c : Cmd) : ERes (State × Cmd) :=
  match collDst c with
  | .error e => .error e
  | .ok (u, o) =>
    let td := collTd c.stg
    let l := s.lcore u
    let d := l.dom td
    let again := d.state == 1 && d.owner == c.task && d.count == collRows c.stg * collN c.stg && d.base == 0
    if d.state != 0 && !(again && c.aux.getD 5 0 == 1) then .error (.fault 12 0 0)
    else
      let fillW := if collOp c.stg = 0 then 0 else if collOp c.stg = 1 then 0x7F80_0000 else 0xFF80_0000
      let l := if again then l else l.setDom td (d.openAs c.task c.asid 0 (collRows c.stg * collN c.stg) (c.aux.getD 1 0)).2
      let l := if bit (c.stg.getD 4 0) 4 && !again
        then l.storeRaw .acc none (spread o (256 * collRows c.stg) (joinEl 32 (List.replicate (64 * collRows c.stg) fillW))) false true else l
      .ok (s.setLcore u l, { c with aux := [0, c.aux.getD 1 0, 1, 0, 0, 1, 0] })

/-- COLLRDY enters the ready table of a die of this package, or leaves as a message (R433). -/
def State.collReady (s : State) (c : Cmd) (me peer : Nat) : ERes State :=
  let d := homeDie peer
  if s.linked (dieOf c.lcore) peer then
    if 256 ≤ (s.die d).collRdy.length then .error .hold
    else .ok (s.modDie d (fun x => { x with collRdy := x.collRdy ++ [(me, collTd c.stg)] }))
  else .ok (s.sendTo (dieOf c.lcore) 18 (peer / 2 ^ 44) d (me % 2 ^ 44) 0 [collTd c.stg] { task := c.task, num := c.rel, lane := c.id })

/-- Row j of SRC as ticketed parts to a participant (R433). -/
def State.collRow (s : State) (c : Cmd) (peer j : Nat) : ERes State :=
  match s.engRead c (c.stg.getD 0 0) ((256 * j : Nat) : Int) 256 with
  | .error e => .error e
  | .ok d =>
    let n := collN c.stg
    let pa := peer + 256 * j
    let o := peer % 2 ^ 44 - 0x500_0000_0000
    let u := o / 2 ^ 28 * 96 + o / 2 ^ 26 % 4 * 24 + o / 2 ^ 21 % 32
    .ok ((List.range 4).foldl (fun s i =>
      let p : Part := { td := collTd c.stg, ticket := j * n + collRank c.stg, op := collOp c.stg, mask := ones 64, lane0 := 16 * i
                        off := o % 2 ^ 21 + 256 * j + 64 * i, pay := (List.range 16).map (fun k => el 32 d.v (16 * i + k))
                        asid := c.asid, lcore := u, pcore := c.pcore, task := c.task, addr := pa + 64 * i, cmd := c.id, id := s.fresh }
      if s.atOnce (dieOf c.lcore) pa c.task c.rel then { s with parts := s.parts ++ [p] }.bump
      else s.sendTo (dieOf c.lcore) 5 (pa / 2 ^ 44) (homeDie pa) ((pa + 64 * i) % 2 ^ 44) 0
        [p.ticket + p.td * 2 ^ 32 + p.op * 2 ^ 38 + p.asid * 2 ^ 40 + p.lane0 * 2 ^ 52, p.mask, joinEl 32 p.pay] c.sender) s)

def State.collSend (s : State) (c : Cmd) (peer : Nat) : Nat → Nat → ERes State
  | 0, _ => .ok s
  | f + 1, j =>
    match s.collRow c peer j with
    | .error e => .error e
    | .ok s => s.collSend c peer f (j + 1)

/-- One stage of a COLL (R433). -/
def State.collStep (s : State) (c : Cmd) : ERes (State × Cmd) :=
  let n := collN c.stg
  let td := collTd c.stg
  let i := c.aux.getD 4 0
  let got := c.aux.getD 6 0
  let next (stage i key got : Nat) : Cmd := { c with aux := [0, c.aux.getD 1 0, stage, key, i, 1, got] }
  match c.aux.getD 2 0 with
  | 0 => s.collOpen c
  | 1 =>
    if n ≤ i then .ok (s, next 2 0 0 0)
    else
      match collDst c, s.collPeer c i with
      | .error e, _ | _, .error e => .error e
      | .ok (u, o), .ok peer => (s.collReady c (s.accPA c u o) peer).map (fun s => (s, next 1 (i + 1) 0 0))
  | 2 =>
    if n ≤ i then
      match collDst c with
      | .error e => .error e
      | .ok (u, _) => .ok (s, next 3 0 (u * 64 + td + 1) got)
    else
      match s.collPeer c ((collRank c.stg + i) % n) with
      | .error e => .error e
      | .ok peer =>
        let d := dieOf c.lcore
        let heard : Option State := if i < got then some s else
          (findIdx? (fun t => t == (peer, td)) (s.die d).collRdy 0).map (fun k => s.modDie d (fun x => { x with collRdy := removeAt x.collRdy k.1 }))
        match heard with
        | none => .error .hold
        | some s => (s.collSend c peer (collRows c.stg) 0).map (fun s => (s, next 2 (i + 1) 0 (Nat.max got (i + 1))))
  | _ =>
    match collDst c with
    | .error e => .error e
    | .ok (u, _) =>
      if ((s.lcore u).dom td).done && s.answered c then
        .ok ((s.dropReady c.id).modLcore u (fun l => (l.closeDom td c.task false).2), { c with fin := true, aux := [0, 0, 4, 0, 0, 0, 0] })
      else .error .hold

/-- COLLPEER of the running collectives of a domain whose gap event is posted (R434). -/
def State.collGap (s : State) (l td next : Nat) : State :=
  { s with dies := s.dies.map (fun d => (d.1, { d.2 with collQ := d.2.collQ.map (fun c =>
      match collDst c with
      | .ok (u, _) => if c.started && u == l && collTd c.stg == td && c.aux.getD 2 0 != 0
          then { c with fault := some { cause := 13, d0 := next, d1 := next % collN c.stg, d2 := 4 * 16 + 13 } } else c
      | .error _ => c) })) }

/-! ### Notices -/

/-- One notice applied to a table (R210); words and counts are read and written under their blocks' own codes. -/
def LCore.applyNotice (l : LCore) (tbl origin blk : Nat) : LCore :=
  let rd (o : Nat) := l.readN .sp none (tbl + o) 4
  let wr (l : LCore) (o v : Nat) : LCore := l.storeRaw .sp none (spread (tbl + o) 4 (v % 2 ^ 32)) false false
  let w := rd (64 + 4 * origin)
  if rd 0 % 2 ^ 13 ≤ origin || !bit w 31 then wr l 8 (rd 8 + 1)
  else
    let l' := if w % 4 = 2 then l else wr l (64 + 4 * origin) (setFld (setFld (setFld w 1 0 2) 16 9 blk) 29 29 1)
    wr l' 4 (rd 4 + 1)

/-- A notice reaches a die: applied, queued, or refused (R439). -/
def State.takeNotice (s : State) (d : Nat) (m : Notice) : Option State :=
  match (s.die d).regs.find? (fun r => r.key == m.key) with
  | some r => some (s.modLcore r.lcore (fun l => l.applyNotice r.off m.origin m.blk))
  | none =>
    if 64 ≤ (s.die d).notices.length then none
    else some (s.modDie d (fun x => { x with notices := x.notices ++ [m] }))

/-- The key that a NOTE names: STEP above STREAM. -/
def noteKey (stg : List Nat) : Nat := fld (stg.getD 4 0) 63 32 * 2 ^ 16 + fld (stg.getD 4 0) 15 0

/-- One entry of a send (R437). At most 64 notices await their answer. -/
def State.noteSendStep (s : State) (c : Cmd) : ERes (State × Cmd) :=
  let w (i : Nat) := c.stg.getD i 0
  let k := c.row
  let pkg := fld (w 3) 15 8
  let die := fld (w 3) 2 0
  if w 2 ≤ k then if s.answered c then .ok (s, { c with fin := true }) else .error .hold
  else
    match s.engBare c (w 0 + 2 * k) 2 with
    | .error e => .error e
    | .ok (_, _, e) =>
      if bit e 15 then .ok (s, { c with row := k + 1 })
      else
        let blk := fld (w 5) 7 0
        let d := dieOf c.lcore
        if pkg = (s.die d).pkg && s.ringOpen d die && s.ringOpen die d then
          match s.takeNotice die ⟨noteKey c.stg, e % 4096, blk⟩ with
          | none => .error .hold
          | some s => .ok (s, { c with row := k + 1 })
        else if 64 ≤ ((s.die d).copies.filter (fun q => q.req == cmdKey c.id)).length then .error .hold
        else .ok (s.sendTo d 11 pkg die 0 0 [noteKey c.stg % 2 ^ 16 + e % 4096 * 2 ^ 16 + blk * 2 ^ 28, noteKey c.stg / 2 ^ 16] c.sender,
          { c with row := k + 1 })

/-- Registration (R437, R438). -/
def State.noteRegister (s : State) (c : Cmd) : ERes (State × Cmd) :=
  let d := dieOf c.lcore
  match s.engBare c (c.stg.getD 1 0) 64 with
  | .error e => .error e
  | .ok (u, o, h) =>
    let x := s.die d
    let key := noteKey c.stg
    if headerBad h then .error (.fault 14 1 0)
    else if bit (el 32 h 0) 31 then .error (.fault 14 2 0)
    else if x.regs.any (fun r => r.key == key) then .error (.fault 14 3 0)
    else if 64 ≤ x.regs.length then .error (.fault 14 4 0)
    else
      let mine := x.notices.filter (fun m => m.key == key)
      let s := s.modLcore u (fun l =>
        let l := mine.foldl (fun l m => l.applyNotice o m.origin m.blk) l
        l.storeRaw .sp none (spread o 4 (setFld (l.readN .sp none o 4) 31 31 1)) false false)
      .ok (s.modDie d (fun x => { x with notices := x.notices.filter (fun m => m.key != key), regs := x.regs ++ [⟨key, u, o⟩] }), { c with fin := true })

def State.noteDeregister (s : State) (c : Cmd) : ERes (State × Cmd) :=
  let d := dieOf c.lcore
  let key := noteKey c.stg
  match (s.die d).regs.find? (fun r => r.key == key) with
  | none => .error (.fault 14 5 0)
  | some r =>
    let s := s.modLcore r.lcore (fun l => l.storeRaw .sp none (spread r.off 4 (setFld (l.readN .sp none r.off 4) 31 31 0)) false false)
    .ok (s.modDie d (fun x => { x with regs := x.regs.filter (fun r => r.key != key) }), { c with fin := true })

def State.notePurge (s : State) (c : Cmd) : ERes (State × Cmd) :=
  let key := noteKey c.stg
  .ok (s.modDie (dieOf c.lcore) (fun x => { x with
    notices := x.notices.filter (fun m => !(m.key % 2 ^ 16 == key % 2 ^ 16 && m.key / 2 ^ 16 < key / 2 ^ 16)) }), { c with fin := true })

end Sys2Proof.Machine
end

