-- ==== Sys2Proof/Machine/EngRun.lean ====
section
/-! DEFINITION. Running an engine command: when it may go on (R136, R140, R144, R155, R178, R183, R299), its run to its end or
to what stops it, its completion (R142, R143) and its fault (R155). -/

namespace Sys2Proof.Machine

/-- One step of a command. -/
def State.cmdStep (s : State) (c : Cmd) : ERes (State × Cmd) :=
  match c.kind, c.op with
  | 0, _ => s.copyStep c
  | 1, 0 => s.gathStep c
  | 1, 1 => s.exsaveStep c
  | 1, _ => s.truncStep c
  | 2, 0 => s.sieveStep c
  | 2, _ => s.restoStep c
  | 3, _ => s.fillStep c
  | 4, _ => s.collStep c
  | _, 0 => s.noteSendStep c
  | _, 1 => s.noteRegister c
  | _, 2 => s.noteDeregister c
  | _, _ => s.notePurge c

/-- The lines that a step was brought serve that step alone (R89, R426). -/
def State.usedLines (s : State) (c : Cmd) : State :=
  if s.got.any (fun g => g.req == cmdKey c.id) then s.dropGot (fun r => r == cmdKey c.id) else s

/-- Steps until the command ends or stops. -/
def State.runCmd : Nat → State → Cmd → State × Cmd × Option EErr
  | 0, s, c => (s, c, none)
  | f + 1, s, c =>
    if c.fin then (s, c, none)
    else
      match s.cmdStep c with
      | .error e => (s, c, some e)
      | .ok (s, c) => State.runCmd f (s.usedLines c) c

/-- More steps than any command has. -/
def cmdFuel : Nat := 2 ^ 25

/-- The queue of a kind and unit: physical core, cluster or die (R136). -/
def QRef.core (q : QRef) : Nat := if q.kind = 0 || q.kind = 2 then q.unit else if q.kind = 1 then 24 * q.unit else 96 * q.unit

def State.queueAt (s : State) (q : QRef) : List Cmd := s.queueOf q.kind (QRef.core q)

def State.putQueue (s : State) (q : QRef) (l : List Cmd) : State := s.setQueue q.kind (QRef.core q) l

/-- Whether nothing outside the command's own accesses holds it (R83, R140, R181): its release carries the earlier stores of its context,
which must be performed first (R345). -/
def State.cmdReady (s : State) (c : Cmd) : Bool :=
  !c.fin && c.fault.isNone && c.waitx.isNone
  && (c.started || c.released + c.h.dly ≤ (s.core c.pcore).cyc)
  && s.dies.all (fun d => d.2.copies.all (fun k => !(k.m.kind == 3 && k.req == 0 && k.task == c.task && k.num ≤ c.rel)))
  && (s.die (dieOf c.lcore)).copies.all (fun k => !(k.req == cmdKey c.id && k.m.kind == 1))
  && s.dies.all (fun d => d.2.demands.all (fun x => x.cmd.id != c.id))

/-- Whether the command waits behind an earlier one of its context that is parked (R155). -/
def State.parkedKind (s : State) (c : Cmd) : Bool := (s.task c.task).parked.any (fun p => p.1 == c.kind && p.2.rel < c.rel)

/-! ### Bytes that commands of one queue both touch (R144) -/

/-- Rows of bytes of one memory: 0 for physical memory, 1 for a scratchpad under a rotation code, 2 for accumulator memory of a logical core. -/
structure Span where
  mem : Nat
  unit : Nat
  base : Nat
  width : Nat
  stride : Nat := 0
  count : Nat := 1
  code : Nat := 0
deriving DecidableEq, Repr

/-- Whether a row touches one of `n` bytes from `a`; rows do not overlap. -/
def Span.hits (x : Span) (a n : Nat) : Bool :=
  let first := if x.stride = 0 then 0 else (a - x.base) / x.stride
  (List.range (if x.stride = 0 then 1 else n / x.stride + 2)).any (fun k =>
    let r := x.base + (first + k) * x.stride
    first + k < x.count && r < a + n && a < r + x.width)

/-- Whether two spans share a byte. Under two codes a block's bytes are permuted in two ways: it counts whole (R110). -/
def Span.meets (x y : Span) : Bool :=
  x.mem == y.mem && x.unit == y.unit && (List.range x.count).any (fun i =>
    let a := x.base + i * x.stride
    if x.code = y.code then y.hits a x.width else y.hits (a / 2048 * 2048) (ceilDiv (a % 2048 + x.width) 2048 * 2048))

def spansMeet (a b : List Span) : Bool := a.any (fun x => b.any (fun y => x.meets y))

/-- What a command reads and writes, and whether that is all: of what is not translated nothing is known. -/
structure Touch where
  reads : List Span := []
  writes : List Span := []
  known : Bool := true
deriving DecidableEq, Repr

def Touch.join (a b : Touch) : Touch := ⟨a.reads ++ b.reads, a.writes ++ b.writes, a.known && b.known⟩
def Touch.all (l : List Touch) : Touch := l.foldl Touch.join {}

/-- `n` bytes from a virtual address of a command, read or written, page by page. -/
def State.vaTouch (s : State) (c : Cmd) (write : Bool) : Nat → Nat → Nat → Touch
  | 0, _, _ => {}
  | f + 1, va, n =>
    if n = 0 then {}
    else
      let k := Nat.min n (2 ^ 16 - va % 2 ^ 16)
      let here : Touch := match s.xlate c.xl c.asid va false with
        | .error _ => ⟨[], [], false⟩
        | .ok ph =>
          let x : Span := match s.isLocal (dieOf c.lcore) ph.pa, s.home ph.pa with
            | true, .acc u o => { mem := 2, unit := u, base := o, width := k }
            | _, _ => { mem := 0, unit := 0, base := ph.pa, width := k }
          if write then ⟨[], [x], true⟩ else ⟨[x], [], true⟩
      here.join (s.vaTouch c write f (va + k) (n - k))

def State.touchVa (s : State) (c : Cmd) (write : Bool) (va n : Nat) : Touch := s.vaTouch c write (n / 2 ^ 16 + 2) va n

/-- `count` rows of `width` bytes from an address word; those of global memory follow one another. -/
def State.touchRows (s : State) (c : Cmd) (write : Bool) (w width stride count : Nat) : Touch :=
  if fld w 63 62 = 0 then s.touchVa c write (fld w 56 0) (width * count)
  else
    let sp := fld w 63 62 = 1
    let x : Span := { mem := if sp then 1 else 2, unit := clusterOf c.lcore * 24 + coreNamed c.lcore w, base := fld w 20 0
                      width := width, stride := stride, count := count, code := if sp then fld w 61 60 else 0 }
    if write then ⟨[], [x], true⟩ else ⟨[x], [], true⟩

/-- What follows a read that the command makes: a fault ends what it touches, and what waits is not known. -/
def touchOf {α : Type} (r : ERes α) (f : α → Touch) : Touch :=
  match r with
  | .ok a => f a
  | .error (.fault ..) => {}
  | .error _ => ⟨[], [], false⟩

/-- GATH (R179, R180). -/
def State.gathTouch (s : State) (c : Cmd) : Touch :=
  let w (k : Nat) := c.stg.getD k 0
  let n := fld (w 3) 63 32
  let lb0 := fld (w 3) 31 0 / 16
  let nb := (fld (w 3) 31 0 + n - 1) / 16 - lb0 + 1
  let heads := fld (w 4) 15 12 + 1
  let layer := fld (w 4) 7 0
  (s.touchVa c false (fld (w 0) 56 0) 256).join (touchOf (s.gathOpen c) (fun (t, f) =>
    let width := f.d * typeWidth (otType (fld (w 4) 17 16)) / 8
    let dst (off : Bool) (a st : Nat) : Touch := if off then {} else s.touchRows c true a width st (heads * n)
    let block (lb : Nat) : Touch := touchOf (s.kvWord c t.tbl (t.entry layer lb)) (fun e =>
      s.touchVa c false (f.sect (entSealed e) (entPbn e) (fld (w 4) 11 8)).2 (heads * if entSealed e then f.hsec else 64 * f.d))
    Touch.all ([s.touchVa c false (t.fdt + 128 * layer) 128, s.touchVa c false (t.entry layer lb0) (8 * nb),
      dst (bit (w 4) 18) (w 1) (w 5), dst (bit (w 4) 19) (w 2) (w 6)] ++ (List.range nb).map (fun i => block (lb0 + i)))))

/-- One list entry of EXSAVE (R188, R189). -/
def State.exsaveTouch (s : State) (c : Cmd) (k : Nat) : Touch :=
  let w (i : Nat) := c.stg.getD i 0
  let lf := fld (w 4) 7 0
  touchOf (s.engRead c (w 1) ((16 * k : Nat) : Int) 16) (fun ent =>
    let tbl := el 64 ent.v 0
    let pos := fld (el 64 ent.v 1) 31 0
    if bit (el 64 ent.v 1) 63 then {}
    else
      (s.touchVa c false tbl 256).join (touchOf (s.kvTable c tbl) (fun t =>
        (s.touchVa c false (t.fdt + 128 * lf) 128).join (touchOf (s.kvDesc c t.fdt lf) (fun f =>
          Touch.all ([s.touchRows c false (w 0 + k * w 3) (2 * f.dm) 0 1, s.touchVa c true (t.xbase + 2 * f.dm * pos) (2 * f.dm)]
            ++ (List.range (fld (w 4) 15 8 + 1 - lf)).map (fun i => s.touchVa c true (t.entry (lf + i) (pos / 16)) 8)))))))

/-- TRUNC (R190). -/
def State.truncTouch (s : State) (c : Cmd) : Touch :=
  let w (k : Nat) := c.stg.getD k 0
  let cut := fld (w 3) 31 0
  (s.touchVa c true (w 0) 256).join (touchOf (s.kvTable c (w 0)) (fun t =>
    let s0 := if c.row = 0 then t.slen else c.aux.getD 3 0
    let m := ceilDiv s0 16 - ceilDiv cut 16
    (touchOf (s.kvWord c (w 1) (w 1)) (fun r => s.touchVa c true (w 1 + 8 + 8 * fld r 31 0) (8 * Nat.min (m * t.nl) (fld r 63 32 - fld r 31 0)))).join
      (Touch.all (s.touchVa c true (w 1) 8 :: (List.range t.nl).map (fun l => s.touchVa c true (t.entry l (cut / 16)) (8 * (ceilDiv s0 16 - cut / 16)))))))

/-- What a command of a kind whose commands run side by side reads and writes. -/
def State.touched (s : State) (c : Cmd) : Touch :=
  let w (k : Nat) := c.stg.getD k 0
  if c.kind = 4 then
    let n := 256 * fld (w 3) 44 32
    Touch.all [s.touchRows c false (w 0) n 0 1, s.touchVa c false (fld (w 2) 56 0) (8 * (fld (w 3) 7 0 + 1)), s.touchRows c true (w 1) n 0 1]
  else if c.op = 0 then s.gathTouch c
  else if c.op = 1 then
    (s.touchRows c false (w 1) (16 * w 2) 0 1).join (Touch.all ((List.range (w 2 - c.row)).map (fun i => s.exsaveTouch c (c.row + i))))
  else s.truncTouch c

/-- Whether a command must wait for an earlier one: one of the two writes what both touch, or what the earlier one touches is not known yet. -/
def State.clash (s : State) (a b : Cmd) : Bool :=
  let x := s.touched a
  let y := s.touched b
  !x.known || spansMeet x.writes (y.reads ++ y.writes) || spansMeet x.reads y.writes

/-- Whether a command is the first of its context in a queue of which `ahead` stand before it. -/
def isHead (ahead : List Cmd) (c : Cmd) : Bool := ahead.all (fun d => d.task != c.task)

/-- Heads of their contexts among the first `n` of a gather queue that have not started and may (R155, R178). -/
def State.headsAhead (s : State) (l : List Cmd) (n : Nat) : Nat :=
  ((l.take n).zipIdx.filter (fun t => !t.1.started && isHead (l.take t.2) t.1 && !s.parkedKind t.1)).length

/-- Whether a command is still within its DLY core cycles (R140). -/
def State.delayed (s : State) (c : Cmd) : Bool := !c.started && (s.core c.pcore).cyc < c.released + c.h.dly

/-- The position that a queue lets go on, by its kind (R83, R140, R144, R155, R178, R183, R432, R436); none while all wait. Of a gather queue's
eight places those that are free go to the heads released earliest. -/
def State.mayRun (s : State) (q : QRef) : Bool :=
  let l := s.queueAt q
  match l[q.pos]? with
  | none => false
  | some c =>
    let ahead := l.take q.pos
    let running := (l.filter (fun d => d.started)).length
    let apart := ahead.all (fun d => d.waitx.isNone && (s.parkedKind d || !s.clash d c))
    s.cmdReady c && !s.parkedKind c && !ahead.any s.delayed &&
    (match q.kind with
     | 1 => isHead ahead c && (c.started || running + s.headsAhead l q.pos < 8) && apart
     | 3 => ahead.all (fun d => s.parkedKind d) && ((s.die q.unit).demands.isEmpty || c.holds)
     | 4 => (c.started || (ahead.all (fun d => d.started || s.parkedKind d) && running < 4)) && apart
     | 5 => if c.op = 0 then l.all (fun d => d.op == 0 || s.parkedKind d) && ahead.all (fun d => s.parkedKind d)
            else ahead.all (fun d => d.op == 0 || s.parkedKind d)
     | _ => ahead.all (fun d => s.parkedKind d))

/-- Whether a COMMAND_START of the position does anything. -/
def State.canStart (s : State) (q : QRef) : Bool :=
  s.mayRun q &&
  (match (s.queueAt q)[q.pos]? with
   | none => false
   | some c =>
     !c.started || (match s.cmdStep c with
       | .error .hold => false
       | .error (.xl ..) => s.fqRoom (dieOf c.lcore)
       | _ => true))

/-- The destination core that a fault's detail word 3 names (R154): of a GATH that of its keys, or of its values where it has no keys. -/
def State.faultCore (s : State) (c : Cmd) : Nat :=
  let w := if c.kind = 1 && bit (c.stg.getD 4 0) 18 then c.stg.getD 2 0 else c.stg.getD 1 0
  if c.kind = 0 && bit (c.stg.getD 5 0) 3 then (c.aux.drop 1).headD 0
  else if (c.kind = 0 || c.kind = 2 || c.kind = 4 || (c.kind = 1 && c.op = 0)) && (fld w 63 62 = 1 || fld w 63 62 = 2) then coreNamed c.lcore w
  else coreIn c.lcore

/-- Row and byte reached (R154, R182). -/
def State.faultAt (s : State) (c : Cmd) : Nat × Nat :=
  match c.kind, c.op with
  | 0, _ => s.copyAt c
  | 1, 0 => (fld (c.stg.getD 3 0) 31 0 / 16 + c.row, 0)
  | 1, 2 => (match truncEntry (fld (c.stg.getD 3 0) 31 0) (c.aux.getD 3 0) (c.aux.getD 4 0) c.row with
      | some (_, lb, _) => lb
      | none => 0, 0)
  | 2, 0 => (c.row - 1, 0)
  | 2, _ => ((s.lcore c.lcore).permEnt (c.stg.getD 7 0 + c.row) % 4096, 0)
  | 3, _ => (fld (c.stg.getD 2 0) 31 0 + c.row, 0)
  | 4, _ => (c.aux.getD 4 0, 0)
  | _, _ => (c.row, 0)

/-- The ENGINE trap of a running command (R154). -/
def State.faultTrap (s : State) (c : Cmd) (code d0 d1 : Nat) : Trap :=
  let (r, b) := s.faultAt c
  { cause := 13, d0 := d0, d1 := d1, d2 := c.kind * 16 + code
    d3 := s.faultCore c * 2 ^ 48 + r % 2 ^ 13 * 2 ^ 32 + b % 2 ^ 21, slot := 9, async := true }

/-- A waiting GATH holds a pin on the entry it reads (R177). -/
def State.pinWaiting (s : State) (c : Cmd) : State :=
  if c.kind = 1 && c.op = 0 then
    match s.gathPin c with
    | none => s
    | some (k, v) => (s.unpin c).modCluster (clusterOf c.pcore) (fun x => { x with pins := x.pins ++ [⟨k, v, c.id⟩] })
  else s

/-- What stopped a command is left with it, and the command at its place. -/
def State.stopCmd (s : State) (c : Cmd) : Option EErr → State × Cmd
  | none => (s, c)
  | some .hold => (s.pinWaiting c, c)
  | some (.fault code d0 d1) => ((s.dropBusy c).unpin c, { c with fault := some (s.faultTrap c code d0 d1), aux := if c.holds then setAt c.aux 0 0 else c.aux })
  | some (.xl code va w) =>
    if s.fqRoom (dieOf c.lcore) then
      let (s, n) := (s.pinWaiting c).postFault (dieOf c.lcore) va c.asid code w c.kind c.pcore
      (s, { c with waitx := some n })
    else (s, c)
  | some (.far pa) => (s.sendHome (dieOf c.lcore) 1 pa 0 [8] c.sender, c)
  | some (.demand d) =>
    ((s.unpin c).modDie (dieOf c.pcore) (fun x => { x with demands := x.demands ++ [d] }), c)

/-- How many steps a command takes at once: as many as it has, or as the lot says (R144, log 21). -/
def State.cmdPace (s : State) : Nat :=
  let n := s.lot / 2 ^ 16 % 2 ^ 8
  if n = 0 then cmdFuel else n

/-- The pages of a command's next row, or of its table, enter the TLBs that its accesses go through (R81). -/
def State.engFill (s : State) (c : Cmd) : State :=
  let row (i j : Nat) (s : State) : State :=
    let w := c.stg.getD i 0
    if fld w 63 62 = 0 then s.tlbFill c.pcore c.asid (wordEa w (c.row * s64 (c.stg.getD j 0))) else s
  if c.kind = 0 || c.kind = 2 then row 1 4 (row 0 3 s)
  else if c.kind = 1 && c.op != 1 then s.tlbFillClus (clusterOf c.pcore) c.asid (fld (c.stg.getD 0 0) 56 0)
  else s

/-- A command starts or goes on (R140); an in-place transpose takes the transpose tile (R152). -/
def State.startCmd (s : State) (q : QRef) : State :=
  match (s.queueAt q)[q.pos]? with
  | none => s
  | some c =>
    let s := if c.kind = 0 && inPlace c.stg then s.modCore c.pcore (fun p => { p with ttBusy := true }) else s
    let (s, c, e) := (s.engFill c).runCmd s.cmdPace { (if c.started then c else s.copyOpen c) with started := true }
    let (s, c) := s.stopCmd c e
    ({ s.putQueue q (setAt (s.queueAt q) q.pos c) with free := s.free + 1 } : State).draw

/-- Whether a finished command may complete: its writes to other packages have been answered. -/
def State.canComplete (s : State) (q : QRef) : Bool :=
  match (s.queueAt q)[q.pos]? with
  | none => false
  | some c => c.fin && s.answered c

/-- The arrival that ends a command bound to a barrier (R143). -/
def State.finalArrival (s : State) (c : Cmd) : State :=
  if c.h.cmode < 2 then s
  else
    match clusterAddr c.lcore spSize (c.stg.getD 15 0) 8 with
    | .error _ => s
    | .ok (u, o) => s.barMod u o (fun w => barArrive w 1 0)

/-- A command completes: LRC of a SIEVE, the counter, the barrier (R142, R143, R206). -/
def State.completeCmd (s : State) (q : QRef) : State :=
  match (s.queueAt q)[q.pos]? with
  | none => s
  | some c =>
    let s := s.putQueue q (removeAt (s.queueAt q) q.pos)
    let s := if c.kind = 0 && inPlace c.stg then s.modCore c.pcore (fun p => { p with ttBusy := false }) else s
    let s := if c.kind = 2 && c.op = 0 then s.srAsync c.task 0x003 (fun _ => lrcOf c) else s
    let s := if bit c.h.cmode 0 then s.counterDown c.task c.h.cc c.capt else s
    s.finalArrival c

/-- Whether the task of a command has one of its kind parked (R155). -/
def State.slotTaken (s : State) (c : Cmd) : Bool := Tbl.has (s.task c.task).parked c.kind

/-- Whether a stopped command can be parked: the parked slot of its kind is free (R155). -/
def State.canPark (s : State) (q : QRef) : Bool :=
  match (s.queueAt q)[q.pos]? with
  | none => false
  | some c => c.fault.isSome && !s.slotTaken c

/-- A faulted command is parked, its barrier's FAULT set, and its task takes ENGINE (R155); after its ENDT the fault is an event
of the command processors (R392). -/
def State.faultCmd (s : State) (q : QRef) : State :=
  match (s.queueAt q)[q.pos]? with
  | none => s
  | some c =>
    match c.fault with
    | none => s
    | some t =>
      if s.slotTaken c then s else
      let s := s.putQueue q (removeAt (s.queueAt q) q.pos)
      let s := if c.kind = 0 && inPlace c.stg then s.modCore c.pcore (fun p => { p with ttBusy := false }) else s
      let s := if c.h.cmode < 2 then s else
        match clusterAddr c.lcore spSize (c.stg.getD 15 0) 8 with
        | .error _ => s
        | .ok (u, o) => s.barMod u o barFault
      let s := s.modTask c.task (fun k => { k with parked := Tbl.put k.parked c.kind c })
      if (s.task c.task).state = 5 then s.fwEvent (fld c.task 18 16) 3 c.task
      else s.modTask c.task (fun k => { k with async := k.async ++ [{ t with slot := 9, async := true }] })

/-! ### Fill demands (R181, R183) -/

/-- Whether the head demand of a die does anything now: a FILL of the die yields between its blocks, not within one. -/
def State.canDemand (s : State) (d : Nat) : Bool :=
  match (s.die d).demands with
  | [] => false
  | x :: _ => x.waitx.isNone && (s.die d).fillQ.all (fun c => !c.holds)
    && (s.die d).copies.all (fun k => !(k.req == cmdKey x.cmd.id && k.m.kind == 1)) && (match s.fillGaps x.cmd x.tbl x.layer x.lb with
      | .error .hold => false
      | .error (.xl ..) => s.fqRoom d
      | _ => true)

/-- A GATH stops with the inner cause of its fill (R181). -/
def State.failGath (s : State) (c : Cmd) (t : Trap) : State :=
  s.modCluster (clusterOf c.pcore) (fun k => { k with gq := k.gq.map (fun g =>
    if g.id == c.id then { g with fault := some { t with d2 := 1 * 16 + t.d2 % 16 } } else g) })

/-- The head demand is served. -/
def State.serveDemand (s : State) (d : Nat) : State :=
  match (s.die d).demands with
  | [] => s
  | x :: l =>
    let rest (s : State) : State := s.modDie d (fun y => { y with demands := l })
    match s.fillGaps x.cmd x.tbl x.layer x.lb with
    | .ok (s, c, done) =>
      let s := s.usedLines x.cmd
      if done then rest s else s.modDie d (fun y => { y with demands := { x with cmd := c } :: l })
    | .error (.fault code d0 d1) =>
      (rest (s.dropBusy x.cmd)).failGath x.cmd ({ s.faultTrap { x.cmd with kind := 1 } code d0 d1 with
        d3 := s.faultCore x.cmd * 2 ^ 48 + x.lb % 2 ^ 13 * 2 ^ 32 })
    | .error (.xl code va w) =>
      if s.fqRoom d then
        let (s, n) := s.postFault d va x.cmd.asid code w 3 x.cmd.pcore
        s.modDie d (fun y => { y with demands := { x with waitx := some n } :: l })
      else s
    | .error (.far pa) => s.sendHome d 1 pa 0 [8] x.cmd.sender
    | .error _ => s

end Sys2Proof.Machine
end

