-- ==== Sys2Proof/Machine/Saving.lean ====
section
/-! DEFINITION. The commit as a whole (R395 to R399), saving a context and reloading one (R388, R409 to R411). -/

namespace Sys2Proof.Machine

/-! ### Commits -/

/-- Results of the issuing context are committed (R297). -/
def State.commitResults (s : State) : State :=
  s.modCore s.cur (fun p => { p with matPend := p.matPend.map (fun r => if r.ctx == s.ctx then { r with committed := true } else r) })

/-- A release waits until the accesses of its released set that earlier bundles made have been performed (R347); for those of its own bundle
its commit waits. -/
def State.releaseWaits (s : State) (own : List CommitOp) : Bool :=
  let c := s.ar.scyc + b2n (!s.bun.checked)
  (own.any (fun o => o.releases) && s.openBefore c 0)
    || s.cx.wbuf.any (fun e => e.releases && if e.iss < c then s.openBefore e.iss e.slot else s.openBefore c 0)

/-- The commands for which a commit needs room in queues: captured ones (R136, R138); a parked one that a write of ENGCTL resumes has its
place (DESIGN CHOICE, log 71). -/
def entering (l : List CommitOp) : List Cmd := l.filterMap (fun o => o.cmd)

/-- Whether a commit can be made now that would release the bundle's own commands too (R138, R300, R347). -/
def State.canCommit (s : State) (own : List CommitOp) : Bool :=
  s.roomFor (entering (s.cx.held ++ own)) && !s.matBlocks s.cx.wbuf && !s.releaseWaits (s.cx.held ++ own)

/-- Withheld stores of the bundle's slots behind a slot. -/
def State.storesBehind (s : State) (slot : Nat) : Nat := (s.cx.wbuf.filter (fun e => e.iss == s.ar.scyc && slot < e.slot)).length

/-- Withheld stores that an XFER or a fence among the operations has before it, none of those behind it. -/
def State.storesUpTo (s : State) (l : List CommitOp) : CommitOp :=
  withheldOp (((l.find? CommitOp.splits).map (fun o => s.storesBehind o.slot)).getD 0)

/-- The bundle's own operations in slot order, the stores behind an XFER or a fence after it (R42, R106, R135). -/
def State.ownOps (s : State) : List CommitOp → List CommitOp
  | [] => []
  | o :: l =>
    if o.splits then { o with vals := if o.fences then [s.storesBehind o.slot] else o.vals } :: s.storesUpTo l :: s.ownOps l
    else o :: s.ownOps l

/-- What a commit does in its order (R395): the withheld stores, what was held, the bundle's own; an ENDT releases as a fence does (R345). -/
def State.commitOps (s : State) (own : List CommitOp) : List CommitOp :=
  let last := if s.bun.after = some .endt then [{ withheldOp 0 with slot := 0 }] else []
  s.storesUpTo own :: (s.cx.held ++ s.ownOps own ++ last)

/-- A commit at the end of a bundle or at a boundary (R395). -/
def State.commit (s : State) (own : List CommitOp) (explicit : Bool) : State :=
  let ops := s.commitOps own
  let s := s.modCx (fun k => { k with image := k.arch, held := [], nb := 0, wrote := []
                                      ckexp := (k.ckexp + b2n explicit) % 2 ^ 32, ckimp := (k.ckimp + b2n (!explicit)) % 2 ^ 32 })
  let s := (if s.bun.checked then s.traceRec 3 s.bun.pc s.ar.scyc else s.traceRec 3 (s.nextHeader s.ar.pc) s.cyc) (s.cx.ckexp * 2 ^ 32 + s.cx.ckimp)
  s.commitResults.runOps ops

/-- An implicit checkpoint at the boundary before a bundle (R398). -/
def State.implicitCommit (s : State) : State := s.commit [] false

/-! ### Saving (R388, R410) -/

/-- Commands released while their queues have room; the rest stay held (R410 step 4). -/
def State.releaseFit (s : State) : List CommitOp → State × List CommitOp
  | [] => (s, [])
  | o :: os =>
    match o.cmd with
    | some c =>
      if s.roomFor [c] then (s.release c).releaseFit os
      else let (s, l) := s.releaseFit os; (s, o :: l)
    | none => (s.runOps [o]).releaseFit os

/-- What a save records of a trap: the undelivered one, or the marks of operations still to be performed (R407, R416). -/
def Ctx.saveTrap (k : Ctx) : Option Trap :=
  match k.trpend, k.post with
  | some t, _ => some t
  | none, o :: _ => if o.cmd.isSome && o.slot = 9 then none else some { cause := 0, post := true, rlane := o.lane, slot := o.slot, pc := some k.postPc }
  | none, [] => none

/-- The frame is written and the context freed; `yield` leaves the task READY, else SAVED. `left` are commands without room. -/
def State.saveFrame (s : State) (yield : Bool) (left : List CommitOp) : State :=
  match s.framePA false true with
  | .error c => (s.modCx (fun k => { k with held := left })).frameFault c false true (if yield then .yieldSave else .save)
  | .ok pa =>
    let k := s.cx
    let id := s.tid
    let t := k.saveTrap
    let f : FrameInfo := ⟨k.inh, k.trpend.isSome, false, t, (t.bind (fun t => t.pc)).getD 0, (t.map (fun t => t.ncyc)).getD 0,
      (t.map (fun t => t.nb)).getD 0, k.arch.pc, s.ctx, k.ckexp, k.ckimp, left ++ k.post.filter (fun o => o.cmd.isSome && o.slot == 9),
      k.post.filter (fun o => !(o.cmd.isSome && o.slot == 9))⟩
    let s := (s.writeFrame pa (s.frameItems k.arch f)).keepRows false f.capt f.held k.arch
    let s := s.keepLoads
    let s := s.freeCtx
    if yield then s.makeReady id else s.modTask id (fun t => { t with state := 4 })

/-- Steps 2 to 5 of R410, or of a yield (R388): a pending check failure of an output-stream element is a rollback recorded
with TRPEND; else the checkpoint commits, results are written, and the context is saved. -/
def State.saveCtx (s : State) (yield : Bool) : State :=
  match s.myTask.async.find? (fun t => t.pc.isSome) with
  | some t =>
    let k := s.cx
    let t := { t with ncyc := k.arch.scyc + 1 - k.image.scyc, nb := k.nb }
    let s := s.rollback
    (s.modCx (fun k => { k with trpend := some t })).saveFrame yield []
  | none =>
    let held := s.cx.held
    let s := s.modCx (fun k => { k with image := k.arch, held := [], nb := 0, wrote := [], ckimp := (k.ckimp + 1) % 2 ^ 32 })
    let s := s.traceRec 3 (s.nextHeader s.ar.pc) s.cyc (s.cx.ckexp * 2 ^ 32 + s.cx.ckimp)
    let s := (s.performAll).commitResults.matFlush
    let (s, left) := s.releaseFit held
    s.saveFrame yield left

/-- Whether a context may be saved now: no operation holds it, and its matrix results have had their time (R298, R410). -/
def State.canSave (s : State) : Bool :=
  let k := s.cx
  k.task.isSome && !s.asleep s.cur && k.hold.isNone && k.job.isNone && s.matOwn.all (fun r => r.at_ ≤ (s.core s.cur).cyc) && !s.releaseWaits k.held

/-! ### Reloading (R409, R411) -/

/-- Whether a command kept beside a frame is the one that an entry names. -/
def Cmd.sameAs (c : Cmd) (d : Cmd) (vals : List Nat) : Bool :=
  c.kind == d.kind && c.op == d.op && c.h == d.h && (List.range 16).all (fun k => c.stg.getD k 0 == vals.getD k 0)

/-- An operation of the held section: a command by its header, with what the one among `kept` captured that it names, a captured operation by the
first class from its earliest slot whose words it is. -/
def State.heldOp (s : State) (kept : List Cmd) (slot : Nat) (e : Bool × Nat × Nat × List Nat) : Option CommitOp :=
  let (cap, w, w2, vals) := e
  let dec (c : Cls) (w : Nat) : Option Instr := match decodeSlot c false 2 w w2 with
    | .ok i => some i
    | .error _ => none
  let opOf (o : Option Instr) : Option Instr := o.bind (fun i => match i with
    | .movd .. => some i
    | _ => if i.irrevocable && i.cmdOf.isNone then some i else none)
  let cmdOf (o : Option Instr) : Option Instr := o.bind (fun i => if i.cmdOf.isSome then some i else none)
  let e1 := w + 2 ^ 30
  let op := if cap then (if slot < 2 then (opOf (dec .s e1)).or (opOf (dec .s w)) else none).or ((opOf (dec .v e1)).or (opOf (dec .v w))) else none
  match op, cmdOf (dec .c w) with
  | some i, _ =>
    let base := match i with
      | .vld .. | .vlda .. | .vaadd .. | .vamin .. | .vamax .. | .vaxchg .. => 2
      | _ => 0
    some ⟨Nat.max slot base, i, vals, 0, none⟩
  | none, some i =>
    let i := i.withMode vals
    (s.mkCmd i vals).map (fun c =>
      let c := ((kept.find? (fun k => k.sameAs c vals)).map (fun k => { k with pcore := c.pcore, ctx := c.ctx })).getD { c with id := s.fresh + slot, stg := vals, capt := 0, unpred := [] }
      ⟨if cap then Nat.max slot 6 else 9, i, vals, 0, some c⟩)
  | none, none => none

/-- The held section as operations of a commit; `first` is the slot of the first captured one (log 10). -/
def State.heldOps (s : State) (kept : List Cmd) (first : Nat) : List (Bool × Nat × Nat × List Nat) → List CommitOp
  | [] => []
  | e :: l =>
    match s.heldOp kept first e with
    | none => s.heldOps kept first l
    | some o => o :: s.heldOps (o.cmd.elim kept (fun c => kept.eraseP (fun k => k.id == c.id))) (Nat.max first o.slot + 1) l

/-- The commands kept beside a frame of the issuing task. -/
def State.keptCmds (s : State) (user : Bool) : List Cmd := Tbl.get [] s.cmds (2 * s.tid + b2n user)

/-- Results whose landing cycle has passed land at once (R411 step 4). -/
def Arch.landPast (a : Arch) : Arch :=
  let past := a.inflight.filter (fun l => l.cyc ≤ a.scyc)
  past.foldl (fun a l => a.landReg l) { a with inflight := a.inflight.filter (fun l => a.scyc < l.cyc) }

/-- The staging set of a C slot's image: the one of its issue, where the image is the one that was saved, else the set that it names,
as reloaded (R36, log 10). -/
def Arch.imageSet (a sh : Arch) (n k set : Nat) (im : Image) : List Nat :=
  match sh.images.find? (fun t => t.1 == n && t.2.w == im.w && t.2.w2 == im.w2 && t.2.addr == im.addr) with
  | some t => t.2.stg
  | none => a.stgSet k set

/-- Images of C slots have their staging sets. -/
def Arch.imageSets (a sh : Arch) : Arch :=
  { a with images := a.images.map (fun t => match t.2.i.cmdOf with
      | none => t
      | some (k, _, h) =>
        let l := a.imageSet sh t.1 k h.set t.2
        (t.1, { t.2 with stg := l, i := t.2.i.withMode l })) }

/-- What a frame of the issuing context's task was saved from (log 10). -/
def State.savedArch (s : State) (user : Bool) : Arch := Tbl.get {} s.shadow (2 * s.tid + b2n user)

/-- The registers of a frame. -/
def State.frameRegs (s : State) (pa : Nat) (ids : List PendLoad) (user : Bool) : Arch :=
  (s.frameArch pa ids (s.savedArch user)).landPast.imageSets (s.savedArch user)

/-- What was kept beside a frame is used up. -/
def State.dropKept (s : State) (user : Bool) : State :=
  { s with rows := Tbl.del s.rows (2 * s.tid + b2n user), shadow := Tbl.del s.shadow (2 * s.tid + b2n user)
           cmds := Tbl.del s.cmds (2 * s.tid + b2n user), fresh := s.fresh + 32 }

/-- Captured row operations with their rows: the one kept, else the register's; VR as reloaded (R336). -/
def withRows (a : Arch) : List Nat → List CommitOp → List CommitOp
  | _, [] => []
  | rs, o :: l =>
    let ad := o.vals.getD 0 0 + o.vals.getD 5 0 * 2 ^ 64
    let p := joinEl 64 ((List.range 4).map (fun k => o.vals.getD (k + 1) 0))
    match o.i with
    | .vaadd x _ _ _ vr _ _ | .vamin x _ _ _ vr _ _ | .vamax x _ _ _ vr _ _ | .vaxchg x _ _ _ vr _ _ =>
      { o with vals := [ad, p, rs.headD (a.getV x).toNat, (a.getV vr).toNat] } :: withRows a rs.tail l
    | .vld d _ _ _ _ | .vlda d _ _ _ _ => { o with vals := [ad, p, rs.headD (a.getV d).toNat] } :: withRows a rs.tail l
    | _ => o :: withRows a rs l

/-- What POST leaves to be performed, the first from its restart lane (R407). -/
def State.framePost (s : State) (pa : Nat) (user : Bool) (a : Arch) : List CommitOp :=
  let t := s.frameTrap pa
  if !t.post then []
  else
    match withRows a (Tbl.get [] s.rows (2 * s.tid + b2n user)) (s.heldOps (s.keptCmds user) t.slot ((s.frameHeld pa).filter (fun e => e.1))) with
    | [] => []
    | o :: l => { o with lane := t.rlane } :: l

/-- A SAVED task goes on in the issuing context (R411). -/
def State.reloadCtx (s : State) : State :=
  match s.framePA false false with
  | .error c => s.frameFault c false false .reload
  | .ok pa =>
    if s.frameBad pa then s.takeTrapAs { cause := 21, d0 := 1025, slot := 0 } true
    else
      let id := s.tid
      let h := s.fw pa 0
      let t := s.frameTrap pa
      let a := s.frameRegs pa (Tbl.get [] s.saved id) false
      let a := if t.post && !bit h 29 then { a with pc := fld (s.fw pa 0x58) 17 0 } else a
      let cmds := s.heldOps (s.keptCmds false) 9 ((s.frameHeld pa).filter (fun e => !e.1))
      let post := s.framePost pa false a
      let users := Tbl.get [] s.savedH id
      let s := ({ s with saved := Tbl.del s.saved id, savedH := Tbl.del s.savedH id } : State).dropKept false
      (s.modCx (fun k => { k with arch := a, image := a, inh := bit h 30
                                  trpend := if bit h 29 then some { t with ncyc := fld (s.fw pa 0x50) 63 32, nb := fld (s.fw pa 0x50) 31 0 } else none
                                  ckexp := fld (s.fw pa 0x18) 63 32, ckimp := fld (s.fw pa 0x18) 31 0
                                  postPc := t.pc.getD 0
                                  post := cmds ++ post, frameLoads := users, job := none, jobIdx := none }))

/-- The return from a handler by the RETT at `pc`, after its bundle has committed (R409). -/
def State.returnTrap (s : State) (pc : Nat) : State :=
  if !s.cx.inh then s.takeTrap { cause := 21, d0 := 1024, slot := 0, pc := some pc }
  else
    match s.framePA true false with
    | .error c => s.frameFault c true false (.rett pc)
    | .ok pa =>
      if s.frameBad pa then s.takeTrapAs { cause := 21, d0 := 1025, slot := 0, pc := some pc } true
      else
        let a := { s.frameRegs pa s.cx.frameLoads true with pc := fld (s.fw pa 0x58) 17 0 }
        let post := s.framePost pa true a
        let ppc := fld (s.fw pa 0x48) 17 0
        let s := s.traceRec 1 pc s.ar.scyc a.pc
        (s.dropKept true).modCx (fun k => { k with arch := a, image := a, inh := false, post := post, postPc := ppc, frameLoads := [], job := none, jobIdx := none,
                                                     wbuf := [], win := [], rets := [] })

/-- What is left of a frame's work goes on once its translation may have been repaired (R412). -/
def State.resumeJob (s : State) : State :=
  match s.cx.job with
  | none => s
  | some j =>
    let s := s.modCx (fun k => { k with job := none, jobIdx := none })
    match j with
    | .user t => s.deliverUser t
    | .super t d => s.deliverSuper t d
    | .save => s.saveFrame false s.cx.held
    | .yieldSave => s.saveFrame true s.cx.held
    | .reload => s.reloadCtx
    | .rett pc => s.returnTrap pc

/-- The snapshot section of a frame from entry `n` on. -/
def State.putSnaps (s : State) (pa n : Nat) (l : List (Nat × Nat)) : State :=
  l.zipIdx.foldl (fun s t =>
    (s.storePA (spread (pa + 0x5800 + 272 * (n + t.2)) 8 t.1.1) false false).storePA (spread (pa + 0x5808 + 272 * (n + t.2)) 256 t.1.2) false false) s

/-- Data of a load that its task's frame holds pending: it leaves the pending section and enters the snapshot section in the order of R61, or
becomes a poison mark (R402, R405, R411, R414). `sh` are the registers as saved. -/
def State.frameArrive (s : State) (pa : Nat) (q : PendLoad) (sh : Arch) : State :=
  let hit (i : Nat) : Bool :=
    let w := s.fw pa (0xE008 + 16 * i)
    bit w 63 && fld w 39 32 == q.kind.code && fld w 45 40 == q.num % 64 && fld w 55 52 != 4 && s.fw pa (0xE000 + 16 * i) == q.addr
      && fld w 31 0 == relCyc q.cyc (s.fw pa 8)
  match (List.range 32).find? hit with
  | none => s
  | some i =>
    let w := s.fw pa (0xE008 + 16 * i)
    let cnt := s.fw pa 0x20
    let put (s : State) (o n v : Nat) : State := s.storePA (spread (pa + o) n v) false false
    match q.pois with
    | some ad => put (put s (0xE000 + 16 * i) 8 ad) (0xE008 + 16 * i) 8 (setFld (if fld w 31 31 = 1 then setFld w 31 0 0 else w) 55 52 4)
    | none =>
      let js := (List.range 128).filter (fun j => bit (s.fw pa (0x5800 + 272 * j)) 63)
      let l : Landing := ⟨q.cyc, q.iss, q.slot, q.pc, q.kind, q.num, q.val, none⟩
      let n := (js.findIdx? (fun j => l.precedes (s.snapEntry pa j sh))).getD js.length
      let raw (j : Nat) : Nat × Nat := (s.fw pa (0x5800 + 272 * j), s.readPAn (pa + 0x5808 + 272 * j) 256)
      let es := (js.map raw).take n ++ (2 ^ 63 + q.slot % 8 * 2 ^ 48 + q.num % 64 * 2 ^ 40 + q.kind.code * 2 ^ 32 + fld w 31 0, q.val) :: (js.map raw).drop n
      let s := (put s (0xE000 + 16 * i) 16 0).putSnaps pa 0 (es.take 128)
      put s 0x20 8 (setFld (setFld cnt 15 8 (fld cnt 15 8 - 1)) 7 0 (Nat.min 128 (fld cnt 7 0 + 1)))

end Sys2Proof.Machine
end

