-- ==== Sys2Proof/Machine/Target.lean ====
section
/-! DEFINITION. Where transfers go (R353 to R366): targets, their checks, their costs, the loops they end. -/

namespace Sys2Proof.Machine

/-- Displacement in bytes of a signed word offset. -/
def wordDisp (bits off : Nat) : Int := 4 * sextI bits off

/-- The trip count that a LOOP takes (R361). -/
def State.tripOf (s : State) (a src tripi : Nat) : Nat :=
  let lrc := (s.ar.getSr 0x003).toNat
  match src with
  | 0 => tripi
  | 1 => (s.rx a).toNat % 2 ^ 32
  | 2 => ceilDiv (fld lrc 12 0) (2 ^ fld lrc 19 16)
  | _ => (s.ar.getSr 0x002).toNat % 2 ^ 32

/-- Condition k of a BRT (R359). -/
def State.brtCond (s : State) (r neg k : Nat) : Bool := (s.rx r != 0) != bit neg k

/-- The target that a BRT selects: the lowest whose condition holds. -/
def State.brtPick (s : State) (ca cb cc neg cd : Nat) : Option Nat :=
  (List.range 4).find? (fun k => s.brtCond ([ca, cb, cc, cd].getD k 0) neg k)

/-- Address of the end bundle that a LOOP names (R361). -/
def State.loopEnd (s : State) (last : Nat) : Nat := s.bun.pc + 4 * last

/-- The transfer that an operation makes: its checked target and its cost in core cycles (R354); none where it falls through. -/
def State.jump (s : State) : Instr → Option (Except Trap Nat × Nat)
  | .br a b c off =>
    if condI c (s.rx a).toNat (s.rx b).toNat
    then some (s.relTarget s.bun.pc (wordDisp 30 off), if s.bun.bh = 1 then 2 else 6) else none
  | .j o | .call o => some (s.relTarget s.bun.pc (wordDisp 22 o), 2)
  | .jr a | .callr _ a => some (s.regTarget (s.rx a).toNat, 6)
  | .ret a => some (s.regTarget (s.rx a).toNat, if s.cx.rets.head? = some (s.rx a).toNat then 2 else 6)
  | .brt ca cb cc neg cd off => (s.brtPick ca cb cc neg cd).map (fun k =>
      (s.relTarget s.bun.pc (wordDisp 24 off + 64 * k), if k = 0 && s.bun.bh = 1 then 2 else 6))
  | .loop _ a _ src tripi last =>
    if s.tripOf a src tripi = 0 then
      some (s.fallTarget (s.bun.pc / 2 ^ 17) (s.loopEnd last) (s.bundleWords (s.loopEnd last)), 2) else none
  | .bsw a i =>
    let o := modI 64 (((s.rx a).toNat : Int) + wordDisp 10 i)
    some (if 2 ^ 17 ≤ o then .error (trapTarget 1 o 0) else s.targetCheck o (1 - s.bun.pc / 2 ^ 17) o, 6)
  | _ => none

/-- Cost of a conditional transfer that is not taken (R354). -/
def State.fallCost (s : State) : Instr → Nat
  | .br .. | .brt .. => if s.bun.bh = 1 then 6 else 1
  | .ifence => 6
  | _ => 1

/-- The checks of a transfer before its bundle issues (R353): its target; for a CALL that a bundle follows it (R357); for a
LOOP its start (R361). -/
def State.chkJump (s : State) (i : Instr) : Chk :=
  (match s.jump i with
   | some (.error t, _) => Chk.trap t
   | _ => Chk.ok).andThen
  (match i with
   | .call _ => if codeEnd ≤ s.bun.next % 2 ^ 17 then .trap (trapTarget 1 s.bun.next 0) else .ok
   | .loop .. => Chk.ofRes (fun _ => .ok) (s.fallTarget (s.bun.pc / 2 ^ 17) s.bun.pc s.bun.words)
   | _ => .ok)

/-- The levels in progress whose end is an address, the highest first (R362). -/
def Arch.endsAt (a : Arch) (pc : Nat) : List Nat :=
  ([5, 4, 3, 2, 1, 0] : List Nat).filter (fun n => match a.loops.find? (fun t => t.1 == n) with
    | some t => t.2.last == pc
    | none => false)

/-- Whether an address lies in a body, in the same bank (R363). -/
def LoopB.contains (l : LoopB) (x : Nat) : Bool := l.start / 2 ^ 17 == x / 2 ^ 17 && l.start ≤ x && x ≤ l.last

/-- A transfer is taken: target, cost, and the levels that end with it. -/
def State.takeJump (s : State) (i : Instr) (ends : Bool) : State :=
  match s.jump i with
  | some (.ok a, d) => s.modBun (fun b => { b with target := some a, cost := d, noEnd := true, out := if ends then some a else b.out })
  | _ => s.modBun (fun b => { b with cost := s.fallCost i })

/-- The return stack of 8 entries after a call (R354). -/
def State.pushRet (s : State) : State := s.modCx (fun k => { k with rets := (s.bun.next :: k.rets).take 8 })

end Sys2Proof.Machine
end

