-- ==== Sys2Proof/Machine/Check.lean ====
section
/-! DEFINITION. The checks of an operation before its bundle issues (R25, R43, R404): it may issue, it waits, or it traps. Within
an operation the order is that of its own entry. -/

namespace Sys2Proof.Machine

/-! ### Waits that several operations share -/

/-- A strong or full/empty store, or a BARINIT, of the context is withheld (R347). -/
def State.strongHeld (s : State) : Bool :=
  s.cx.wbuf.any (fun e => e.releases)

/-- Loads of the context, and of a task that its trap interrupted, whose data is still to come. -/
def State.open_ (s : State) : List PendLoad :=
  s.ar.loads.filter (fun q => q.waits || q.cyc ≤ s.ar.scyc) ++ s.cx.frameLoads

/-- Acquires of the context that have not been performed: full/empty requests at their bank, strong loads whose data is late (R347). -/
def State.acquires (s : State) : List PendLoad := s.open_.filter (fun q => q.qual != 0 && q.qual < 4)

/-- An access that follows an acquire waits until it has been performed (R347): on a full/empty bit, or on late data. -/
def State.chkAcquired (s : State) : Chk :=
  if s.acquires.isEmpty then .ok else .wait (if s.acquires.any (fun q => q.noWin) then .fe else .late)

/-- The context holds engine commands that no commit has released (R139). -/
def State.holdsCommands (s : State) : Bool := !(heldCmds s.cx.held).isEmpty

/-- A wait on a counter or a barrier takes an implicit checkpoint first while commands are held (R139). -/
def State.waitAfterRelease (s : State) (w : Wait) : Chk := .wait (if s.holdsCommands then .ckpt else w)

/-- A 33rd outstanding load waits (R410). -/
def State.chkRoom (s : State) : Chk := Chk.when (32 ≤ s.ar.loads.length) (.wait .late)

/-- A release, or a fence, waits until the earlier accesses of scratchpad and accumulator memory have been performed (R347, R350). -/
def State.chkReleased (s : State) : Chk :=
  Chk.when (s.openBefore s.cyc 0) (.wait (if s.open_.any (fun q => q.noWin) then .fe else .engine))

/-! ### Memory -/

/-- A read of accumulator bytes: withheld write-port adds are performed first (R316), and the context's own matrix result is
written first (R299). -/
def State.chkAccRead (s : State) (unit off n : Nat) : Chk :=
  (Chk.when (addTouches s.cx.wbuf .acc unit off n) (.wait .ckpt)).andThen
    (Chk.when (s.matMeet unit off n == .wait) (.wait .engine))

/-- LDG (R94, R95, R316). -/
def State.chkLdg (s : State) (ea n : Nat) : Chk :=
  Chk.ofRes (fun ph =>
    (match s.isLocal (dieOf s.lc) ph.pa, s.home ph.pa with
     | true, .acc u o => s.chkAccRead u o n
     | _, _ => .ok).andThen s.chkRoom) (s.globalAddr ea n false)

/-- STG (R95). -/
def State.chkStg (s : State) (ea n : Nat) : Chk := Chk.ofRes (fun _ => .ok) (s.globalAddr ea n true)

/-- A scalar access of the scratchpad (R109, R125). -/
def State.chkSp (s : State) (ea n : Nat) (c : Chk) : Chk := Chk.ofRes (fun _ => c) (spScalar s.lc ea n n)

/-- A load with a qualifier: strong and full/empty ones follow withheld strong stores (R347). -/
def State.chkQual (s : State) (q : Nat) : Chk := (Chk.when (q != 0 && s.strongHeld) (.wait .ckpt)).andThen s.chkRoom

/-- BARINIT (R131). -/
def State.chkBarinit (s : State) (ea v : Nat) : Chk :=
  s.chkSp ea 8 (Chk.when (fld v 31 10 != 0 || fld v 63 53 != 0 || (fld v 9 0 == 0 && fld v 52 32 == 0))
    (.trap { cause := 14, d0 := 2, d1 := ea, d2 := v }))

/-- The barrier word as the context reads it. -/
def State.barWord (s : State) (ea : Nat) : Nat :=
  match spScalar s.lc ea 8 8 with
  | .ok (u, o) => s.spBytes false u none o 8
  | .error _ => 0

/-- BARWAIT (R133, R139). -/
def State.chkBarwait (s : State) (ea p : Nat) : Chk :=
  s.chkSp ea 8 ((Chk.when s.strongHeld (.wait .ckpt)).andThen
    (let w := s.barWord ea
     if fld w 63 63 != p then .ok
     else if fld w 62 62 = 1 then .trap { cause := 14, d0 := 1, d1 := ea, d2 := w }
     else s.waitAfterRelease .barrier))

/-- A vector load or store row; `tag` says whether R112 applies, `ld` whether bytes are read. -/
def State.chkRow (s : State) (acc ld : Bool) (a k p : Nat) (w : Option MW) : Chk :=
  Chk.ofRes (fun r =>
    let gs := activeGranules p
    let tag := if acc || !ld || s.swzOff then none
      else gs.findSome? (fun g => LCore.tagFail (s.lcore r.1) r.2.2 (r.2.1 + 16 * g) 16)
    match tag with
    | some d => .trap { cause := 18, d0 := d, d1 := coreIn r.1 * 2 ^ 21 + r.2.1 }
    | none =>
      if ld then
        (Chk.all (gs.map (fun g => if acc then s.chkAccRead r.1 (r.2.1 + 16 * g) 16 else .ok))).andThen (s.chkQual (qualOf w))
      else .ok) (s.vmRow acc a k w)

/-! ### Accumulator rows (R333, R335) -/

/-- The address of row k of an accumulator descriptor, and whether its stride is misaligned. -/
def State.accRow (s : State) (a k : Nat) : Except Trap (Nat × Bool) :=
  match s.kept with
  | some im => .ok (im.addr, false)
  | none =>
    let base := (s.rx a).toNat
    let shape := (s.rx (a + 1)).toNat
    let rows : Int := if fld shape 32 21 = 0 then 4096 else (fld shape 32 21 : Nat)
    let ea := modI 64 ((base : Int) + sextI 6 k * fld shape 20 0)
    if 2 ^ 33 ≤ shape then .error (trapAddress 1 base)
    else if sextI 6 k < 0 || rows ≤ sextI 6 k then .error (trapAddress 4 ea)
    else .ok (ea, fld shape 20 0 % 64 != 0)

/-- The active lanes of an F32 or 32-bit row. -/
def laneSet (p : Nat) : List Nat := (List.range 64).filter (fun i => act p 32 i)

/-- The first lane that fails its checks, with its trap (R333). -/
def State.laneFail (s : State) (p : Nat) (r : Nat × Bool) : Option (Nat × Trap) :=
  (laneSet p).findSome? (fun i =>
    match s.laneTarget p r.1 i with
    | .error t => some (i, t)
    | .ok _ => if r.2 then some (i, trapAlign r.1) else none)

/-- The checks of a vector ticketed update. -/
def State.chkTkRow (s : State) (a k p : Nat) : Chk :=
  Chk.ofRes (fun r => match s.laneFail p r with
    | some (_, t) => .trap t
    | none => .ok) (s.accRow a k)

/-- The checks at issue of an operation on an accumulator operand. -/
def State.chkAcc (s : State) (ea n : Nat) : Chk := Chk.ofRes (fun _ => .ok) (s.accOperand ea n)

/-- TKDRAIN (R329): it waits until the domain is DONE, its window has passed, or it is CLOSED; a gap event releases every drain that waits
on the domain (R322). When that is so of a domain of another package is left to choice (log 58). -/
def State.chkDrain (s : State) (ea td : Nat) : Chk :=
  Chk.ofRes (fun t =>
    match t.far with
    | some _ => Chk.when (Config.choice (s.core s.cur).cyc % 2 = 1) (.wait .drain)
    | none =>
      let d := (s.lcore t.unit).dom td
      Chk.when (!((d.opened && d.asid != s.asid) || d.done || d.gapev || d.state == 0 || s.cx.drainGo == some (t.unit * 64 + td))) (.wait .drain))
    (s.accOperand ea 1)

/-! ### Regions (R99 to R104, R427, R428) -/

/-- The first failure of a test over regions in ascending order. -/
def State.eachRegion (s : State) (f : Nat → Phys → Option Trap) (vas : List Nat) : Option Trap :=
  vas.findSome? (fun v => match s.xlate s.xl s.asid v false with
    | .error _ => none
    | .ok ph => f v ph)

/-- The first region that fails translation. -/
def State.untranslated (s : State) (vas : List Nat) : Option Trap :=
  vas.findSome? (fun v => match s.xlate s.xl s.asid v false with
    | .error c => some (trapTranslation c v)
    | .ok _ => none)

def Chk.ofTrap : Option Trap → Chk
  | none => .ok
  | some t => .trap t

/-- XFER (R103, R104). -/
def State.chkXfer (s : State) (va xb n newst : Nat) : Chk :=
  let vas := regionVas va n
  let bad := if newst = 2 then !selectorOk xb else 2 ^ 32 ≤ xb
  Chk.all [Chk.when (va % 2 ^ 21 != 0) (.trap (trapAlign va)),
    Chk.ofTrap (s.untranslated vas),
    Chk.ofTrap (s.eachRegion (fun v ph => if isAccWin ph.pa then some (trapRegion 8 v) else none) vas),
    Chk.ofTrap (s.eachRegion (fun v ph => if (s.region ph.pa).st != 3 && (s.region ph.pa).owner != s.tid then some (trapRegion 7 v) else none) vas),
    Chk.ofTrap (s.eachRegion (fun v ph => if (s.region ph.pa).st == 3 then some (trapRegion 7 v) else none) vas),
    Chk.when bad (.trap (trapRegion 8 va)),
    Chk.ofTrap (s.eachRegion (fun v ph => if (s.region ph.pa).asid != s.asid then some (trapRegion 6 v) else none) vas)]

/-- TOKACQ and TOKREL, region by region (R427, R428). -/
def State.chkToken (s : State) (va n : Nat) : Chk :=
  if n = 0 || 64 < n then .ok
  else
    (Chk.when (va % 2 ^ 21 != 0) (.trap (trapAlign va))).andThen
      (Chk.ofTrap ((regionVas va n).findSome? (fun v =>
        match s.xlate s.xl s.asid v false with
        | .error c => some (trapTranslation c v)
        | .ok ph =>
          let r := s.region ph.pa
          if s.isLocal (dieOf s.lc) ph.pa then some (trapRegion 8 v)
          else if (r.st == 0 || r.st == 3) && r.owner == s.tid then none else some (trapRegion 7 v))))

/-- The first page of a range that fails translation or its region check, from `va` over `n` pages (R99 step 1). The trap
names the first line of the range in it. -/
def State.rangeFail (s : State) (first : Nat) : Nat → Nat → Option Trap
  | 0, _ => none
  | n + 1, page =>
    match (if 2 ^ 57 ≤ 2 ^ 16 * page then (.error (trapTranslation 1 (Nat.max first (2 ^ 16 * page))) : GRes)
           else s.plainPA (Nat.max first (2 ^ 16 * page)) false) with
    | .error t => some t
    | .ok _ => s.rangeFail first n (page + 1)

/-- Lines of LOCK's range: first and number. -/
def lineRange (va len : Nat) : Nat × Nat := if len = 0 then (va / 256, 0) else (va / 256, (va + len - 1) / 256 - va / 256 + 1)

/-- LOCK and UNLOCK (R99 step 1). -/
def State.chkLock (s : State) (va len : Nat) : Chk :=
  let (f, n) := lineRange va len
  Chk.when (n != 0) (Chk.ofTrap (s.rangeFail (256 * f) ((256 * (f + n) - 1) / 2 ^ 16 - 256 * f / 2 ^ 16 + 1) (256 * f / 2 ^ 16)))

/-! ### Streams (R158, R163) -/

/-- The binding that a QBIND makes. -/
def State.binding (s : State) (a dir fek add ai : Nat) (depth : Option Nat) : Stream :=
  ⟨dir, fek, add, ai, depth.getD 8, s.rx a, s.rx (a + 1), s.rx (a + 2), s.rx (a + 3), 0⟩

/-- Results in flight to a stream hold QBIND, QUNBIND and an output QSYNC back. -/
def State.chkSettled (s : State) (q : Nat) : Chk := Chk.when (s.ar.flightTo q != 0) (.wait .late)

/-! ### Pairs (R306 to R308) -/

/-- Tasks of a die that hold a valid membership of a group. -/
def State.members (s : State) (d gid : Nat) : List Nat :=
  ((s.die d).tasks.filter (fun t => (List.range 4).any (fun n => t.2.slotGid n == some gid))).map (fun t => t.2.id)

/-- The partner of the issuing task in the pairing group of a slot: its group and task; none where R306 is broken. -/
def State.partner (s : State) (slot : Nat) : Option (Nat × Nat) :=
  let d := dieOf s.lc
  match s.myTask.slotGid slot with
  | none => none
  | some gid =>
    let g := s.group d gid
    match (s.members d gid).filter (fun t => t != s.tid) with
    | [t] => if g.pair && g.nmem - g.nleft == 2 && clusterOf (s.task t).lcore == clusterOf s.lc then some (gid, t) else none
    | _ => none

/-- Where a context of a task has presented its MMAP on a group. -/
def State.presentedAt (s : State) (task gid : Nat) : Option (Nat × Nat) :=
  s.cores.findSome? (fun p => p.2.ctxs.findSome? (fun c =>
    if c.2.task == some task && (c.2.presented.map (fun t => t.1)) == some gid then some (p.1, c.1) else none))

/-- The step register of a slot as a displacement (R37). -/
def State.stepOf (s : State) (slot : Nat) : Int := sextI 32 (s.ar.getSr (stepSr slot)).toNat

/-- An address as a re-issue steps it: the OFFSET fields of the bases of a matrix operation, the effective address of any other
memory operand (R37, R302). -/
def stepAddr (step : Int) (addr : Nat) : Instr → Nat
  | .mma _ _ _ w | .mmap _ _ _ w =>
    let adv (x : Nat) : Nat := x / 2 ^ 21 * 2 ^ 21 + modI 21 ((x % 2 ^ 21 : Nat) + step)
    (if w.av = 1 then addr % 2 ^ 32 else adv (addr % 2 ^ 32)) + adv (addr / 2 ^ 32 % 2 ^ 32) * 2 ^ 32
  | i => if i.hasMem then addr / 2 ^ 64 * 2 ^ 64 + modI 64 ((addr % 2 ^ 64 : Nat) + step) else addr

/-- The image of a kept slot with its address stepped. -/
def State.stepped (s : State) (slot : Nat) (im : Image) : Image := { im with addr := stepAddr (s.stepOf slot) im.addr im.i }

/-- The M-slot operation of the bundle at a context's pc, with its stepped image where it is kept. -/
def State.mmapOf (s : State) (p c : Nat) : Option (Instr × Option Image) :=
  let t := { s with cur := p, ctx := c }
  match (t.seek seekFuel t.ar.pc).toOption.bind (fun a => (t.bundleAt a).toOption) with
  | none => none
  | some b => (b.ops.find? (fun o => o.slot == 5)).map (fun o =>
      (o.i, if o.kept then (t.ar.images.find? (fun k => k.1 == 5)).map (fun k => t.stepped 5 k.2) else none))

/-- PAIR_ABORT or PAIR_TIMEOUT with its detail words; `d2` is the partner's logical core. -/
def State.trapPair (s : State) (cause reason slot d2 : Nat) : Trap :=
  { cause := cause, d0 := reason, d1 := (s.myTask.slotGid slot).getD (2 ^ 64 - 1), d2 := d2 }

/-- The bundle of the issuing context is presented on its pairing group, with its partner's logical core. -/
def State.presentPair (s : State) (w : MmaW) : State :=
  s.modCx (fun k => { k with presented := k.presented.or ((s.partner w.gid).map (fun t => (t.1, (s.core s.cur).cyc, clCore (s.task t.2).lcore))) })

/-- The partner's logical core in the detail of a broken group: the one presented with, else the one other member's; where neither is, the manual
states none and it is a free value (log 6). -/
def State.partnerCore (s : State) (slot : Nat) : Nat :=
  let other := match (s.myTask.slotGid slot).map (fun g => (s.members (dieOf s.lc) g).filter (fun t => t != s.tid)) with
    | some [t] => some (clCore (s.task t).lcore)
    | _ => none
  ((s.cx.presented.map (fun t => t.2.2)).or other).getD ((Config.freeWord (s.free + s.slot)).toNat % 128)

/-- The traps that need no partner (R308): a broken group, a timeout recorded for this member. -/
def State.pairTrap (s : State) (w : MmaW) : Option Trap :=
  match s.partner w.gid with
  | none => some (s.trapPair 15 2 w.gid (s.partnerCore w.gid))
  | some (gid, t) =>
    let g := s.group (dieOf s.lc) gid
    if g.tout && g.toutFor = s.tid then some (s.trapPair 16 2 w.gid (clCore (s.task t).lcore)) else none

/-- Whether the issuing task leads a pair with a task (R307). -/
def State.leads (s : State) (t : Nat) : Bool := s.lc < (s.task t).lcore

/-- The sources of an MMAP: a follower reads no A (R307), nor does a member without a partner. -/
def State.pairReads (s : State) (src b : Nat) (w : MmaW) : Chk :=
  match s.partner w.gid with
  | some (_, t) => if s.leads t then s.chkReads (.mma src b 0 w) else Chk.join [s.chkX b, s.chkX (b + 1)]
  | none => Chk.join [s.chkX b, s.chkX (b + 1)]

/-- Whether both engines can take an operation; two halves on one core run one after the other, so that neither result of its two is pending
before (R297, R307). -/
def State.pairFree (s : State) (p : Nat) : Bool :=
  s.matFree && ({ s with cur := p } : State).matFree && (p != s.cur || (s.core p).matPend.all (fun r => r.written))

/-- The checks of R295 of one half. -/
def State.chkHalf (s : State) (src b n : Nat) (w : MmaW) (t : Nat) : Chk := s.chkMma src b n (if s.leads t then w else { w with av := 1 })

/-- MMAP (R295, R306 to R308): its engine must be free and its sources there before it is presented (R25); then the partner must be presented and
both engines free; then the fields are compared and the half's own checks made. -/
def State.chkMmap (s : State) (src b n : Nat) (w : MmaW) : Chk :=
  if !s.matFree && s.cx.presented.isNone then .wait .engine else
  let reads := s.pairReads src b w
  match reads with
  | .wait v => .wait v
  | _ =>
    match s.pairTrap w, s.partner w.gid with
    | some t, _ => .trap t
    | none, none => .ok
    | none, some (gid, t) =>
      match s.presentedAt t gid with
      | none => .wait .pair
      | some (p, c) =>
        if !s.pairFree p then .wait .pair
        else
          match s.mmapOf p c with
          | some (.mmap _ _ _ v, _) =>
            if v.ta != w.ta || v.tb != w.tb || v.kg != w.kg || v.mm1 != w.mm1 then .trap (s.trapPair 15 3 w.gid (clCore (s.task t).lcore))
            else reads.andThen (s.chkHalf src b n w t)
          | _ => .wait .pair

/-! ### Group barriers (R387) -/

/-- (PHASE - GTN) mod 2^32 < 2^31 for the group of a slot. -/
def State.phaseReached (s : State) (n : Nat) : Bool :=
  modI 32 (((s.group (dieOf s.lc) ((s.myTask.slotGid n).getD 0)).phase : Int) - Tbl.get 0 s.myTask.gt n) < 2 ^ 31

/-- The arrival of a presented GBAR: once, however often it is presented. -/
def State.gbarArrive (s : State) (n : Nat) : State :=
  let t := s.myTask
  match t.slotGid n with
  | none => s
  | some gid =>
    if Tbl.get false t.gw n then s
    else
      let d := dieOf s.lc
      let ph := ((s.group d gid).phase + 1) % 2 ^ 32
      let s := s.modTask s.tid (fun t => { t with gw := Tbl.put t.gw n true, gt := Tbl.put t.gt n ph })
      s.modGroup d gid (fun g => { g with arr := g.arr + 1 }.settle)

/-! ### Ticketed updates (R318, R332, R333) -/

/-- A part leaves for its controller, on the core's port or as a message (R318, R426). -/
def State.sendPart (s : State) (t : AccTgt) (op td ticket mask lane0 addr : Nat) (pay : List Nat) : State :=
  match s.wayTo t with
  | none =>
    let p : Part := { td := td, ticket := ticket, op := op, mask := mask, lane0 := lane0, off := t.off, pay := pay, asid := s.asid
                      lcore := t.unit, pcore := s.cur, task := s.tid, addr := addr, id := s.fresh
                      iss := s.cyc, slot := s.slot }
    { s with parts := s.parts ++ [p] }.bump
  | some pa => s.sendHome (dieOf s.lc) 5 pa 0
      [ticket + td * 2 ^ 32 + op * 2 ^ 38 + s.asid * 2 ^ 40 + lane0 * 2 ^ 52, mask, joinEl 32 pay] { s.me with lane := addr }

/-- A scalar ticketed update: lane 0 alone. -/
def State.sendScalar (s : State) (op ea x ticket td : Nat) : State :=
  match s.accOperand ea 4 with
  | .error _ => s
  | .ok t => s.sendPart t op td (ticket % 2 ^ 32) 1 0 ea [x % 2 ^ 32]

/-- The parts of a row below part `n` (R318). -/
def State.sendRow (s : State) (op p ea v ticket td n : Nat) : State :=
  let mask := joinEl 1 ((List.range 64).map (fun i => b2n (act p 32 i)))
  ((List.range n).filter (fun q => mask / 2 ^ (16 * q) % 2 ^ 16 != 0)).foldl (fun s q =>
    match s.accOperand (modI 64 ((ea + 64 * q : Nat) : Int)) 4 with
    | .error _ => s
    | .ok t => s.sendPart t op td (ticket % 2 ^ 32) mask (16 * q) (ea + 64 * q) ((List.range 16).map (fun k => el 32 v (16 * q + k)))) s

/-- Operation, source, descriptor, row, predicate, ticket register and domain of a vector ticketed update. -/
def tkRow : Instr → Option (Nat × Nat × Nat × Nat × Nat × Nat × Nat)
  | .vtkadd x a k p t td => some (0, x, a, k, p, t, td)
  | .vtkmin x a k p t td => some (1, x, a, k, p, t, td)
  | .vtkmax x a k p t td => some (2, x, a, k, p, t, td)
  | _ => none

/-- A PAIR_TIMEOUT of a recorded timeout clears the record (R308). -/
def State.clearTimeout (s : State) (i : Instr) (t : Trap) : State :=
  match i with
  | .mmap _ _ _ w =>
    if t.cause = 16 && t.d0 = 2 then
      match s.myTask.slotGid w.gid with
      | some gid => s.modGroup (dieOf s.lc) gid (fun g => { g with tout := false })
      | none => s
    else s
  | _ => s

/-- A bundle whose operation traps. Parts of a vector ticketed update below the part of the failing lane are sent first
(R333). -/
def State.stopOp (s : State) (i : Instr) (t : Trap) : State :=
  match tkRow i with
  | none => (s.clearTimeout i t).takeTrap t
  | some (op, x, a, k, p, xt, td) =>
    match s.chkReads i, s.accRow a k with
    | .ok, .ok r =>
      match s.laneFail (s.rp p).toNat r with
      | none => s.takeTrap t
      | some (l, _) => (s.sendRow op (s.rp p).toNat r.1 (s.rv x) (s.rx xt).toNat td (l / 16)).takeTrap t
    | _, _ => s.takeTrap t

/-! ### Recipes (R219) -/

/-- RCPDEF: room in the table for a new entry. -/
def State.chkRecipe (s : State) (v : Nat) : Chk :=
  Chk.when ((s.ar.recipe v).isNone && 32 ≤ s.ar.recipes.length) (.trap { cause := 11, d0 := 3, d1 := v })

/-! ### All of them -/

/-- The operation's own checks, after its registers and the acquires before it. -/
def State.chkOp (s : State) : Instr → Chk
  | .ldg z _ a i w => s.chkLdg (s.scalarEa a i w) (sizeOf z)
  | .stg z _ a i w => s.chkStg (s.scalarEa a i w) (sizeOf z)
  | .ldl z _ a i w => s.chkSp (s.scalarEa a i w) (sizeOf z) (s.chkQual (qualOf w))
  | .stl z _ a i w => s.chkSp (s.scalarEa a i w) (sizeOf z) .ok
  | .barinit x a => s.chkBarinit (s.effAddr (s.rx a).toNat) (s.rx x).toNat
  | .bararr _ a _ => s.chkSp (s.effAddr (s.rx a).toNat) 8 s.chkRoom
  | .barwait _ a p => s.chkBarwait (s.effAddr (s.rx a).toNat) p
  | .waitcc c n => Chk.when (n < (s.ar.getSr (0x010 + c)).toNat) (s.waitAfterRelease .counter)
  | .fenceL => s.chkReleased
  | .fenceE => s.chkReleased.andThen
      (if s.holdsCommands then .wait .ckpt else Chk.when (!(s.cmdsOf s.tid).isEmpty) (.wait .engine))
  | .ifence => if s.holdsCommands then .wait .ckpt
      else Chk.when ((s.cmdsOf s.tid).any (fun c => c.kind == 0 && fld (c.stg.getD 1 0) 63 62 == 3)) (.wait .engine)
  | .gbar _ n => if s.myTask.slotGid n = none then .trap { cause := 14, d0 := 3, d1 := n }
      else if !s.cx.bnd then .wait .ckpt
      else s.chkReleased.andThen (Chk.when (!(Tbl.get false s.myTask.gw n && s.phaseReached n)) (.wait .group))
  | .tdec .. => s.chkReleased.andThen s.chkRoom
  | .endt => s.chkReleased.andThen (Chk.when (s.ar.loads.any (PendLoad.lateStream s.ar.scyc)) (.wait .late))
  | .tkopen _ a _ _ | .tkskip _ a _ _ | .tkstat _ a _ _ | .tkclose _ a _ _ =>
      (s.chkAcc (s.effAddr (s.rx a).toNat) 1).andThen s.chkRoom
  | .tkdrain _ a td => s.chkDrain (s.effAddr (s.rx a).toNat) td
  | .tkadd a _ _ _ | .tkmin a _ _ _ | .tkmax a _ _ _ => s.chkAcc (s.effAddr (s.rx a).toNat) 4
  | .aadd _ a _ t | .amin _ a _ t | .amax _ a _ t | .axchg _ a _ t | .acas _ a _ _ t =>
      (s.chkAcc (s.effAddr (s.rx a).toNat) (if 2 ≤ t then 8 else 4)).andThen s.chkRoom
  | .xferOwned a b n1 => s.chkXfer (s.rx a).toNat (s.rx b).toNat (n1 + 1) 0
  | .xferShared a b n1 => s.chkXfer (s.rx a).toNat (s.rx b).toNat (n1 + 1) 1
  | .xferEngine a b n1 => s.chkXfer (s.rx a).toNat (s.rx b).toNat (n1 + 1) 2
  | .lock _ a b | .unlock _ a b => (s.chkLock (s.rx a).toNat (s.rx b).toNat).andThen s.chkRoom
  | .tokacq _ a b | .tokrel _ a b => (s.chkToken (s.rx a).toNat (s.rx b).toNat).andThen s.chkRoom
  | .qbind n a dir fek add ai depth =>
      (s.chkSettled n).andThen (Chk.when (s.binding a dir fek add ai depth).malformed (.trap { cause := 12, d0 := 5, d1 := n }))
  | .qunbind n => s.chkSettled n
  | .qsync n => match s.stream n with
      | some st => if st.dir = 1 then (s.chkSettled n).andThen ((Chk.when (!s.cx.bnd) (.wait .ckpt)).andThen
          (Chk.when (s.farOpen (fun k => k.m.kind == 3 && k.req == 0)) (.wait .engine))) else .ok
      | none => .ok
  | .vld _ a k p w => s.chkRow false true a k (s.rp p).toNat w
  | .vst _ a k p w => s.chkRow false false a k (s.rp p).toNat w
  | .vlda _ a k p w => s.chkRow true true a k (s.rp p).toNat w
  | .vsta _ a k p w | .vstaAdd _ a k p w => s.chkRow true false a k (s.rp p).toNat w
  | .vtkadd _ a k p _ _ | .vtkmin _ a k p _ _ | .vtkmax _ a k p _ _ => s.chkTkRow a k (s.rp p).toNat
  | .vaadd _ a k _ _ _ _ | .vamin _ a k _ _ _ _ | .vamax _ a k _ _ _ _ | .vaxchg _ a k _ _ _ _ =>
      (Chk.ofRes (fun _ => .ok) (s.accRow a k)).andThen s.chkRoom
  | .rcpdef v _ | .rcpdefEmbedded v _ _ => s.chkRecipe v
  | .ttw .. | .ttr .. => Chk.when (s.core s.cur).ttBusy (.wait .engine)
  | .mma a b n w => s.chkMma a b n w
  | .mzero n => Chk.ofTrap (tileBad (s.ar.tile n))
  | .mtile _ a => Chk.when (2 ^ 29 ≤ (s.rx a).toNat || !tileWordOk (s.rx a).toNat) (.trap (trapAddress 1 (s.rx a).toNat))
  | i => s.chkCmd i

/-- The checks of an operation: an engine that is free (R25), the acquires before it (R347), its registers, then its own (R404). The trap
names its slot. -/
def State.opCheck (s : State) (i : Instr) : Chk :=
  let c := match i with
    | .mmap src b n w => s.chkAcquired.andThen (s.chkMmap src b n w)
    | _ =>
      if i.needsMatrix && !s.matFree then .wait .engine
      else ((if i.accesses then s.chkAcquired else .ok).andThen (s.chkReads i)).andThen ((s.chkOp i).andThen (s.chkJump i))
  match c with
  | .trap t => .trap { t with slot := s.slot }
  | c => c

/-! ### Issuing one operation -/

/-- What a bundle that waits does: GBAR arrives when it is presented (R387), MMAP is presented (R307), a drain waits on its
domain (R322), and an implicit checkpoint is taken where the wait asks for one and it can be made (R398). -/
def State.holdOp (s : State) (i : Instr) : Wait → State
  | .ckpt => if s.canCommit [] then (s.implicitCommit).modCx (fun k => { k with bnd := true }) else s
  | .group => match i with
    | .gbar _ n => s.gbarArrive n
    | _ => s
  | .pair => match i with
    | .mmap _ _ _ w => s.presentPair w
    | _ => s
  | .drain => match i with
    | .tkdrain _ a td => match s.accOperand (s.effAddr (s.rx a).toNat) 1 with
      | .ok t => s.modCx (fun k => { k with drainOn := some (t.unit * 64 + td) })
      | .error _ => s
    | _ => s
  | _ => s

/-- A core cycle passes. -/
def State.tick (s : State) : State := s.modCore s.cur (fun p => { p with cyc := p.cyc + 1 })

/-- An operation: where its bundle's checks have been made it has its effect; else its own checks decide between that, a
core cycle in which it waits (R25), and its trap (R403). -/
def State.runOp (i : Instr) (f : State → State) (s : State) : Host.Outcome State Fault Refusal :=
  if s.bun.checked then .next (f s)
  else
    match s.opCheck i with
    | .ok => .next (f s)
    | .wait w => .next (s.holdOp i w).tick
    | .trap t => .next (s.stopOp i t)

end Sys2Proof.Machine
end

