-- ==== Sys2Proof/Machine/Scalar.lean ====
section
/-! DEFINITION. Scalar instructions (R32, R249 to R262, R217, R141): each reads its sources as visible at issue and lands one
result at its latency. -/

namespace Sys2Proof.Machine

/-- A scalar result at a latency. -/
def State.scalarOp (i : Instr) (d lat : Nat) (v : State → Word) (s : State) : Host.Outcome State Fault Refusal :=
  s.runOp i (fun s => s.outX d lat (v s))

/-- The generator's counter for the next consuming operation of the bundle (R241). -/
def State.rngCtr (s : State) : Nat := ((s.ar.getSr 0x007).toNat + (s.bun.ends.filter (fun e => e == .rng)).length) % 2 ^ 64

/-- One more consuming operation. -/
def State.useRng (s : State) : State := s.modBun (fun b => { b with ends := b.ends ++ [.rng] })

/-- A no-operation bundle does nothing; its context cycle and its checkpoint are the bundle's (R32). -/
def execNop (bh ck ic ilv : Nat) (s : State) : Host.Outcome State Fault Refusal := s.runOp (.nop bh ck ic ilv) (fun s => s)

/-- ADD (R251). -/
def execAdd (d a b : Nat) (s : State) : Host.Outcome State Fault Refusal :=
  s.scalarOp (.add d a b) d 1 (fun s => s.rx a + s.rx b)

/-- SUB (R251). -/
def execSub (d a b : Nat) (s : State) : Host.Outcome State Fault Refusal :=
  s.scalarOp (.sub d a b) d 1 (fun s => s.rx a - s.rx b)

/-- MUL (R253). -/
def execMul (d a b : Nat) (s : State) : Host.Outcome State Fault Refusal :=
  s.scalarOp (.mul d a b) d 3 (fun s => s.rx a * s.rx b)

/-- MULH (R253). -/
def execMulh (d a b : Nat) (s : State) : Host.Outcome State Fault Refusal :=
  s.scalarOp (.mulh d a b) d 3 (fun s => aluMulh (s.rx a) (s.rx b))

/-- DIV (R253). -/
def execDiv (d a b : Nat) (s : State) : Host.Outcome State Fault Refusal :=
  s.scalarOp (.div d a b) d 20 (fun s => aluDiv (s.rx a) (s.rx b))

/-- DIVN (R253). -/
def execDivn (d a b : Nat) (s : State) : Host.Outcome State Fault Refusal :=
  s.scalarOp (.divn d a b) d 20 (fun s => aluDivn (s.rx a) (s.rx b))

/-- REM (R253). -/
def execRem (d a b : Nat) (s : State) : Host.Outcome State Fault Refusal :=
  s.scalarOp (.rem d a b) d 20 (fun s => aluRem (s.rx a) (s.rx b))

/-- REMN (R253). -/
def execRemn (d a b : Nat) (s : State) : Host.Outcome State Fault Refusal :=
  s.scalarOp (.remn d a b) d 20 (fun s => aluRemn (s.rx a) (s.rx b))

/-- AND (R251). -/
def execAnd (d a b : Nat) (s : State) : Host.Outcome State Fault Refusal :=
  s.scalarOp (.and d a b) d 1 (fun s => s.rx a &&& s.rx b)

/-- OR (R251). -/
def execOr (d a b : Nat) (s : State) : Host.Outcome State Fault Refusal :=
  s.scalarOp (.or d a b) d 1 (fun s => s.rx a ||| s.rx b)

/-- XOR (R251). -/
def execXor (d a b : Nat) (s : State) : Host.Outcome State Fault Refusal :=
  s.scalarOp (.xor d a b) d 1 (fun s => s.rx a ^^^ s.rx b)

/-- SHL (R252). -/
def execShl (d a b : Nat) (s : State) : Host.Outcome State Fault Refusal :=
  s.scalarOp (.shl d a b) d 1 (fun s => aluShl (s.rx a) (s.rx b))

/-- SHRL (R252). -/
def execShrl (d a b : Nat) (s : State) : Host.Outcome State Fault Refusal :=
  s.scalarOp (.shrl d a b) d 1 (fun s => aluShrl (s.rx a) (s.rx b))

/-- SHRA (R252). -/
def execShra (d a b : Nat) (s : State) : Host.Outcome State Fault Refusal :=
  s.scalarOp (.shra d a b) d 1 (fun s => aluShra (s.rx a) (s.rx b))

/-- MIN (R251). -/
def execMin (d a b : Nat) (s : State) : Host.Outcome State Fault Refusal :=
  s.scalarOp (.min d a b) d 1 (fun s => aluMin (s.rx a) (s.rx b))

/-- MAX (R251). -/
def execMax (d a b : Nat) (s : State) : Host.Outcome State Fault Refusal :=
  s.scalarOp (.max d a b) d 1 (fun s => aluMax (s.rx a) (s.rx b))

/-- MINN (R251). -/
def execMinn (d a b : Nat) (s : State) : Host.Outcome State Fault Refusal :=
  s.scalarOp (.minn d a b) d 1 (fun s => aluMinn (s.rx a) (s.rx b))

/-- MAXN (R251). -/
def execMaxn (d a b : Nat) (s : State) : Host.Outcome State Fault Refusal :=
  s.scalarOp (.maxn d a b) d 1 (fun s => aluMaxn (s.rx a) (s.rx b))

/-- CMP (R49, R254). -/
def execCmp (d a b c : Nat) (s : State) : Host.Outcome State Fault Refusal :=
  s.scalarOp (.cmp d a b c) d 1 (fun s => aluCmp c (s.rx a) (s.rx b))

/-- SEL (R254). -/
def execSel (d a b xc : Nat) (s : State) : Host.Outcome State Fault Refusal :=
  s.scalarOp (.sel d a b xc) d 1 (fun s => if s.rx xc = 0 then s.rx b else s.rx a)

/-- CLZ (R255). -/
def execClz (d a : Nat) (s : State) : Host.Outcome State Fault Refusal :=
  s.scalarOp (.clz d a) d 1 (fun s => aluClz (s.rx a))

/-- POPC (R255). -/
def execPopc (d a : Nat) (s : State) : Host.Outcome State Fault Refusal :=
  s.scalarOp (.popc d a) d 1 (fun s => aluPopc (s.rx a))

/-- BFX (R256). -/
def execBfx (d a pos lm1 sx : Nat) (s : State) : Host.Outcome State Fault Refusal :=
  s.scalarOp (.bfx d a pos lm1 sx) d 1 (fun s => aluBfx (s.rx a) pos lm1 sx)

/-- BFI (R256). -/
def execBfi (d a b pos lm1 : Nat) (s : State) : Host.Outcome State Fault Refusal :=
  s.scalarOp (.bfi d a b pos lm1) d 1 (fun s => aluBfi (s.rx a) (s.rx b) pos lm1)

/-- ADDI (R257). -/
def execAddi (d a i : Nat) (s : State) : Host.Outcome State Fault Refusal :=
  s.scalarOp (.addi d a i) d 1 (fun s => s.rx a + immW i)

/-- ANDI (R257). -/
def execAndi (d a i : Nat) (s : State) : Host.Outcome State Fault Refusal :=
  s.scalarOp (.andi d a i) d 1 (fun s => s.rx a &&& immW i)

/-- ORI (R257). -/
def execOri (d a i : Nat) (s : State) : Host.Outcome State Fault Refusal :=
  s.scalarOp (.ori d a i) d 1 (fun s => s.rx a ||| immW i)

/-- XORI (R257). -/
def execXori (d a i : Nat) (s : State) : Host.Outcome State Fault Refusal :=
  s.scalarOp (.xori d a i) d 1 (fun s => s.rx a ^^^ immW i)

/-- SHLI (R252). -/
def execShli (d a n : Nat) (s : State) : Host.Outcome State Fault Refusal :=
  s.scalarOp (.shli d a n) d 1 (fun s => s.rx a <<< n)

/-- SHRLI (R252). -/
def execShrli (d a n : Nat) (s : State) : Host.Outcome State Fault Refusal :=
  s.scalarOp (.shrli d a n) d 1 (fun s => s.rx a >>> n)

/-- SHRAI (R252). -/
def execShrai (d a n : Nat) (s : State) : Host.Outcome State Fault Refusal :=
  s.scalarOp (.shrai d a n) d 1 (fun s => (s.rx a).sshiftRight n)

/-- LI (R258). -/
def execLi (d i : Nat) (w : Option Nat) (s : State) : Host.Outcome State Fault Refusal :=
  s.scalarOp (.li d i w) d 1 (fun s => aluLi i w)

/-- LIH (R258). -/
def execLih (d i : Nat) (s : State) : Host.Outcome State Fault Refusal :=
  s.scalarOp (.lih d i) d 1 (fun s => aluLih (s.rx d) i)

/-- FADD (R259). -/
def execFadd (d a b r : Nat) (s : State) : Host.Outcome State Fault Refusal :=
  s.scalarOp (.fadd d a b r) d 4 (fun s => aluFadd (s.rx a) (s.rx b) r)

/-- FMUL (R259). -/
def execFmul (d a b r : Nat) (s : State) : Host.Outcome State Fault Refusal :=
  s.scalarOp (.fmul d a b r) d 4 (fun s => aluFmul (s.rx a) (s.rx b) r)

/-- FFMA (R259). -/
def execFfma (d a b xc r : Nat) (s : State) : Host.Outcome State Fault Refusal :=
  s.scalarOp (.ffma d a b xc r) d 4 (fun s => aluFfma (s.rx a) (s.rx b) (s.rx xc) r)

/-- FCMP (R260). -/
def execFcmp (d a b c : Nat) (s : State) : Host.Outcome State Fault Refusal :=
  s.scalarOp (.fcmp d a b c) d 2 (fun s => aluFcmp c (s.rx a) (s.rx b))

/-- FCVT (R261); under SR it takes the generator's word 0 (R241). -/
def execFcvt (d a : Nat) (w : CW) (s : State) : Host.Outcome State Fault Refusal :=
  s.runOp (.fcvt d a w) (fun s =>
    if w.rm = 4 then (s.outX d 4 (aluFcvt (s.rx a) w (rngWord (s.ar.getSr 0x006).toNat s.rngCtr 0))).useRng
    else s.outX d 4 (aluFcvt (s.rx a) w 0))

/-- MOVS (R217). -/
def execMovs (d n : Nat) (s : State) : Host.Outcome State Fault Refusal :=
  s.scalarOp (.movs d n) d 1 (fun s => s.readSr n)

/-- MOVD (R217); a write of ENGCTL is held until its checkpoint commits (R138, R155). -/
def execMovd (a n : Nat) (s : State) : Host.Outcome State Fault Refusal :=
  s.runOp (.movd a n) (fun s =>
    if n = 0x00D then s.modBun (fun b => { b with ops := b.ops ++ [⟨s.slot, .movd a n, [(s.rx a).toNat], 0, none⟩] })
    else s.out .sr n 1 (s.rx a).toNat)

/-- SETE (R141). -/
def execSete (a k st i : Nat) (s : State) : Host.Outcome State Fault Refusal :=
  s.runOp (.sete a k st i) (fun s => s.out .stg (stgNum k st i) 1 (s.rx a).toNat)

/-- ENGCTL, resume: the parked command of kind k of the context's task goes on (R155). -/
def execEngctlResume (p c k : Nat) (s : State) : Host.Outcome State Fault Refusal := .next (s.engResume (s.ctxAt p c).tid k)

/-- ENGCTL, cancel: the parked command of kind k of the context's task ends (R155). -/
def execEngctlCancel (p c k : Nat) (s : State) : Host.Outcome State Fault Refusal := .next (s.engCancel (s.ctxAt p c).tid k)

end Sys2Proof.Machine
end

