-- ==== Sys2Proof/Machine/Memory.lean ====
section
/-! DEFINITION. Scalar memory, barriers, counters and fences (R93 to R98, R124 to R135). -/

namespace Sys2Proof.Machine

/-! ### Operations that loads and stores share -/

/-- `n` bytes of a physical address that the context reaches at once, as it sees them, and whether poison reaches the load (R95, R98). -/
def State.globBytes (s : State) (pa n : Nat) : Nat × Bool :=
  match s.isLocal (dieOf s.lc) pa, s.home pa with
  | true, .acc u o => (s.accFree s.cyc u o n (s.spBytes true u none o n), s.spPois true u none o n 1)
  | l, _ =>
    let v := if l then s.readPAn pa n else s.memN pa n
    let bad := if l then s.poisPA pa else s.mem.isPois pa
    (overlay s.cx.wbuf .glob 0 pa n v, bad && !coveredGranule s.cx.wbuf .glob 0 pa)

/-- Where the withheld stores of the context to a physical address stand. -/
def State.heldAt (s : State) (pa : Nat) : Space × Nat × Nat :=
  match s.isLocal (dieOf s.lc) pa, s.home pa with
  | true, .acc u o => (.acc, u, o)
  | _, _ => (.glob, 0, pa)

/-- A mask of the bytes that the context's withheld stores supply (R98), and above it whether one of them covers the granule whole, so that
its poison does not reach the load (R91). -/
def State.heldMask (s : State) (pa n : Nat) : Nat :=
  let (sp, u, a) := s.heldAt pa
  joinEl 1 ((List.range n).map (fun i => b2n (fwdByte sp u (a + i) s.cx.wbuf).isSome)) + b2n (coveredGranule s.cx.wbuf sp u a) * 2 ^ n

/-- The withheld bytes themselves, zero elsewhere. -/
def State.heldBytes (s : State) (pa n : Nat) : Nat :=
  let (sp, u, a) := s.heldAt pa
  overlay s.cx.wbuf sp u a n 0

/-- LDG's effect (R95 step 3): bytes that the die does not reach at once are asked for (R426). -/
def State.loadGlobal (s : State) (z d ea : Nat) : State :=
  let n := sizeOf z
  match s.globalAddr ea n false with
  | .error _ => s
  | .ok ph =>
    let die := dieOf s.lc
    let s := s.modBun (fun b => { b with pages := b.pages ++ [ea] })
    let r : LoadRes := ⟨.x, d, s.glat, 0, none, ea, 0, z % 4, true, false, if isAccWin ph.pa then 3 else 2⟩
    if s.atOnce die ph.pa s.tid s.fresh || s.linePresent die ph.pa then
      let (v, bad) := s.globBytes ph.pa n
      s.load { r with val := scalarVal z v, pois := if bad then some ea else none }
    else
      (s.loadWait { r with val := s.heldBytes ph.pa n }).sendHome die 1 ph.pa 0 [z % 4]
        { s.me with ref := s.fresh, lane := s.heldMask ph.pa n, sx := 4 ≤ z }

/-- Bytes for a global address enter the withholding buffer (R95 step 4). -/
def State.storeGlobal (s : State) (ea n v : Nat) : State :=
  match s.globalAddr ea n true with
  | .error _ => s
  | .ok ph =>
    let s := s.modBun (fun b => { b with pages := b.pages ++ [ea] })
    match s.isLocal (dieOf s.lc) ph.pa, s.home ph.pa with
    | true, .acc u o => s.withhold s.cyc (lineEntries .acc u .weak 4 s.bun.pc s.slot o n (ones n) v)
    | _, _ => s.withhold s.cyc (lineEntries .glob 0 .weak 4 s.bun.pc s.slot ph.pa n (ones n) v)

/-- Declared latency of a scratchpad access (R120). -/
def State.spLat (s : State) (unit : Nat) : Nat := if unit = s.lc then 10 else 32

/-- How a load of the issuing operation comes back. -/
def State.loadAs (s : State) (r : LoadRes) (waits : Bool) : State := if waits then s.loadWait r else s.load r

/-- LDL's effect (R125); a consuming one is left to the commit (R399). -/
def State.loadLocal (s : State) (i : Instr) (z d q ea : Nat) : State :=
  match spScalar s.lc ea (sizeOf z) (sizeOf z) with
  | .error _ => s
  | .ok (u, o) =>
    if q = 2 then s.modBun (fun b => { b with ops := b.ops ++ [⟨s.slot, i, [ea], 0, none⟩] })
    else
      let r : LoadRes := ⟨.x, d, s.spLat u, 0, none, ea, q, z % 4, false, false, 1⟩
      if q = 3 then s.feLoad s.cyc false u none o z 0 0 true r State.loadAs
      else
        let v := s.spBytes false u none o (sizeOf z)
        let bad := s.spPois false u none o (sizeOf z) 1
        s.load { r with val := scalarVal z v, pois := if bad then some ea else none }

/-- How a store of a qualifier is performed (R126). -/
def kindOf (q : Nat) : WKind := if q = 0 then .weak else if q = 1 then .strong else .fe

/-- Bytes for a scratchpad address enter the withholding buffer (R126). -/
def State.storeLocal (s : State) (ea n v : Nat) (k : WKind) : State :=
  match spScalar s.lc ea n n with
  | .error _ => s
  | .ok (u, o) => s.withhold s.cyc (lineEntries .sp u k 4 s.bun.pc s.slot o n (ones n) v)

/-- An operation that acts at its commit (R399), with its operands as read now. -/
def State.defer (s : State) (i : Instr) (vals : List Nat) : State :=
  s.modBun (fun b => { b with ops := b.ops ++ [⟨s.slot, i, vals, 0, none⟩] })

/-! ### The instructions -/

/-- LDG (R93 to R96). -/
def execLdg (z d a i : Nat) (w : Option MW) (s : State) : Host.Outcome State Fault Refusal :=
  s.runOp (.ldg z d a i w) (fun s => s.loadGlobal z d (s.scalarEa a i w))

/-- STG (R93 to R95). -/
def execStg (z x a i : Nat) (w : Option MW) (s : State) : Host.Outcome State Fault Refusal :=
  s.runOp (.stg z x a i w) (fun s => s.storeGlobal (s.scalarEa a i w) (sizeOf z) (s.rx x).toNat)

/-- LDL (R124, R125). -/
def execLdl (z d a i : Nat) (w : Option MW) (s : State) : Host.Outcome State Fault Refusal :=
  s.runOp (.ldl z d a i w) (fun s => s.loadLocal (.ldl z d a i w) z d (qualOf w) (s.scalarEa a i w))

/-- STL (R124, R126). -/
def execStl (z x a i : Nat) (w : Option MW) (s : State) : Host.Outcome State Fault Refusal :=
  s.runOp (.stl z x a i w) (fun s => s.storeLocal (s.scalarEa a i w) (sizeOf z) (s.rx x).toNat (kindOf (qualOf w)))

/-- BARINIT (R131). -/
def execBarinit (x a : Nat) (s : State) : Host.Outcome State Fault Refusal :=
  s.runOp (.barinit x a) (fun s => s.storeLocal (s.effAddr (s.rx a).toNat) 8 (barInitWord (s.rx x).toNat) .barinit)

/-- BARARR arrives at its commit (R132). -/
def execBararr (d a n : Nat) (s : State) : Host.Outcome State Fault Refusal :=
  s.runOp (.bararr d a n) (fun s => s.defer (.bararr d a n) [s.effAddr (s.rx a).toNat])

/-- BARWAIT (R133). -/
def execBarwait (d a p : Nat) (s : State) : Host.Outcome State Fault Refusal :=
  s.runOp (.barwait d a p) (fun s => s.outX d 1 (BitVec.ofNat 64 (s.barWord (s.effAddr (s.rx a).toNat))))

/-- WAITCC writes nothing (R134). -/
def execWaitcc (c n : Nat) (s : State) : Host.Outcome State Fault Refusal := s.runOp (.waitcc c n) (fun s => s)

/-- FENCE.L: its bundle commits, and its commit orders (R135, R398). -/
def execFenceL (s : State) : Host.Outcome State Fault Refusal := s.runOp .fenceL (fun s => s.defer .fenceL [])

/-- FENCE.E: its bundle commits once every earlier command has completed, and its commit orders (R135, R398). -/
def execFenceE (s : State) : Host.Outcome State Fault Refusal := s.runOp .fenceE (fun s => s.defer .fenceE [])

end Sys2Proof.Machine
end

