-- ==== Sys2Proof/Machine/Control.lean ====
section
/-! DEFINITION. Control flow (R353 to R366). A transfer leaves its target with the bundle, whose end moves the pc. -/

namespace Sys2Proof.Machine

/-- BR (R356). -/
def execBr (a b c off : Nat) (s : State) : Host.Outcome State Fault Refusal :=
  s.runOp (.br a b c off) (fun s => s.takeJump (.br a b c off) true)

/-- J (R357). -/
def execJ (o : Nat) (s : State) : Host.Outcome State Fault Refusal := s.runOp (.j o) (fun s => s.takeJump (.j o) true)

/-- CALL (R357): x63 takes the link value. -/
def execCall (o : Nat) (s : State) : Host.Outcome State Fault Refusal :=
  s.runOp (.call o) (fun s => ((s.takeJump (.call o) false).outX 63 1 (BitVec.ofNat 64 s.bun.next)).pushRet)

/-- JR (R358). -/
def execJr (a : Nat) (s : State) : Host.Outcome State Fault Refusal := s.runOp (.jr a) (fun s => s.takeJump (.jr a) true)

/-- CALLR (R358). -/
def execCallr (d a : Nat) (s : State) : Host.Outcome State Fault Refusal :=
  s.runOp (.callr d a) (fun s => ((s.takeJump (.callr d a) false).outX d 1 (BitVec.ofNat 64 s.bun.next)).pushRet)

/-- RET (R358): it pops the return stack. -/
def execRet (a : Nat) (s : State) : Host.Outcome State Fault Refusal :=
  s.runOp (.ret a) (fun s => (s.takeJump (.ret a) true).modCx (fun k => { k with rets := k.rets.drop 1 }))

/-- BRT (R359). -/
def execBrt (ca cb cc neg cd off : Nat) (s : State) : Host.Outcome State Fault Refusal :=
  s.runOp (.brt ca cb cc neg cd off) (fun s => s.takeJump (.brt ca cb cc neg cd off) true)

/-- LOOP (R361). In an end bundle it counts as a transfer to its own fall-through (R363). -/
def execLoop (d a lvl src tripi last : Nat) (s : State) : Host.Outcome State Fault Refusal :=
  s.runOp (.loop d a lvl src tripi last) (fun s =>
    let n := s.tripOf a src tripi
    let atEnd := !(s.ar.endsAt s.bun.pc).isEmpty
    (s.takeJump (.loop d a lvl src tripi last) false).modBun (fun b =>
      { b with noEnd := b.noEnd || atEnd, out := if atEnd then some b.next else b.out
               ends := b.ends ++ [.loopSet lvl n b.next (s.loopEnd last) d (n != 0)] }))

/-- BSW (R366): the other bank becomes current, and every loop level ends. -/
def execBsw (a i : Nat) (s : State) : Host.Outcome State Fault Refusal :=
  s.runOp (.bsw a i) (fun s => (s.takeJump (.bsw a i) true).modBun (fun b => { b with outAll := true }))

/-- IFENCE (R365): its bundle commits, and every fetched packet is discarded. -/
def execIfence (s : State) : Host.Outcome State Fault Refusal :=
  s.runOp .ifence (fun s => (s.modCx (fun k => { k with pkts := [], pktPois := [] })).modBun (fun b => { b with cost := 6 }))

end Sys2Proof.Machine
end

