-- ==== Sys2Proof/Machine/Tasks.lean ====
section
/-! DEFINITION. Groups, tasks and system operations (R387 to R392, R408, R409). ENDT, YIELD, TRAP, BRK and RETT act once their
bundle has committed: the bundle's end calls them then. -/

namespace Sys2Proof.Machine

/-- GBAR passes (R387). -/
def execGbar (d g : Nat) (s : State) : Host.Outcome State Fault Refusal :=
  s.runOp (.gbar d g) (fun s =>
    (s.outX d 1 (BitVec.ofNat 64 (Tbl.get 0 s.myTask.gt g))).modTask s.tid (fun t => { t with gw := Tbl.put t.gw g false }))

/-- GLEAVE leaves at its commit (R387). -/
def execGleave (g : Nat) (s : State) : Host.Outcome State Fault Refusal := s.runOp (.gleave g) (fun s => s.defer (.gleave g) [])

/-- TDEC decrements at its commit (R391). -/
def execTdec (d a n : Nat) (s : State) : Host.Outcome State Fault Refusal :=
  s.runOp (.tdec d a n) (fun s => s.defer (.tdec d a n) [(s.rx a).toNat])

/-- Results in flight of the context's task reach their registers as it ends (R392). -/
def State.landAll (s : State) : State :=
  s.modAr (fun a => (a.inflight.filter (fun l => !l.toStream)).foldl (fun a l => a.landReg l) { a with inflight := [] })

/-- The locks of a task are released (R101). -/
def State.dropLocks (s : State) (id : Nat) : State :=
  { s with dies := s.dies.map (fun d => (d.1, { d.2 with locks := d.2.locks.filter (fun l => l.2 != id) })) }

/-- A dependence link of a task that ends (R392 step 4). -/
def State.decLink (s : State) (id : Nat) : State := if id = 0 then s else (s.decTask (dieOf s.lc) id 1).2

/-- The end of the issuing context's task (R392). -/
def State.endTask (s : State) : State :=
  let id := s.tid
  let t := s.myTask
  let s := s.flushStreams.performAll.matFlush.landAll
  let s := (List.range 4).foldl (fun s n => s.leaveGroup id n) s
  let s := ((s.dropLocks id).decLink t.dept0).decLink t.dept1
  (s.modTask id (fun t => { t with state := 5, async := [] })).freeCtx

/-- ENDT (R392). -/
def execEndt (s : State) : Host.Outcome State Fault Refusal := s.runOp .endt (fun s => s.endTask)

/-- YIELD: the context is saved with the image of YIELD's own commit (R392). -/
def execYield (s : State) : Host.Outcome State Fault Refusal := s.runOp .yield (fun s => s.matFlush.saveFrame true [])

/-- TRAP, after its bundle's commit (R408). -/
def execTrap (n : Nat) (s : State) : Host.Outcome State Fault Refusal :=
  s.runOp (.trap n) (fun s => s.takeTrap { cause := 20, d0 := n, slot := 0, pc := some s.bun.pc })

/-- BRK, after its bundle's commit (R408). -/
def execBrk (n : Nat) (s : State) : Host.Outcome State Fault Refusal :=
  s.runOp (.brk n) (fun s => s.takeTrap { cause := 21, d0 := n, slot := 0, pc := some s.bun.pc })

/-- RETT, after its bundle's commit (R409). -/
def execRett (s : State) : Host.Outcome State Fault Refusal := s.runOp .rett (fun s => s.returnTrap s.bun.pc)

end Sys2Proof.Machine
end

