-- ==== Sys2Proof/Machine/Domains.lean ====
section
/-! DEFINITION. Ticket domains, ticketed updates, integer atomics, regions, locks, tokens and streams as instructions (R99 to
R106, R158 to R164, R325 to R335, R427 to R430). -/

namespace Sys2Proof.Machine

/-! ### Domain instructions -/

/-- A result of a domain instruction, at the latency of its operand (R326). -/
def State.domResult (s : State) (d : Nat) (t : AccTgt) (ea v : Nat) : State := s.load (resX d (s.accLat t) v ea t.g t.area)

/-- An operation leaves for the domain of another package (R326, log 58). -/
def State.sendAway (s : State) (i : Instr) (pa : Nat) (vals : List Nat) : State :=
  { s with away := s.away ++ [⟨dieOf s.lc, s.tid, i, pa, vals⟩] }

/-- A free word of the issuing operation (log 6). -/
def State.anyWord (s : State) : Nat := (Config.freeWord (s.free + s.slot)).toNat

/-- A free choice among status codes. -/
def State.anyOf (s : State) (l : List Nat) : Nat := l.getD (s.anyWord % l.length) 0

/-- The refusal word of R330. -/
def errWord : Nat := 2 ^ 57

/-- What TKSTAT may answer of a domain `td` that only its own package knows (R330): the fields of SEL are free, the bits that R330 fixes are as
it says. -/
def State.anyStat (s : State) (td sel : Nat) : Nat :=
  let w := s.anyWord
  if sel = 0 then (if bit w 57 then errWord else setFld (setFld w 56 48 0) 39 32 0)
  else if sel = 4 then (if bit w 15 then errWord else fld w 63 32 * 2 ^ 32 + fld w 27 16 * 2 ^ 16 + td)
  else w

/-- What a drain of such a domain may return (R329): a word that shows why it went on. -/
def State.anyDrain (s : State) (td : Nat) : Nat :=
  let w := s.anyStat td 0
  if w = errWord || fld w 63 62 = 0 || bit w 61 || bit w 60 then w else setFld w 61 61 1

/-- A domain instruction: status and logical core after it, or, on a domain of another package, what it may answer there (log 58). -/
def State.domOp (s : State) (i : Instr) (d ea : Nat) (vals : List Nat) (f : LCore → Nat × LCore) (away : Nat) : State :=
  match s.accOperand ea 1 with
  | .error _ => s
  | .ok t =>
    match t.far with
    | some pa => (s.sendAway i pa vals).domResult d t ea away
    | none =>
      let r := f (s.lcore t.unit)
      (s.setLcore t.unit r.2).domResult d t ea r.1

/-- The operand address of a domain instruction. -/
def State.domEa (s : State) (a : Nat) : Nat := s.effAddr (s.rx a).toNat

/-- TKOPEN (R327). -/
def execTkopen (d a b td : Nat) (s : State) : Host.Outcome State Fault Refusal :=
  s.runOp (.tkopen d a b td) (fun s =>
    let x := (s.rx b).toNat
    s.domOp (.tkopen d a b td) d (s.domEa a) [x, (s.ar.getSr 0x00A).toNat] (fun c =>
      let r := (c.dom td).openAs s.tid s.asid (x % 2 ^ 32) (x / 2 ^ 32) (s.ar.getSr 0x00A).toNat
      (r.1, c.setDom td r.2))
      (if x / 2 ^ 32 = 0 || 2 ^ 32 < x % 2 ^ 32 + x / 2 ^ 32 then 2 else s.anyOf [0, 1, 4]))

/-- TKSKIP (R328). -/
def execTkskip (d a b td : Nat) (s : State) : Host.Outcome State Fault Refusal :=
  s.runOp (.tkskip d a b td) (fun s =>
    let n := (s.rx b).toNat % 2 ^ 32
    s.domOp (.tkskip d a b td) d (s.domEa a) [n] (fun c => c.skipTicket td s.asid n) (s.anyOf [0, 1, 2, 3, 4]))

/-- TKDRAIN (R329): the status word with latency 1; a drain that returns GAPEV clears it. -/
def execTkdrain (d a td : Nat) (s : State) : Host.Outcome State Fault Refusal :=
  s.runOp (.tkdrain d a td) (fun s =>
    match s.accOperand (s.domEa a) 1 with
    | .error _ => s
    | .ok t =>
      match t.far with
      | some pa => (s.sendAway (.tkdrain d a td) pa []).outX d 1 (BitVec.ofNat 64 (s.anyDrain td))
      | none =>
        let m := (s.lcore t.unit).dom td
        let own := !(m.opened && m.asid != s.asid)
        let s := if own then s.modLcore t.unit (fun c => c.setDom td { m with gapev := false }) else s
        (s.outX d 1 (BitVec.ofNat 64 (m.stat td 0 s.asid))).modCx (fun k => { k with drainOn := none }))

/-- TKSTAT (R330). -/
def execTkstat (d a sel td : Nat) (s : State) : Host.Outcome State Fault Refusal :=
  s.runOp (.tkstat d a sel td) (fun s =>
    s.domOp (.tkstat d a sel td) d (s.domEa a) [] (fun c => ((c.dom td).stat td sel s.asid, c)) (s.anyStat td sel))

/-- TKCLOSE (R331). -/
def execTkclose (d a f td : Nat) (s : State) : Host.Outcome State Fault Refusal :=
  s.runOp (.tkclose d a f td) (fun s =>
    s.domOp (.tkclose d a f td) d (s.domEa a) [] (fun c => c.closeDom td s.tid (f == 1)) (s.anyOf (if f = 1 then [0, 4] else [0, 1, 4])))

/-! ### Ticketed updates (R332) -/

/-- TKADD. -/
def execTkadd (a b xt td : Nat) (s : State) : Host.Outcome State Fault Refusal :=
  s.runOp (.tkadd a b xt td) (fun s => s.sendScalar 0 (s.domEa a) (s.rx b).toNat (s.rx xt).toNat td)

/-- TKMIN. -/
def execTkmin (a b xt td : Nat) (s : State) : Host.Outcome State Fault Refusal :=
  s.runOp (.tkmin a b xt td) (fun s => s.sendScalar 1 (s.domEa a) (s.rx b).toNat (s.rx xt).toNat td)

/-- TKMAX. -/
def execTkmax (a b xt td : Nat) (s : State) : Host.Outcome State Fault Refusal :=
  s.runOp (.tkmax a b xt td) (fun s => s.sendScalar 2 (s.domEa a) (s.rx b).toNat (s.rx xt).toNat td)

/-! ### Integer atomics (R334): they act at their commit, on operands read now -/

/-- AADD. -/
def execAadd (d a b typ : Nat) (s : State) : Host.Outcome State Fault Refusal :=
  s.runOp (.aadd d a b typ) (fun s => s.defer (.aadd d a b typ) [s.domEa a, (s.rx b).toNat, 0])

/-- AMIN. -/
def execAmin (d a b typ : Nat) (s : State) : Host.Outcome State Fault Refusal :=
  s.runOp (.amin d a b typ) (fun s => s.defer (.amin d a b typ) [s.domEa a, (s.rx b).toNat, 0])

/-- AMAX. -/
def execAmax (d a b typ : Nat) (s : State) : Host.Outcome State Fault Refusal :=
  s.runOp (.amax d a b typ) (fun s => s.defer (.amax d a b typ) [s.domEa a, (s.rx b).toNat, 0])

/-- AXCHG. -/
def execAxchg (d a b typ : Nat) (s : State) : Host.Outcome State Fault Refusal :=
  s.runOp (.axchg d a b typ) (fun s => s.defer (.axchg d a b typ) [s.domEa a, (s.rx b).toNat, 0])

/-- ACAS. -/
def execAcas (d a b xc typ : Nat) (s : State) : Host.Outcome State Fault Refusal :=
  s.runOp (.acas d a b xc typ) (fun s => s.defer (.acas d a b xc typ) [s.domEa a, (s.rx b).toNat, (s.rx xc).toNat])

/-! ### Regions and tokens: they act at their commit (R105, R427) -/

/-- XFER.owned (R102 to R106). -/
def execXferOwned (a b n1 : Nat) (s : State) : Host.Outcome State Fault Refusal :=
  s.runOp (.xferOwned a b n1) (fun s => s.defer (.xferOwned a b n1) [(s.rx a).toNat, (s.rx b).toNat, s.fresh])

/-- XFER.shared (R102 to R106). -/
def execXferShared (a b n1 : Nat) (s : State) : Host.Outcome State Fault Refusal :=
  s.runOp (.xferShared a b n1) (fun s => s.defer (.xferShared a b n1) [(s.rx a).toNat, (s.rx b).toNat, s.fresh])

/-- XFER.engine (R102 to R106). -/
def execXferEngine (a b n1 : Nat) (s : State) : Host.Outcome State Fault Refusal :=
  s.runOp (.xferEngine a b n1) (fun s => s.defer (.xferEngine a b n1) [(s.rx a).toNat, (s.rx b).toNat, s.fresh])

/-- TOKACQ (R427 to R429). -/
def execTokacq (d a b : Nat) (s : State) : Host.Outcome State Fault Refusal :=
  s.runOp (.tokacq d a b) (fun s => s.defer (.tokacq d a b) [(s.rx a).toNat, (s.rx b).toNat])

/-- TOKREL (R427, R430). -/
def execTokrel (d a b : Nat) (s : State) : Host.Outcome State Fault Refusal :=
  s.runOp (.tokrel d a b) (fun s => s.defer (.tokrel d a b) [(s.rx a).toNat, (s.rx b).toNat, s.fresh])

/-! ### Locks (R99 to R101) -/

/-- Physical line and leaf attribute of each line of a range. -/
def State.linesOf (s : State) (va len : Nat) : List Phys :=
  let (f, n) := lineRange va len
  (List.range n).filterMap (fun i => match s.xlate s.xl s.asid (256 * (f + i)) false with
    | .ok ph => some ph
    | .error _ => none)

/-- The set of a line: address bits of the home's cache. -/
def lockSet (pa : Nat) : Nat := fld pa 23 8 ^^^ fld pa 39 24

/-- Whether a line cannot be locked (status 4). -/
def State.unlockable (s : State) (ph : Phys) : Bool :=
  isNear ph.pa || isAccWin ph.pa || ph.nc || !s.isLocal (dieOf s.lc) ph.pa

/-- The status of R99's table and the lines that the task has not locked yet, each once though two pages may name it; a way that another
task locked is locked already (R101). -/
def State.lockTest (s : State) (va len : Nat) : Nat × List Nat :=
  let (f, n) := lineRange va len
  let phs := s.linesOf va len
  let held (pa : Nat) : Bool := (s.die (homeDie pa)).locks.any (fun l => l.1 == pa / 256)
  let fresh := ((phs.map (fun p => p.pa / 256 * 256)).filter (fun pa => !(s.die (homeDie pa)).locks.contains (pa / 256, s.tid))).eraseDups
  let full (pa : Nat) : Bool :=
    let x := s.die (homeDie pa)
    let lines := (x.locks.map (fun l => l.1)).foldl (fun t l => NatSet.insert t l) []
    (24 - x.units) / 2 < (lines.filter (fun l => lockSet (256 * l) == lockSet pa)).length
      + (fresh.filter (fun q => homeDie q == homeDie pa && lockSet q == lockSet pa && !held q)).length
  if s.myTask.lockq < s.lockUse s.tid + fresh.length then (1, [])
  else if fresh.any full then (2, [])
  else if n = 0 || (256 * f) / 2 ^ 21 != (256 * (f + n) - 1) / 2 ^ 21 then (3, [])
  else if phs.any s.unlockable then (4, [])
  else (0, fresh)

/-- LOCK's and UNLOCK's result (R100). -/
def State.lockResult (s : State) (d st n ea : Nat) : State :=
  s.load (resX d 64 (n % 2 ^ 16 * 2 ^ 32 + st) ea false 0)

/-- LOCK (R99 to R101). -/
def execLock (d a b : Nat) (s : State) : Host.Outcome State Fault Refusal :=
  s.runOp (.lock d a b) (fun s =>
    let r := s.lockTest (s.rx a).toNat (s.rx b).toNat
    let id := s.tid
    (r.2.foldl (fun s pa => s.modDie (homeDie pa) (fun x => { x with locks := x.locks ++ [(pa / 256, id)] })) s).lockResult
      d r.1 r.2.length (s.rx a).toNat)

/-- Lines of a range that the task has locked, each once. -/
def State.lockedLines (s : State) (va len : Nat) : List Nat :=
  ((s.linesOf va len).filterMap (fun p =>
    if (s.die (homeDie p.pa)).locks.contains (p.pa / 256, s.tid) then some (p.pa / 256 * 256) else none)).eraseDups

/-- UNLOCK (R99 to R101): status 3 where the length is 0 or the range crosses a region. -/
def execUnlock (d a b : Nat) (s : State) : Host.Outcome State Fault Refusal :=
  s.runOp (.unlock d a b) (fun s =>
    let (f, n) := lineRange (s.rx a).toNat (s.rx b).toNat
    let id := s.tid
    if n = 0 || (256 * f) / 2 ^ 21 != (256 * (f + n) - 1) / 2 ^ 21 then s.lockResult d 3 0 (s.rx a).toNat
    else
      let l := s.lockedLines (s.rx a).toNat (s.rx b).toNat
      (l.foldl (fun s pa => s.modDie (homeDie pa) (fun x => { x with locks := x.locks.filter (fun l => l != (pa / 256, id)) })) s).lockResult
        d 0 l.length (s.rx a).toNat)

/-! ### Streams -/

/-- QBIND (R158): the binding is made at the end of the bundle's context cycle. -/
def execQbind (n a dir fek add ai : Nat) (depth : Option Nat) (s : State) : Host.Outcome State Fault Refusal :=
  s.runOp (.qbind n a dir fek add ai depth) (fun s =>
    s.modBun (fun b => { b with ends := b.ends ++ [.bind n (some (s.binding a dir fek add ai depth))] }))

/-- QUNBIND (R163). -/
def execQunbind (n : Nat) (s : State) : Host.Outcome State Fault Refusal :=
  s.runOp (.qunbind n) (fun s => s.modBun (fun b => { b with ends := b.ends ++ [.bind n none] }))

/-- QSYNC (R163): an input stream fetches again from its head; an output stream's bundle commits. -/
def execQsync (n : Nat) (s : State) : Host.Outcome State Fault Refusal :=
  s.runOp (.qsync n) (fun s =>
    match s.stream n with
    | some st => if st.dir = 0 then s.modBun (fun b => { b with ends := b.ends ++ [.sync n] }) else s
    | none => s)

/-- QSTAT's word (R164). -/
def State.qstatWord (s : State) (n : Nat) : Nat :=
  match s.stream n with
  | none => 0
  | some st =>
    2 ^ 63 + st.dir * 2 ^ 62 + b2n (st.count ≤ st.pos) * 2 ^ 61
      + b2n (match s.win n with
        | e :: _ => e.mark.isSome
        | [] => false) * 2 ^ 60
      + (s.win n).length * 2 ^ 56 + st.pos % 2 ^ 32

/-- QSTAT (R164). -/
def execQstat (d n : Nat) (s : State) : Host.Outcome State Fault Refusal :=
  s.runOp (.qstat d n) (fun s => s.outX d 1 (BitVec.ofNat 64 (s.qstatWord n)))

end Sys2Proof.Machine
end

