-- ==== Sys2Proof/Machine/Vector.lean ====
section
/-! DEFINITION. What a vector operation computes, as one function of its operands that issue and replay share (R218, R222,
R263), and the V-class instructions (R263 to R277). -/

namespace Sys2Proof

/-- The X operation that the second word of an RCPDEF with SL = 2 names (R219). -/
def RcpW.op (w : RcpW) (d a : Nat) : Instr :=
  if w.xop = 0x20 then .vcvt d a 0 0 ⟨w.ts, w.td, w.rm, w.sat, w.ftz⟩
  else
    let t := w.xop % 4
    match w.xop / 4 with
    | 0 => .vexp2 t d a 0
    | 1 => .vlog2 t d a 0
    | 2 => .vrcp t d a 0
    | 3 => .vrsq t d a 0
    | 4 => .vtanh t d a 0
    | _ => .vsigm t d a 0

/-- The operation that an instruction performs: the embedded one of an RCPDEF, else itself. -/
def Instr.performed : Instr → Instr
  | .rcpdefEmbedded d a w => w.op d a
  | i => i

end Sys2Proof

namespace Sys2Proof.Machine

/-- Operands of a vector operation: sources, the old destination, scalars, predicates, the generator (R240, R263). -/
structure VecIn where
  v : Nat → Nat
  old : Nat → Nat
  x : Nat → Nat
  p : Nat → Nat
  seed : Nat := 0
  ctr : Nat := 0

/-- Width in bits of a width code (R56). -/
def codeWidth (w : Nat) : Nat := 8 * 2 ^ w

/-- The VW fields that an operation without the word has (R52). -/
def vwDef (w : Option VW) : VW := w.getD ⟨0, 0, 0⟩

/-- The string fields that an operation without the word has (R275). -/
def swDef (w : Option SW) : SW := w.getD ⟨6, 0, 0, 0⟩

/-- The result of a VCVT in vd (R286, R287). -/
def cvtVal (o : VecIn) (d a pv pq : Nat) (w : CW) : Nat :=
  if w.ts = 5 then vecCvtDec w pq (o.old d) (o.v a) (o.v pv) o.seed o.ctr
  else if w.td = 5 then vecCvtEnc w pq (o.old d) (o.v a) o.seed o.ctr
  else vecCvt w pv (o.p pq) (o.old d) (o.v a) o.seed o.ctr

/-- The result of a vector operation (R266 to R277, R282, R286). -/
def vecVal (o : VecIn) : Instr → Nat
  | .vadd t d a b p w => vecArith 0 t (vwDef w) (o.p p) (o.old d) (o.v a) (o.v b) 0
  | .vsub t d a b p w => vecArith 1 t (vwDef w) (o.p p) (o.old d) (o.v a) (o.v b) 0
  | .vmul t d a b p w => vecArith 2 t (vwDef w) (o.p p) (o.old d) (o.v a) (o.v b) 0
  | .vfma t d a b p w => vecArith 3 t w (o.p p) (o.old d) (o.v a) (o.v b) (o.v w.vc)
  | .vmin t d a b p => vecMinMax 2 t (o.p p) (o.old d) (o.v a) (o.v b)
  | .vmax t d a b p => vecMinMax 1 t (o.p p) (o.old d) (o.v a) (o.v b)
  | .vabs t d a p w => vecAbsNeg false t (vwDef w) (o.p p) (o.old d) (o.v a)
  | .vneg t d a p w => vecAbsNeg true t (vwDef w) (o.p p) (o.old d) (o.v a)
  | .vcmp t _ a b p c => vecCmp c t (o.p p) (o.v a) (o.v b)
  | .vred t _ a op p => vecRed op t (o.p p) (o.v a)
  | .vscan t _ a op p => vecScan op t (o.p p) (o.v a)
  | .vshl w d a b p => vecShift 0 (codeWidth w) (o.p p) (o.old d) (o.v a) (o.v b)
  | .vshrI w d a b p => vecShift 1 (codeWidth w) (o.p p) (o.old d) (o.v a) (o.v b)
  | .vshrN w d a b p => vecShift 2 (codeWidth w) (o.p p) (o.old d) (o.v a) (o.v b)
  | .vand d a b p => vecLogic 0 (o.p p) (o.old d) (o.v a) (o.v b)
  | .vor d a b p => vecLogic 1 (o.p p) (o.old d) (o.v a) (o.v b)
  | .vxor d a b p => vecLogic 2 (o.p p) (o.old d) (o.v a) (o.v b)
  | .vnot d a p => vecLogic 3 (o.p p) (o.old d) (o.v a) 0
  | .vsel w _ a b p => vecSel (codeWidth w) (o.p p) (o.v a) (o.v b)
  | .vmov w d a p => vecMov (codeWidth w) (o.p p) (o.old d) (o.v a)
  | .vbcast w d x p => vecBcast (codeWidth w) (o.p p) (o.old d) (o.x x)
  | .vrot w _ x b p => vecRot (codeWidth w) (o.p p) (o.x x) (o.v b)
  | .vperm w _ a b p => vecPerm (codeWidth w) (o.p p) (o.v a) (o.v b)
  | .vshuf w d a b p => vecShuf (codeWidth w) (o.p p) (o.v a) (o.v b) (o.old d)
  | .vcompr w _ a b p => vecCompr (codeWidth w) (o.p p) (o.v a) (o.v b)
  | .vexpd w _ a b p => vecExpd (codeWidth w) (o.p p) (o.v a) (o.v b)
  | .vbcmp _ a b p w => vecBcmp (swDef w) (o.p p) (o.v a) (o.v b)
  | .vbfind _ a b p w => vecBfind (swDef w) (o.p p) (o.v a) (o.v b)
  | .vhash d a b p f => vecHash (f.getD 0) (o.p p) (o.old d) (o.v a) (o.v b)
  | .vcrc d a b p n => vecCrc n (o.p p) (o.old d) (o.v a) (o.v b)
  | .vexp2 t d a p => vecFun 0 t (o.p p) (o.old d) (o.v a)
  | .vlog2 t d a p => vecFun 1 t (o.p p) (o.old d) (o.v a)
  | .vrcp t d a p => vecFun 2 t (o.p p) (o.old d) (o.v a)
  | .vrsq t d a p => vecFun 3 t (o.p p) (o.old d) (o.v a)
  | .vtanh t d a p => vecFun 4 t (o.p p) (o.old d) (o.v a)
  | .vsigm t d a p => vecFun 5 t (o.p p) (o.old d) (o.v a)
  | .vcvt d a pv pq w => cvtVal o d a pv pq w
  | _ => 0

/-- Latency of a vector operation (R263, R281, R288). -/
def vecLat : Instr → Nat
  | .vred .. | .vscan .. | .vrot .. | .vperm .. | .vshuf .. | .vcompr .. | .vexpd .. | .vbcmp .. | .vbfind .. | .vcrc .. => 6
  | .vexp2 .. | .vlog2 .. | .vrcp .. | .vrsq .. | .vtanh .. | .vsigm .. => 12
  | _ => 4

/-- The operands of the issuing operation, as visible at issue (R60, R263). -/
def State.vecIn (s : State) : VecIn :=
  { v := s.rv, old := s.rvd, x := fun n => (s.rx n).toNat, p := fun n => (s.rp n).toNat
    seed := (s.ar.getSr 0x006).toNat, ctr := s.rngCtr }

/-- An operation on vector registers: its result lands in `d`, or appends to the stream that `d` names (R263). -/
def State.vecOp (i : Instr) (d : Nat) (s : State) : Host.Outcome State Fault Refusal :=
  s.runOp i (fun s => s.outV d (vecLat i) (vecVal s.vecIn i))

/-! ### Typed arithmetic -/

/-- VADD (R266). -/
def execVadd (t d a b p : Nat) (w : Option VW) (s : State) : Host.Outcome State Fault Refusal := s.vecOp (.vadd t d a b p w) d

/-- VSUB (R266). -/
def execVsub (t d a b p : Nat) (w : Option VW) (s : State) : Host.Outcome State Fault Refusal := s.vecOp (.vsub t d a b p w) d

/-- VMUL (R266). -/
def execVmul (t d a b p : Nat) (w : Option VW) (s : State) : Host.Outcome State Fault Refusal := s.vecOp (.vmul t d a b p w) d

/-- VFMA (R266). -/
def execVfma (t d a b p : Nat) (w : VW) (s : State) : Host.Outcome State Fault Refusal := s.vecOp (.vfma t d a b p w) d

/-- VMIN (R267). -/
def execVmin (t d a b p : Nat) (s : State) : Host.Outcome State Fault Refusal := s.vecOp (.vmin t d a b p) d

/-- VMAX (R267). -/
def execVmax (t d a b p : Nat) (s : State) : Host.Outcome State Fault Refusal := s.vecOp (.vmax t d a b p) d

/-- VABS (R268). -/
def execVabs (t d a p : Nat) (w : Option VW) (s : State) : Host.Outcome State Fault Refusal := s.vecOp (.vabs t d a p w) d

/-- VNEG (R268). -/
def execVneg (t d a p : Nat) (w : Option VW) (s : State) : Host.Outcome State Fault Refusal := s.vecOp (.vneg t d a p w) d

/-- VCMP writes a predicate (R269). -/
def execVcmp (t d a b p cond : Nat) (s : State) : Host.Outcome State Fault Refusal :=
  s.runOp (.vcmp t d a b p cond) (fun s => s.outP d 4 (vecVal s.vecIn (.vcmp t d a b p cond)))

/-! ### Logic, shifts, moves -/

/-- VSHL (R270). -/
def execVshl (w d a b p : Nat) (s : State) : Host.Outcome State Fault Refusal := s.vecOp (.vshl w d a b p) d

/-- VSHR.i (R270). -/
def execVshrI (w d a b p : Nat) (s : State) : Host.Outcome State Fault Refusal := s.vecOp (.vshrI w d a b p) d

/-- VSHR.n (R270). -/
def execVshrN (w d a b p : Nat) (s : State) : Host.Outcome State Fault Refusal := s.vecOp (.vshrN w d a b p) d

/-- VAND (R270). -/
def execVand (d a b p : Nat) (s : State) : Host.Outcome State Fault Refusal := s.vecOp (.vand d a b p) d

/-- VOR (R270). -/
def execVor (d a b p : Nat) (s : State) : Host.Outcome State Fault Refusal := s.vecOp (.vor d a b p) d

/-- VXOR (R270). -/
def execVxor (d a b p : Nat) (s : State) : Host.Outcome State Fault Refusal := s.vecOp (.vxor d a b p) d

/-- VNOT (R270). -/
def execVnot (d a p : Nat) (s : State) : Host.Outcome State Fault Refusal := s.vecOp (.vnot d a p) d

/-- VSEL (R271). -/
def execVsel (w d a b p : Nat) (s : State) : Host.Outcome State Fault Refusal := s.vecOp (.vsel w d a b p) d

/-- VMOV (R271). -/
def execVmov (w d a p : Nat) (s : State) : Host.Outcome State Fault Refusal := s.vecOp (.vmov w d a p) d

/-- VBCAST (R271). -/
def execVbcast (w d x p : Nat) (s : State) : Host.Outcome State Fault Refusal := s.vecOp (.vbcast w d x p) d

/-! ### Across lanes -/

/-- VRED (R272). -/
def execVred (t d a o p : Nat) (s : State) : Host.Outcome State Fault Refusal := s.vecOp (.vred t d a o p) d

/-- VSCAN (R272). -/
def execVscan (t d a o p : Nat) (s : State) : Host.Outcome State Fault Refusal := s.vecOp (.vscan t d a o p) d

/-- VROT (R273). -/
def execVrot (w d x b p : Nat) (s : State) : Host.Outcome State Fault Refusal := s.vecOp (.vrot w d x b p) d

/-- VPERM (R273). -/
def execVperm (w d a b p : Nat) (s : State) : Host.Outcome State Fault Refusal := s.vecOp (.vperm w d a b p) d

/-- VSHUF reads its indices from vd (R273). -/
def execVshuf (w d a b p : Nat) (s : State) : Host.Outcome State Fault Refusal := s.vecOp (.vshuf w d a b p) d

/-- VCOMPR (R274). -/
def execVcompr (w d a b p : Nat) (s : State) : Host.Outcome State Fault Refusal := s.vecOp (.vcompr w d a b p) d

/-- VEXPD (R274). -/
def execVexpd (w d a b p : Nat) (s : State) : Host.Outcome State Fault Refusal := s.vecOp (.vexpd w d a b p) d

/-! ### Byte strings -/

/-- VBCMP (R275). -/
def execVbcmp (d a b p : Nat) (w : Option SW) (s : State) : Host.Outcome State Fault Refusal := s.vecOp (.vbcmp d a b p w) d

/-- VBFIND (R275). -/
def execVbfind (d a b p : Nat) (w : Option SW) (s : State) : Host.Outcome State Fault Refusal := s.vecOp (.vbfind d a b p w) d

/-- VHASH (R276). -/
def execVhash (d a b p : Nat) (fin : Option Nat) (s : State) : Host.Outcome State Fault Refusal := s.vecOp (.vhash d a b p fin) d

/-- VCRC (R277). -/
def execVcrc (d a b p : Nat) (nb : Option Nat) (s : State) : Host.Outcome State Fault Refusal := s.vecOp (.vcrc d a b p nb) d

end Sys2Proof.Machine
end

