-- ==== Sys2Proof/Machine/XClass.lean ====
section
/-! DEFINITION. The X class: special functions, conversions, the generator (R281 to R289), predicates and row words (R198 to
R203), recipes (R218 to R224), the transpose tile (R309 to R311). -/

namespace Sys2Proof.Machine

/-! ### Special functions -/

/-- VEXP2 (R282). -/
def execVexp2 (t d a p : Nat) (s : State) : Host.Outcome State Fault Refusal := s.vecOp (.vexp2 t d a p) d

/-- VLOG2 (R282). -/
def execVlog2 (t d a p : Nat) (s : State) : Host.Outcome State Fault Refusal := s.vecOp (.vlog2 t d a p) d

/-- VRCP (R282). -/
def execVrcp (t d a p : Nat) (s : State) : Host.Outcome State Fault Refusal := s.vecOp (.vrcp t d a p) d

/-- VRSQ (R282). -/
def execVrsq (t d a p : Nat) (s : State) : Host.Outcome State Fault Refusal := s.vecOp (.vrsq t d a p) d

/-- VTANH (R282). -/
def execVtanh (t d a p : Nat) (s : State) : Host.Outcome State Fault Refusal := s.vecOp (.vtanh t d a p) d

/-- VSIGM (R282). -/
def execVsigm (t d a p : Nat) (s : State) : Host.Outcome State Fault Refusal := s.vecOp (.vsigm t d a p) d

/-! ### Conversions and the generator -/

/-- A VCVT's effect: vd, the scale register of an encoding, one counter value under SR (R286 to R288). -/
def State.convert (s : State) (d a pv pq : Nat) (w : CW) : State :=
  let t := s.outV d 4 (cvtVal s.vecIn d a pv pq w)
  let t := if w.td = 5 then t.outV pv 4 (vecCvtScale w pq (s.rv a) (s.rv pv)) else t
  if w.rm = 4 then t.useRng else t

/-- VCVT (R284 to R288). -/
def execVcvt (d a pv pq : Nat) (w : CW) (s : State) : Host.Outcome State Fault Refusal :=
  s.runOp (.vcvt d a pv pq w) (fun s => s.convert d a pv pq w)

/-- VRNG takes one counter value (R289). -/
def execVrng (d m p : Nat) (s : State) : Host.Outcome State Fault Refusal :=
  s.runOp (.vrng d m p) (fun s => (s.outV d 4 (vecRng m (s.rp p).toNat (s.rvd d) (s.ar.getSr 0x006).toNat s.rngCtr)).useRng)

/-! ### Predicates -/

/-- A predicate result at latency 2. -/
def State.predOp (i : Instr) (d : Nat) (f : State → Pred) (s : State) : Host.Outcome State Fault Refusal :=
  s.runOp i (fun s => s.outP d 2 (f s).toNat)

/-- PAND (R199). -/
def execPand (d a b : Nat) (s : State) : Host.Outcome State Fault Refusal :=
  s.predOp (.pand d a b) d (fun s => s.rp a &&& s.rp b)

/-- POR (R199). -/
def execPor (d a b : Nat) (s : State) : Host.Outcome State Fault Refusal :=
  s.predOp (.por d a b) d (fun s => s.rp a ||| s.rp b)

/-- PXOR (R199). -/
def execPxor (d a b : Nat) (s : State) : Host.Outcome State Fault Refusal :=
  s.predOp (.pxor d a b) d (fun s => s.rp a ^^^ s.rp b)

/-- PNOT (R199). -/
def execPnot (d a : Nat) (s : State) : Host.Outcome State Fault Refusal := s.predOp (.pnot d a) d (fun s => ~~~ s.rp a)

/-- PCNT (R199). -/
def execPcnt (d a w p : Nat) (s : State) : Host.Outcome State Fault Refusal :=
  s.runOp (.pcnt d a w p) (fun s => s.outX d 6 (BitVec.ofNat 64 (predCount w (s.rp a).toNat (s.rp p).toNat)))

/-! ### Row words -/

/-- The block word of a row operation: ROWBLK, B replaced by an override (R198). -/
def State.blk (s : State) (blk : Option Nat) : Nat := blockWord (s.ar.getSr 0x004).toNat blk

/-- ROWPRED (R200). -/
def execRowpred (d a b p : Nat) (w : RowW) (s : State) : Host.Outcome State Fault Refusal :=
  s.runOp (.rowpred d a b p w) (fun s =>
    s.outP d 4 (vecRowPred w (s.rp p).toNat (s.rv a) (if w.bs = 1 then (s.rx b).toNat else s.rv b)))

/-- RCWUPD (R201). -/
def execRcwupd (d a b c : Nat) (blk : Option Nat) (s : State) : Host.Outcome State Fault Refusal :=
  s.runOp (.rcwupd d a b c blk) (fun s =>
    s.outV d 4 (vecRowUpd (s.rv a) (s.blk blk) (s.ar.getSr 0x005).toNat (s.rp b).toNat (s.rp c).toNat))

/-- RCWADV (R202). -/
def execRcwadv (d a p : Nat) (blk : Option Nat) (s : State) : Host.Outcome State Fault Refusal :=
  s.runOp (.rcwadv d a p blk) (fun s => s.outV d 4 (vecRowAdv (s.rv a) (s.blk blk) (s.rp p).toNat))

/-- RCWLD (R203). -/
def execRcwld (d a t p : Nat) (blk : Option Nat) (s : State) : Host.Outcome State Fault Refusal :=
  s.runOp (.rcwld d a t p blk) (fun s => s.outP d 4 (vecRowTest t (s.rv a) (s.blk blk) (s.rp p).toNat))

/-! ### Recipes -/

/-- An entry enters the table; one held for its register is replaced (R219). -/
def Arch.putRecipe (a : Arch) (r : Recipe) : Arch := { a with recipes := a.recipes.filter (fun q => q.vd != r.vd) ++ [r] }

/-- The recipe of the operation of slot k of this bundle, from its re-issue image (R218, R219). A later slot's store to lines
that its load read makes it stale at once (R220). -/
def State.recipeOf (s : State) (vd k : Nat) (im : Image) : Recipe :=
  let ld := match im.i with
    | .vld .. => true
    | _ => false
  let unit := clusterOf s.lc * 24 + fld im.addr 25 21
  let lat := if ld then s.spLat unit else vecLat im.i
  let scal := match im.i with
    | .vbcast _ _ x _ | .vrot _ _ x _ _ => [(s.rx x).toNat]
    | _ => [0]
  let r : Recipe := ⟨vd, im.i, im.w, im.w2, scal, if ld then im.addr % 2 ^ 64 else 0, if ld then im.addr / 2 ^ 64 else 0, false, 0, s.cyc, k, s.cyc + lat⟩
  if s.bun.stores.any (fun t => k < t.1 && r.readLine t.2.1 t.2.2) then { r with stale := true, code := 2 } else r

/-- RCPDEF of the V0 or V1 operation (R219). -/
def execRcpdef (d sl : Nat) (s : State) : Host.Outcome State Fault Refusal :=
  s.runOp (.rcpdef d sl) (fun s =>
    match s.ar.images.find? (fun t => t.1 == 2 + sl) with
    | none => s
    | some t => s.modAr (fun a => a.putRecipe (s.recipeOf d (2 + sl) t.2)))

/-- The first and second words of an RCPDEF with SL = 2, as a recipe keeps them. -/
def rcpWords (d a : Nat) (w : RcpW) : Nat × Nat :=
  (2 ^ 30 + 0x40 * 2 ^ 22 + d * 2 ^ 16 + a * 2 ^ 10 + 2 * 2 ^ 4,
   w.xop * 2 ^ 22 + w.ts * 2 ^ 18 + w.td * 2 ^ 14 + w.rm * 2 ^ 11 + w.sat * 2 ^ 10 + w.ftz * 2 ^ 9)

/-- RCPDEF with SL = 2 performs its operation at that operation's latency and records it (R219). -/
def execRcpdefEmbedded (d a : Nat) (w : RcpW) (s : State) : Host.Outcome State Fault Refusal :=
  s.runOp (.rcpdefEmbedded d a w) (fun s =>
    let i := w.op d a
    let t := s.outV d (vecLat i) (vecVal s.vecIn i)
    t.modAr (fun r => r.putRecipe ⟨d, .rcpdefEmbedded d a w, (rcpWords d a w).1, (rcpWords d a w).2, [0], 0, 0, false, 0, s.cyc, 4, s.cyc + vecLat i⟩))

/-- DROP takes effect once the last write of the register so far has landed (R221). -/
def execDrop (d : Nat) (s : State) : Host.Outcome State Fault Refusal :=
  s.runOp (.drop d) (fun s => s.modAr (fun a => { a with drops := Tbl.put a.drops d s.cyc }))

/-- A register loses its recipe: DROPPED becomes EMPTY (R224). -/
def Arch.clearRecipe (a : Arch) (v : Nat) : Arch :=
  let st := Tbl.get 0 a.vst v
  { a with recipes := a.recipes.filter (fun r => r.vd != v)
           vst := if st = 2 then Tbl.put a.vst v 0 else if st = 3 then Tbl.put a.vst v 1 else a.vst }

/-- RCPCLR of one register (R224). -/
def execRcpclr (d : Nat) (s : State) : Host.Outcome State Fault Refusal :=
  s.runOp (.rcpclr d) (fun s => s.modAr (fun a => a.clearRecipe d))

/-- RCPCLR of all (R224). -/
def execRcpclrAll (s : State) : Host.Outcome State Fault Refusal :=
  s.runOp .rcpclrAll (fun s => s.modAr (fun a => (List.range 56).foldl (fun a v => a.clearRecipe v) a))

/-- RCPSTAT's word (R224). -/
def Arch.rcpStat (a : Arch) (v : Nat) : Nat :=
  let st := Tbl.get 0 a.vst v
  a.recipes.length * 2 ^ 32 + a.resident * 2 ^ 24
    + (match a.recipe v with
       | none => 0
       | some r => r.code % 4 * 16 + b2n r.stale * 8 + 4)
    + (if st = 3 then 1 else st)

/-- RCPSTAT (R224). -/
def execRcpstat (d a : Nat) (s : State) : Host.Outcome State Fault Refusal :=
  s.runOp (.rcpstat d a) (fun s => s.outX d 2 (BitVec.ofNat 64 (s.ar.rcpStat a)))

/-! ### The transpose tile -/

/-- The index of a TTW or TTR (R310). -/
def State.tileIdx (s : State) (w : TileW) : Nat := if w.xs = 1 then (s.rx w.xi).toNat % 64 else w.idx

/-- TTW writes row i (R311). -/
def execTtw (a : Nat) (w : TileW) (s : State) : Host.Outcome State Fault Refusal :=
  s.runOp (.ttw a w) (fun s =>
    let i := s.tileIdx w
    let v := s.rv a
    s.modLcore s.lc (fun c => { c with ttile := (List.range 64).foldl (fun t j =>
      Tbl.put t (i * 64 + j) (el (codeWidth w.wc) v (64 * w.part + j))) c.ttile }))

/-- The vector that a TTR lands: 64 elements of column i, the others as vd holds them (R311). -/
def LCore.ttrVal (c : LCore) (w : TileW) (i old : Nat) : Nat :=
  buildV (codeWidth w.wc) (fun k =>
    if 64 * w.part ≤ k && k < 64 * w.part + 64 then Tbl.get 0 c.ttile ((k - 64 * w.part) * 64 + i) else el (codeWidth w.wc) old k)

/-- TTR reads column i (R311). -/
def execTtr (d : Nat) (w : TileW) (s : State) : Host.Outcome State Fault Refusal :=
  s.runOp (.ttr d w) (fun s => s.outV d 4 ((s.lcore s.lc).ttrVal w (s.tileIdx w) (s.rvd d)))

end Sys2Proof.Machine
end

