-- ==== Sys2Proof/Machine/VecMem.lean ====
section
/-! DEFINITION. Vector loads and stores, vector ticketed updates and vector atomics (R278 to R280, R316, R333, R335). -/

namespace Sys2Proof.Machine

/-- Declared latency of a vector load (R263). -/
def State.rowLat (s : State) (acc : Bool) (unit : Nat) : Nat := if unit = s.lc then (if acc then 12 else 10) else 32

/-- Cluster form of a resolved row's address. -/
def rowEa (r : Nat × Nat × Nat) : Nat := coreIn r.1 * 2 ^ 21 + r.2.1

/-- The destination of an operation that is left to its commit becomes RESIDENT as it issues (R214). -/
def State.claimV (s : State) (v : Nat) : State := s.modAr (fun a => a.allocV s.cyc v)

/-- A vector load's effect (R279); a consuming one is left to the commit (R399). -/
def State.loadRow (s : State) (i : Instr) (acc : Bool) (d a k p : Nat) (w : Option MW) : State :=
  match s.vmRow acc a k w with
  | .error _ => s
  | .ok r =>
    let mask := (s.rp p).toNat
    let old := s.rvd d
    let rc := if acc then none else some r.2.2
    if qualOf w = 2 then (s.claimV d).defer i [rowAddr r, mask, old]
    else
      let l : LoadRes := ⟨.v, d, s.rowLat acc r.1, 0, none, rowEa r, qualOf w, 8, false, false, 1⟩
      if qualOf w = 3 then s.feLoad s.cyc acc r.1 rc r.2.1 8 mask old true l State.loadAs
      else
        let raw := s.spBytes acc r.1 rc r.2.1 256
        let raw := if acc then s.accFree s.cyc r.1 r.2.1 256 raw else raw
        let bad := s.spPois acc r.1 rc r.2.1 256 mask
        s.load { l with val := blendBytes 256 mask old raw, pois := if bad then some (rowEa r) else none }

/-- A vector store's effect (R280): the active bytes enter the withholding buffer. -/
def State.storeRow (s : State) (acc : Bool) (src a k : Nat) (mask : Nat) (kind : WKind) (w : Option MW) : State :=
  match s.vmRow acc a k w with
  | .error _ => s
  | .ok r =>
    s.withhold s.cyc (lineEntries (if acc then .acc else .sp) r.1 kind (if acc then 4 else r.2.2) s.bun.pc s.slot r.2.1 256 mask (s.rv src))

/-- Bytes of the active 32-bit elements (R280). -/
def elemMask (p : Nat) : Nat := joinEl 4 ((List.range 64).map (fun i => if act p 32 i then 15 else 0))

/-- VLD (R278, R279). -/
def execVld (d a k p : Nat) (w : Option MW) (s : State) : Host.Outcome State Fault Refusal :=
  s.runOp (.vld d a k p w) (fun s => s.loadRow (.vld d a k p w) false d a k p w)

/-- VST (R278, R280). -/
def execVst (x a k p : Nat) (w : Option MW) (s : State) : Host.Outcome State Fault Refusal :=
  s.runOp (.vst x a k p w) (fun s => s.storeRow false x a k (s.rp p).toNat (kindOf (qualOf w)) w)

/-- VLDA (R278, R279). -/
def execVlda (d a k p : Nat) (w : Option MW) (s : State) : Host.Outcome State Fault Refusal :=
  s.runOp (.vlda d a k p w) (fun s => s.loadRow (.vlda d a k p w) true d a k p w)

/-- VSTA (R278, R280). -/
def execVsta (x a k p : Nat) (w : Option MW) (s : State) : Host.Outcome State Fault Refusal :=
  s.runOp (.vsta x a k p w) (fun s => s.storeRow true x a k (s.rp p).toNat (kindOf (qualOf w)) w)

/-- VSTA.add (R280, R316). -/
def execVstaAdd (x a k p : Nat) (w : Option MW) (s : State) : Host.Outcome State Fault Refusal :=
  s.runOp (.vstaAdd x a k p w) (fun s => s.storeRow true x a k (elemMask (s.rp p).toNat) .addF w)

/-- The parts of a vector ticketed update leave (R333). -/
def State.sendTk (s : State) (op x a k p xt td : Nat) : State :=
  match s.accRow a k with
  | .error _ => s
  | .ok r => s.sendRow op (s.rp p).toNat r.1 (s.rv x) (s.rx xt).toNat td 4

/-- VTKADD (R333). -/
def execVtkadd (x a k p xt td : Nat) (s : State) : Host.Outcome State Fault Refusal :=
  s.runOp (.vtkadd x a k p xt td) (fun s => s.sendTk 0 x a k p xt td)

/-- VTKMIN (R333). -/
def execVtkmin (x a k p xt td : Nat) (s : State) : Host.Outcome State Fault Refusal :=
  s.runOp (.vtkmin x a k p xt td) (fun s => s.sendTk 1 x a k p xt td)

/-- VTKMAX (R333). -/
def execVtkmax (x a k p xt td : Nat) (s : State) : Host.Outcome State Fault Refusal :=
  s.runOp (.vtkmax x a k p xt td) (fun s => s.sendTk 2 x a k p xt td)

/-- A vector atomic waits for its commit, with its operands as read now, and whether its stride is misaligned above its address (R335, R399). -/
def State.deferRow (s : State) (i : Instr) (x a k p vr ret : Nat) : State :=
  match s.accRow a k with
  | .error _ => s
  | .ok r => (if ret = 1 then s.claimV vr else s).defer i [r.1 + b2n r.2 * 2 ^ 64, (s.rp p).toNat, s.rv x, s.rvd vr]

/-- VAADD (R335). -/
def execVaadd (x a k p vr ret uns : Nat) (s : State) : Host.Outcome State Fault Refusal :=
  s.runOp (.vaadd x a k p vr ret uns) (fun s => s.deferRow (.vaadd x a k p vr ret uns) x a k p vr ret)

/-- VAMIN (R335). -/
def execVamin (x a k p vr ret uns : Nat) (s : State) : Host.Outcome State Fault Refusal :=
  s.runOp (.vamin x a k p vr ret uns) (fun s => s.deferRow (.vamin x a k p vr ret uns) x a k p vr ret)

/-- VAMAX (R335). -/
def execVamax (x a k p vr ret uns : Nat) (s : State) : Host.Outcome State Fault Refusal :=
  s.runOp (.vamax x a k p vr ret uns) (fun s => s.deferRow (.vamax x a k p vr ret uns) x a k p vr ret)

/-- VAXCHG (R335). -/
def execVaxchg (x a k p vr ret uns : Nat) (s : State) : Host.Outcome State Fault Refusal :=
  s.runOp (.vaxchg x a k p vr ret uns) (fun s => s.deferRow (.vaxchg x a k p vr ret uns) x a k p vr ret)

end Sys2Proof.Machine
end

