-- ==== Sys2Proof/Machine/MClass.lean ====
section
/-! DEFINITION. The M class (R293 to R308) and the C class, whose operations capture engine commands (R54, R137). -/

namespace Sys2Proof.Machine

/-! ### The matrix engine -/

/-- MMA: operands and scales are captured, and the result is pending (R296, R297). -/
def execMma (x b n : Nat) (w : MmaW) (s : State) : Host.Outcome State Fault Refusal :=
  s.runOp (.mma x b n w) (fun s => s.matStart (s.captureMma x b n w) (matBusyOf w.ta ((w.kg + 1) * 32)))

/-- The leader's rows of A, their scales and their poison, as the leader's presented bundle reads them (R307). -/
def State.leaderA (s : State) (p c : Nat) : Option MRes :=
  match s.mmapOf p c with
  | some (.mmap x b n w, im) => some (({ s with cur := p, ctx := c, kept := im, bun := {} } : State).captureMma x b n w)
  | _ => none

/-- One half of a pair: a follower multiplies the leader's A (R307). -/
def State.captureHalf (s : State) (x b n : Nat) (w : MmaW) : MRes :=
  match s.partner w.gid with
  | none => s.captureMma x b n w
  | some (gid, t) =>
    if s.leads t then s.captureMma x b n w
    else
      let r := s.captureMma x b n { w with av := 1 }
      match (s.presentedAt t gid).bind (fun k => s.leaderA k.1 k.2) with
      | none => r
      | some l => { r with a := l.a, sa := l.sa, pa := l.pa }

/-- MMAP: one half of the joint operation (R307). Its bundle commits (R306). -/
def execMmap (x b n : Nat) (w : MmaW) (s : State) : Host.Outcome State Fault Refusal :=
  s.runOp (.mmap x b n w) (fun s => s.matStart (s.captureHalf x b n w) (matBusyOf w.ta ((w.kg + 1) * 32)))

/-- MSCL writes a scale latch (R303). -/
def execMscl (n a : Nat) (s : State) : Host.Outcome State Fault Refusal :=
  s.runOp (.mscl n a) (fun s => s.out .latch n 3 (s.rv a))

/-- MZERO (R305). -/
def execMzero (n : Nat) (s : State) : Host.Outcome State Fault Refusal :=
  s.runOp (.mzero n) (fun s => s.matStart (s.captureZero n) 32)

/-- MTILE, register form (R304). -/
def execMtile (n a : Nat) (s : State) : Host.Outcome State Fault Refusal :=
  s.runOp (.mtile n a) (fun s => s.out .tile n 1 ((s.rx a).toNat % 2 ^ 29))

/-- MTILE, immediate form (R304). -/
def execMtileImm (n w : Nat) (s : State) : Host.Outcome State Fault Refusal :=
  s.runOp (.mtileImm n w) (fun s => s.out .tile n 1 w)

/-! ### Engine commands -/

/-- COPY (R145). -/
def execCopy (h : CHdr) (s : State) : Host.Outcome State Fault Refusal := s.runOp (.copy h) (fun s => s.capture (.copy h))

/-- GATH (R178). -/
def execGath (h : CHdr) (s : State) : Host.Outcome State Fault Refusal := s.runOp (.gath h) (fun s => s.capture (.gath h))

/-- EXSAVE (R190). -/
def execExsave (h : CHdr) (s : State) : Host.Outcome State Fault Refusal := s.runOp (.exsave h) (fun s => s.capture (.exsave h))

/-- TRUNC (R188). -/
def execTrunc (h : CHdr) (s : State) : Host.Outcome State Fault Refusal := s.runOp (.trunc h) (fun s => s.capture (.trunc h))

/-- SIEVE (R205). -/
def execSieve (h : CHdr) (s : State) : Host.Outcome State Fault Refusal := s.runOp (.sieve h) (fun s => s.capture (.sieve h))

/-- RESTO (R205). -/
def execResto (h : CHdr) (s : State) : Host.Outcome State Fault Refusal := s.runOp (.resto h) (fun s => s.capture (.resto h))

/-- FILL, filling gaps (R186). -/
def execFillGap (h : CHdr) (s : State) : Host.Outcome State Fault Refusal := s.runOp (.fillGap h) (fun s => s.capture (.fillGap h))

/-- FILL, sealing (R186). -/
def execFillSeal (h : CHdr) (s : State) : Host.Outcome State Fault Refusal := s.runOp (.fillSeal h) (fun s => s.capture (.fillSeal h))

/-- FILL, requantising (R186). -/
def execFillRequant (h : CHdr) (s : State) : Host.Outcome State Fault Refusal :=
  s.runOp (.fillRequant h) (fun s => s.capture (.fillRequant h))

/-- FILL, unsealing (R186). -/
def execFillUnseal (h : CHdr) (s : State) : Host.Outcome State Fault Refusal :=
  s.runOp (.fillUnseal h) (fun s => s.capture (.fillUnseal h))

/-- COLL (R432). -/
def execColl (h : CHdr) (s : State) : Host.Outcome State Fault Refusal := s.runOp (.coll h) (fun s => s.capture (.coll h))

/-- NOTE, sending (R436). -/
def execNoteSend (h : CHdr) (s : State) : Host.Outcome State Fault Refusal := s.runOp (.noteSend h) (fun s => s.capture (.noteSend h))

/-- NOTE, registering (R436, R438). -/
def execNoteRegister (h : CHdr) (s : State) : Host.Outcome State Fault Refusal :=
  s.runOp (.noteRegister h) (fun s => s.capture (.noteRegister h))

/-- NOTE, deregistering (R436, R438). -/
def execNoteDeregister (h : CHdr) (s : State) : Host.Outcome State Fault Refusal :=
  s.runOp (.noteDeregister h) (fun s => s.capture (.noteDeregister h))

/-- NOTE, purging (R436). -/
def execNotePurge (h : CHdr) (s : State) : Host.Outcome State Fault Refusal :=
  s.runOp (.notePurge h) (fun s => s.capture (.notePurge h))

end Sys2Proof.Machine
end

