-- ==== Sys2Proof/Machine/Bundle.lean ====
section
/-! DEFINITION. The bundle that a context offers: its fetch, its decoding, its issue condition, and whether it may issue, waits
or traps (R25 to R46, R214, R298, R384, R404). -/

namespace Sys2Proof.Machine

/-- An operation that issues: its slot, its words, the instruction with its mode resolved, the stepped image where it is kept. -/
structure SlotInst where
  slot : Nat
  w : Nat
  w2 : Nat
  i : Instr
  im : Option Image
deriving DecidableEq, Repr

/-- A bundle about to issue: address, header, number of words, and the operations that act; none act where its issue condition
fails (R34). -/
structure Offer where
  a : Nat
  hdr : Hdr
  words : Nat
  ops : List SlotInst
deriving DecidableEq, Repr

/-- The state in which an operation of a slot is checked and performed. -/
def State.atSlot (s : State) (o : SlotInst) : State := { s with slot := o.slot, kept := o.im }

/-- The stepped image and the mode of an operation of the decoded bundle (R37, R186, R436). -/
def State.slotInst (s : State) (o : SlotOp) : SlotInst :=
  let im := if o.kept then (s.ar.images.find? (fun t => t.1 == o.slot)).map (fun t => s.stepped o.slot t.2) else none
  let i := match o.i.cmdOf with
    | some (k, op, h) => o.i.withMode (({ s with slot := o.slot, kept := im } : State).captureStg k op h.set)
    | none => o.i
  ⟨o.slot, o.w, o.w2, i, im⟩

/-- A loop level's registers as visible (R360). -/
def Arch.trip (a : Arch) (n : Nat) : Nat := (a.getSr (0x020 + n)).toNat % 2 ^ 32
def Arch.idx (a : Arch) (n : Nat) : Nat := (a.getSr (0x026 + n)).toNat % 2 ^ 32
def Arch.inLoop (a : Arch) (n : Nat) : Bool := a.loops.any (fun t => t.1 == n)

/-- The issue condition (R34, R364). -/
def State.condHolds (s : State) (h : Hdr) : Bool :=
  if !s.ar.inLoop h.ilv then true
  else if h.ic = 1 then s.ar.idx h.ilv == 0
  else if h.ic = 2 then s.ar.idx h.ilv + 1 == s.ar.trip h.ilv
  else true

/-- Packets from one address to another. -/
def packetsTo (a b : Nat) : List Nat := (List.range (b / 64 + 1 - a / 64)).map (fun i => a / 64 + i)

/-- The bundle that fetch finds, or the trap that it meets: past fill words, through poison, to a legal bundle (R28, R31, R44,
R153). -/
def State.offered (s : State) : Except Trap Offer :=
  match s.seek seekFuel s.ar.pc with
  | .error t => .error { t with pc := t.pc.or (some s.ar.pc) }
  | .ok a =>
    match (packetsTo s.ar.pc a).find? (fun k => s.packetPois k) with
    | some k => .error { trapPoison (64 * k) with slot := 8, pc := some a }
    | none =>
      match s.bundleAt a with
      | .error (slot, code) => .error { trapIllegal code slot with pc := some a }
      | .ok b => .ok ⟨a, b.hdr, b.words, if s.condHolds b.hdr then b.ops.map s.slotInst else []⟩

/-- The packets that a fetch reads stay fetched (R151, R365). -/
def State.fetchTo (s : State) (a : Nat) : State := (packetsTo s.ar.pc a).foldl (fun s k => s.fetchPacket k) s

/-- Streams that the operations read. -/
def readStreams (ops : List SlotInst) : NatSet :=
  (ops.map (fun o => o.i.vsrcs.filter (fun n => decide (56 ≤ n)))).flatten.foldl (fun s n => NatSet.insert s (n - 56)) []

/-- The tile that the operations write, as its word and rows (R293, R305). -/
def Arch.tileOf (a : Arch) (ops : List SlotInst) : Option (Nat × Nat) :=
  ops.findSome? (fun x => match x.i with
    | .mma _ _ n w | .mmap _ _ n w => some (a.tile n, w.mm1 + 1)
    | .mzero n => some (a.tile n, 128)
    | _ => none)

/-- The bundle in progress at its issue (R46). -/
def State.openBun (s : State) (o : Offer) : State :=
  let qs := readStreams o.ops
  let tile := s.ar.tileOf o.ops
  { s with bun := { tile := tile, pc := o.a, next := s.linkOf o.a o.words, words := o.words, ck := o.hdr.ck, bh := o.hdr.bh, reads := qs
                    heads := qs.map (fun q => (q, ({ s with bun := { tile := tile } } : State).headElem q)) } }

/-! ### Loop ends (R362, R363) -/

/-- What end processing does: indices written, levels ended, an induction register, a back-edge. -/
structure LoopEnd where
  idx : List (Nat × Nat) := []
  off : List Nat := []
  ind : Option (Nat × Nat) := none
  back : Option Nat := none
deriving DecidableEq, Repr

/-- The end test of levels, the highest first, from the registers as visible at issue (R362). -/
def Arch.endTest (a : Arch) : List Nat → LoopEnd
  | [] => {}
  | n :: ns =>
    if a.idx n + 1 < a.trip n then
      match a.loops.find? (fun t => t.1 == n) with
      | none => {}
      | some (_, l) =>
        { idx := [(n, a.idx n + 1)], back := some l.start
          ind := if l.ind = 0 then none else some (l.ind, modI 64 ((a.getX l.ind).toNat + sextI 32 (a.getSr (0x02C + n)).toNat)) }
    else
      let e := a.endTest ns
      { e with off := n :: e.off }

/-! ### Checks -/

/-- Registers below 56 that the operations write and that hold no storage, the lowest first (R214). -/
def State.newResidents (s : State) (ops : List SlotInst) : NatSet :=
  (ops.map (fun o => o.i.vdests)).flatten.foldl (fun l v =>
    if v < 56 && (Tbl.get 0 s.ar.vst v == 0 || Tbl.get 0 s.ar.vst v == 2) then NatSet.insert l v else l) []

/-- The single decision of R214: the slot that takes RESIDENCY, and the trap. -/
def State.residency (s : State) (ops : List SlotInst) : Option (Nat × Trap) :=
  let new := s.newResidents ops
  if s.ar.resident + new.length ≤ 48 then none
  else
    let v := new.headD 0
    (ops.find? (fun o => o.i.vdests.contains v)).map (fun o => (o.slot, { cause := 11, d0 := 1, d1 := v, slot := o.slot }))

/-- The counter that a command's capture raises. -/
def Instr.raises (i : Instr) : List Nat :=
  match i.cmdOf with
  | some (_, _, h) => if h.cmode % 2 = 1 then [h.cc] else []
  | none => []

/-- What each operation's checks answer, in slot order (R42, R404). -/
def State.checkOps (s : State) (res : Option (Nat × Trap)) : List SlotInst → List (SlotInst × Chk)
  | [] => []
  | o :: l =>
    let own := (s.atSlot o).opCheck o.i
    let c := match res, own with
      | some (k, t), .ok | some (k, t), .trap _ => if k = o.slot then Chk.trap t else own
      | _, _ => own
    (o, c) :: (s.modBun (fun b => { b with apps := b.apps ++ o.i.vdests.filter (fun d => decide (56 ≤ d)), incs := b.incs ++ Instr.raises o.i })).checkOps res l

/-- A wait on a full/empty bit takes an implicit checkpoint first while commands are held (R139). -/
def State.waitFor (s : State) : Wait → Wait
  | .fe => if s.holdsCommands then .ckpt else .fe
  | w => w

/-- The XFERs and fences with operations of later slots that read or send at their issue (R106, R135). -/
def gates (ops : List SlotInst) : List SlotInst :=
  ops.filter (fun x => (match x.i with
    | .xferOwned .. | .xferShared .. | .xferEngine .. | .fenceL | .fenceE => true
    | _ => false) && ops.any (fun y => x.slot < y.slot && y.i.accesses))

/-- Whether a withheld store leaves as a message when it is performed. -/
def State.goesFar (s : State) (e : WEnt) : Bool :=
  match e.sp with
  | .glob => !s.atOnce (dieOf s.lc) e.line s.tid s.fresh
  | .acc => (s.wayTo ⟨e.unit, e.line, true, none⟩).isSome
  | _ => false

/-- Whether writes of the die to the regions that an XFER names have no answer (R394). -/
def State.xferUsed (s : State) (x : SlotInst) : Bool :=
  match x.i with
  | .xferOwned a _ n | .xferShared a _ n | .xferEngine a _ n => s.tokensUsed (regionVas (s.rx a).toNat (n + 1)) s.fresh
  | _ => false

/-- A bundle with an XFER or a fence and accesses behind it issues once nothing of earlier bundles is left that these would wait for, since those
accesses are made at its issue (R106, R135, log 66). -/
def State.gateCheck (s : State) (ops : List SlotInst) : List (SlotInst × Chk) :=
  (gates ops).map (fun x => (x,
    if x.i.isXfer then
      if s.holdsCommands || s.cx.wbuf.any (fun e => s.goesFar e) then .wait .ckpt
      else Chk.when (s.xferWaits s.cyc 0 s.fresh || (s.atSlot x).xferUsed x) (.wait .engine)
    else Chk.when (s.cx.wbuf.any (fun e => s.goesFar e && (e.sp == .acc || isAccWin e.line))) (.wait .ckpt)))

/-- A scratchpad or accumulator access with a qualifier: the qualifier, whether it loads, whether it is to accumulator memory, the logical core,
and the places that it touches. -/
structure QualAt where
  qual : Nat
  ld : Bool
  acc : Bool
  unit : Nat
  places : List Nat
deriving DecidableEq, Repr

/-- The qualified access of an operation, where its address is legal. -/
def State.qualAt (s : State) (i : Instr) : Option QualAt :=
  let scalar (ld : Bool) (z a j : Nat) (w : Option MW) : Option QualAt := if qualOf w = 0 then none else
    match spScalar s.lc (s.scalarEa a j w) (sizeOf z) (sizeOf z) with
    | .ok (u, o) => some ⟨qualOf w, ld, false, u, (s.lcore u).places .sp none o (sizeOf z)⟩
    | .error _ => none
  let row (ld acc : Bool) (a k p : Nat) (w : Option MW) : Option QualAt := if qualOf w = 0 then none else
    match s.vmRow acc a k w with
    | .ok r => some ⟨qualOf w, ld, acc, r.1, (s.lcore r.1).touched acc (if acc then none else some r.2.2) r.2.1 (s.rp p).toNat 256⟩
    | .error _ => none
  match i with
  | .ldl z _ a j w => scalar true z a j w
  | .stl z _ a j w => scalar false z a j w
  | .vld _ a k p w => row true false a k p w
  | .vlda _ a k p w => row true true a k p w
  | .vst _ a k p w => row false false a k p w
  | .vsta _ a k p w => row false true a k p w
  | _ => none

/-- A full/empty load with accesses behind it in its bundle is an acquire that they follow, so the bundle waits on the bit until the load is served
at its issue (R347): its granules are full, or filled by the bundle's own stores, and no older request waits on them. -/
def State.feCheck (s : State) (ops : List SlotInst) : List (SlotInst × Chk) :=
  let all := ops.filterMap (fun x => ((s.atSlot x).qualAt x.i).map (fun q => (x, q)))
  (all.filter (fun t => t.2.ld && 2 ≤ t.2.qual && t.2.qual < 4
      && ops.any (fun y => t.1.slot < y.slot && y.i.accesses && !(t.2.qual = 2 && y.i.isStore)))).map (fun t =>
    let c := s.lcore t.2.unit
    let fills := ((all.filter (fun f => !f.2.ld && f.2.qual = 2 && f.2.acc == t.2.acc && f.2.unit = t.2.unit
      && (t.2.qual = 2 || f.1.slot < t.1.slot))).map (fun f => f.2.places)).flatten
    let open_ := t.2.places.filter (fun a => !(c.bank (spOf t.2.acc)).full [a])
    (t.1, Chk.when (!(open_.all (fun a => fills.any (fun b => a / 16 == b / 16))) || c.ahead t.2.acc t.2.places) (.wait .fe)))

/-- A strong store with a strong load or a BARWAIT behind it in one bundle (R119, R347). -/
def strongPair (ops : List SlotInst) : Bool :=
  let store (i : Instr) : Bool := match i with
    | .stl _ _ _ _ w | .vst _ _ _ _ w | .vsta _ _ _ _ w => qualOf w != 0
    | .barinit .. => true
    | _ => false
  let load (i : Instr) : Bool := match i with
    | .ldl _ _ _ _ w | .vld _ _ _ _ w | .vlda _ _ _ _ w => qualOf w != 0
    | .barwait .. => true
    | _ => false
  ops.any (fun x => store x.i && ops.any (fun y => x.slot < y.slot && load y.i))

/-- The induction register that the end processing of the offered bundle reads, where no transfer of its S0 leaves it (R362, R363). -/
def State.endReads (s : State) (o : Offer) : Option Nat :=
  if o.ops.any (fun x => ((s.atSlot x).jump x.i).isSome || (match x.i with
      | .loop .. => true
      | _ => false)) then none
  else ((s.ar.endTest (s.ar.endsAt o.a)).ind).map (fun t => t.1)

/-- Its check, in the place after C1. -/
def State.endCheck (s : State) (o : Offer) : List (SlotInst × Chk) :=
  match s.endReads o with
  | none => []
  | some r =>
    [(⟨9, 0, 0, .nop 0 0 0 0, none⟩, match s.chkX r with
      | .trap t => .trap { t with slot := 9 }
      | c => c)]

/-- Operations that wait, with why. -/
def State.waiting (s : State) (l : List (SlotInst × Chk)) : List (SlotInst × Wait) :=
  l.filterMap (fun t => match t.2 with
    | .wait w => some (t.1, s.waitFor w)
    | _ => none)

/-- The first operation that traps. -/
def firstTrap (l : List (SlotInst × Chk)) : Option (SlotInst × Trap) :=
  l.findSome? (fun t => match t.2 with
    | .trap e => some (t.1, e)
    | _ => none)

/-- Whether an element of an output stream has failed its checks; its trap comes before any checkpoint that would perform it (R160). -/
def State.elemFailed (s : State) : Bool := s.myTask.async.any (fun t => t.pc.isSome)

/-- Waits on a ticket reorder buffer (R321): a part of the context's task is refused, near or far. -/
def State.partsRefused (s : State) : Bool :=
  s.refusedBy s.tid || s.dies.any (fun d => d.2.copies.any (fun k => k.m.kind == 5 && k.task == s.tid && k.req == 0 && 0 < k.tries))

/-- What a context offers the selector (R25, R354, R384). -/
inductive Prep where
  /-- No task, no bundle to offer yet, or stopped. -/
  | none
  /-- A trap before any operation's checks. -/
  | stop (t : Trap)
  /-- Operations of an earlier commit still to be performed (R407). -/
  | post
  /-- A part is refused, so that no bundle is eligible (R321). -/
  | refused
  /-- A bundle that waits. -/
  | hold (o : Offer) (l : List (SlotInst × Wait))
  /-- A bundle whose operation traps. -/
  | trap (o : Offer) (x : SlotInst) (t : Trap)
  /-- A bundle that may issue. -/
  | go (o : Offer)

/-- Whether the context runs at all (R106, R222, R412, R481). -/
def Ctx.runs (k : Ctx) (cyc : Nat) : Bool :=
  k.task.isSome && k.hold.isNone && k.job.isNone && !k.stopped && !k.preempt && k.offer ≤ cyc

/-- A command of an earlier bundle that a reload has still to put into its queue (R411 step 2). -/
def CommitOp.queued (o : CommitOp) : Bool := o.cmd.isSome && o.slot == 9

/-- The pending asynchronous cause that comes first (R404 step 1). -/
def State.asyncNext (s : State) : Option Trap := s.myTask.async.head?

/-- What the issuing context offers now. -/
def State.prep (s : State) : Prep :=
  let k := s.cx
  if !k.runs (s.core s.cur).cyc then .none
  else
    match k.trpend with
    | some t => if k.post.any CommitOp.queued then .post else .stop t
    | none =>
      if !k.post.isEmpty then .post
      else
        match s.asyncNext with
        | some t => .stop { t with pc := t.pc.or (some (s.nextHeader k.arch.pc)) }
        | none =>
          if s.partsRefused then .refused else
          match s.offered with
          | .error t => .stop t
          | .ok o =>
            let b := s.openBun o
            let l := b.gateCheck o.ops ++ b.feCheck o.ops ++ b.checkOps (s.residency o.ops) o.ops ++ b.endCheck o
            let w := s.waiting l
            if w.any (fun t => t.2 != .replay) then .hold o w
            else if !w.isEmpty then
              match firstTrap (l.filter (fun t => t.2.isStale)) with
              | some (x, t) => .trap o x t
              | none => .hold o w
            else
              match firstTrap l with
              | some (x, t) => .trap o x t
              | none => .go o

/-- Waits that a wait yield counts (R388). -/
def yieldable (w : SlotInst × Wait) : Bool :=
  w.2 == .group || w.2 == .barrier || w.2 == .counter || w.2 == .drain || w.2 == .fe

/-! ### What a waiting context does -/

/-- Replays in progress or to be started hold the context. -/
def replays (l : List (SlotInst × Wait)) : Bool := l.any (fun w => w.2 == .replay)

/-- Whether an operation that needs the matrix engine finds two pending results, one of them the context's own and uncommitted (R298). -/
def State.matFull (s : State) (l : List (SlotInst × Wait)) : Bool :=
  l.any (fun w => w.1.i.needsMatrix) && decide (2 ≤ ((s.core s.cur).matPend.filter (fun r => !r.written)).length)
    && s.matOwn.any (fun r => !r.committed)

/-- Whether a QSYNC of the waiting bundle still waits for results in flight: its boundary checkpoint comes after them (R163). -/
def syncLate (l : List (SlotInst × Wait)) : Bool :=
  l.any (fun w => (w.2 == .late || w.2 == .fe) && (match w.1.i with
    | .qsync .. => true
    | _ => false))

/-- Whether the waiting bundle asks for a checkpoint now. -/
def wantsCkpt (l : List (SlotInst × Wait)) : Bool := l.any (fun w => w.2 == .ckpt && !(w.1.i.wantsBoundary && syncLate l))

/-- An implicit checkpoint at the boundary before a waiting bundle (R139, R163, R298, R316, R347, R387). A failed element of an output stream has
its trap before it (R160). -/
def State.boundary (s : State) (l : List (SlotInst × Wait)) : State :=
  if (wantsCkpt l || s.matUncommitted || s.matFull l) && s.canCommit [] && !s.elemFailed
  then (s.implicitCommit).modCx (fun k => { k with bnd := k.bnd || (wantsCkpt l && !syncLate l) }) else s

/-- Arrivals, presentations and drains: a group or a pair is presented only where the bundle waits on nothing else (R307,
R322, R387). -/
def State.present (s : State) (l : List (SlotInst × Wait)) : State :=
  l.foldl (fun s w =>
    match w.2 with
    | .group => if l.all (fun v => v.2 == .group) then (s.atSlot w.1).holdOp w.1.i .group else s
    | .pair => if l.all (fun v => v.2 == .pair) then (s.atSlot w.1).holdOp w.1.i .pair else s
    | .drain => (s.atSlot w.1).holdOp w.1.i .drain
    | _ => s) s

/-- One core cycle of a context that a refused part keeps from offering a bundle (R321). -/
def State.refusedCycle (s : State) : State := (s.boundary []).modCx (fun k => { k with waited := k.waited + 1 })

/-- One core cycle of a waiting bundle. -/
def State.waitCycle (s : State) (o : Offer) (l : List (SlotInst × Wait)) : State :=
  let t := ((s.fetchTo o.a).openBun o).present l
  let t := { t with bun := {}, kept := none, slot := s.slot }
  (t.boundary l).modCx (fun k => { k with waited := if l.any yieldable then k.waited + 1 else 0 })

end Sys2Proof.Machine
end

