-- ==== Sys2Proof/Machine/Events.lean ====
section
/-! DEFINITION. Events inside a core and its engines: commits, commands, late data, fetches, replays, matrix results, pairs,
ticketed parts, asynchronous traps (R62, R83, R106, R117 to R122, R140 to R155, R159, R183, R222, R297, R308, R319 to R323,
R384, R398). An event whose condition does not hold changes nothing (log 27). -/

namespace Sys2Proof.Machine

/-! ### The end of a committed bundle -/

/-- What a bundle does once it has committed: ENDT, YIELD, TRAP, BRK, RETT (R392, R408, R409); none after a trap of its commit
or while an operation of it holds the context. An ENDT holds it until the elements of its task's streams are performed. -/
def State.runAfter (s : State) : State :=
  let t := if s.bun.checked && s.cx.hold.isNone then
      match s.bun.after with
      | some .endt => if s.streamsOwe then s.modCx (fun k => { k with hold := some ⟨0, .endt, [], [], s.bun.pc, some .endt, 0, 0⟩ }) else s.endTask
      | some .yield => s.matFlush.saveFrame true []
      | some (.trap n) => s.takeTrap { cause := 20, d0 := n, slot := 0, pc := some s.bun.pc }
      | some (.brk n) => s.takeTrap { cause := 21, d0 := n, slot := 0, pc := some s.bun.pc }
      | some .rett => s.returnTrap s.bun.pc
      | _ => s
    else s
  { t with bun := {}, kept := none }

/-- The operation that holds a context is tried again, with what its commit still has to do (R106, R427). -/
def State.finishHold (s : State) : State :=
  match s.cx.hold with
  | none => s
  | some h =>
    let s := s.modCx (fun k => { k with hold := none })
    let s := { s with bun := { pc := h.pc, after := h.after, checked := true }, slot := h.slot, kept := none }
    let s := if h.i = .endt then s.flushStreams.performAll else s
    (s.runOps (⟨h.slot, h.i, h.vals, h.lane, none⟩ :: h.rest)).runAfter

/-- Whether what holds a context may go on without an answer of its own: an XFER or TOKREL once what comes before it is performed (R105, R106,
R430), a release or a fence once accumulator accesses in the fabric are (R347, R350). -/
def State.canTransfer (s : State) : Bool :=
  match s.cx.hold with
  | some h => h.ref == 0 && !s.asleep s.cur && (match h.i with
    | .endt => !s.streamsOwe
    | .tokacq .. => !s.farOpen (fun k => k.m.kind == 3 || k.m.kind == 14)
    | .xferOwned _ _ n | .xferShared _ _ n | .xferEngine _ _ n => !s.transferWaits h.slot h.vals (n + 1)
    | .tokrel .. => !s.transferWaits h.slot h.vals (h.vals.getD 1 0)
    | _ => !s.holdOpen h)
  | none => false

/-- XFER, or what else holds its context, completes (R106). -/
def execXferComplete (p c : Nat) (s : State) : Host.Outcome State Fault Refusal :=
  .next (s.within p c (fun s => if s.canTransfer then s.finishHold else s))

/-- Whether a context stands at a bundle boundary, where an implicit checkpoint can be taken now. -/
def State.atBoundary (s : State) : Bool :=
  s.cx.task.isSome && !s.asleep s.cur && s.cx.hold.isNone && s.cx.job.isNone && s.cx.trpend.isNone && s.cx.post.isEmpty && !s.cx.stopped && !s.elemFailed && s.canCommit []

/-- An implicit checkpoint (R395, R398). -/
def execImplicitCheckpoint (p c : Nat) (s : State) : Host.Outcome State Fault Refusal :=
  .next (s.within p c (fun s => if s.atBoundary then s.implicitCommit else s))

/-! ### Engine commands -/

/-- A command starts or goes on (R140). -/
def execCommandStart (q : QRef) (s : State) : Host.Outcome State Fault Refusal :=
  .next (if s.canStart q then s.startCmd q else s)

/-- A command completes (R142). -/
def execEngineCompletion (q : QRef) (s : State) : Host.Outcome State Fault Refusal :=
  .next (if s.canComplete q then s.completeCmd q else s)

/-- A stopped command is parked (R155). -/
def execEngineFault (q : QRef) (s : State) : Host.Outcome State Fault Refusal := .next (if s.canPark q then s.faultCmd q else s)

/-- Flowstone serves the head demand (R183). -/
def execFlowstoneDemand (d : Nat) (s : State) : Host.Outcome State Fault Refusal :=
  .next (if s.canDemand d then s.serveDemand d else s)

/-! ### Data of loads (R117, R121, R402) -/

/-- Data of load `q` reaches registers: before its landing cycle ends it is a result in flight, else it lands at once, unless its register has
been written since (R121). A result for an output stream lands in the next cycle of an image. `owed` is as `settleDrops` takes it. -/
def Arch.arrive (a : Arch) (q : PendLoad) (owed : List Nat) : Arch :=
  match a.loads.find? (fun l => l.id == q.id) with
  | none => a
  | some l =>
    let a := { a with loads := a.loads.filter (fun l => l.id != q.id) }
    if l.dead then a
    else if a.scyc < q.cyc then { a with inflight := insertLanding q.landing a.inflight }
    else if q.toStream then { a with inflight := insertLanding { q.landing with cyc := a.scyc + 1 } a.inflight }
    else (a.landReg q.landing).settleDrops owed

/-- A load's data reaches the issuing context (R121, R402): live state and image alike, or the user frame of a handler. -/
def State.arriveHere (s : State) (q : PendLoad) : State :=
  if s.cx.frameLoads.any (fun l => l.id == q.id) then
    let s := match s.framePA true true with
      | .ok pa => if q.dead then s else s.frameArrive pa q (s.savedArch true)
      | .error _ => s
    s.modCx (fun k => { k with frameLoads := k.frameLoads.filter (fun l => l.id != q.id) })
  else
    let live := s.ar.loads.any (fun l => l.id == q.id && !l.dead) && s.ar.scyc ≥ q.cyc && q.toStream
    let owed := s.cx.owed
    let s := if live then (s.modAr (fun a => { a with loads := a.loads.filter (fun l => l.id != q.id) })).append q.landing else s
    s.asyncWrite s.cur s.ctx (fun a => a.arrive q owed)

/-- Physical address of a frame of a task that no context runs. -/
def State.taskFrame (s : State) (id : Nat) (user : Bool) : Option Nat :=
  let t := s.task id
  match s.xlate (.die (dieOf t.lcore)) t.asid (t.save / 2 ^ 16 * 2 ^ 16 + (if user then 0x1_0000 else 0)) true with
  | .ok ph => some ph.pa
  | .error _ => none

/-- Where a pending load is held. -/
inductive LoadAt where
  | ctx (p c : Nat) (q : PendLoad)
  | frame (id : Nat) (user : Bool) (q : PendLoad)
deriving DecidableEq, Repr

/-- The load `n` in a list. -/
def findLoad (n : Nat) (l : List PendLoad) : Option PendLoad := l.find? (fun q => q.id == n)

/-- A task whose saved loads hold load `n`. -/
def findSaved (n : Nat) (user : Bool) (t : Tbl (List PendLoad)) : Option LoadAt :=
  t.findSome? (fun e => (findLoad n e.2).map (fun q => .frame e.1 user q))

/-- The place of load `n`. -/
def State.loadAt (s : State) (n : Nat) : Option LoadAt :=
  ((s.cores.findSome? (fun p => p.2.ctxs.findSome? (fun c =>
    (findLoad n (c.2.arch.loads ++ c.2.image.loads ++ c.2.frameLoads)).map (fun q => LoadAt.ctx p.1 c.1 q)))).or
    (findSaved n false s.saved)).or (findSaved n true s.savedH)

/-- Data arrives in a frame of a task that no context runs (R411). -/
def State.arriveSaved (s : State) (id : Nat) (user : Bool) (q : PendLoad) : State :=
  let s := match s.taskFrame id user with
    | some pa => if q.dead then s else s.frameArrive pa q (Tbl.get {} s.shadow (2 * id + b2n user))
    | none => s
  let rest (t : Tbl (List PendLoad)) : Tbl (List PendLoad) := Tbl.put t id ((Tbl.get [] t id).filter (fun l => l.id != q.id))
  if user then { s with savedH := rest s.savedH } else { s with saved := rest s.saved }

/-- A load's data arrives, as `f` completes the load with it; data of a load that nothing waits for is dropped (R121, R402). -/
def State.giveLoad (s : State) (n : Nat) (f : PendLoad → PendLoad) : State :=
  match s.loadAt n with
  | none => s
  | some (.ctx p c q) => s.within p c (fun s => s.arriveHere (f q))
  | some (.frame id user q) => s.arriveSaved id user (f q)

/-- Data of load `n` arrives (R121); one that waits for a bank or another package is not this event's. -/
def execLoadDataArrive (p c n : Nat) (s : State) : Host.Outcome State Fault Refusal :=
  .next (match s.loadAt n with
    | some (.ctx p' c' q) => if p' = p && c' = c && !q.waits then s.giveLoad n id else s
    | some (.frame _ _ q) => if q.waits then s else s.giveLoad n id
    | none => s)

/-- A trap of an offered bundle, as the bundle's operation takes it (R404). -/
def State.trapOffer (s : State) (o : Offer) (x : SlotInst) (t : Trap) : State :=
  let u := ((((s.fetchTo o.a).openBun o).atSlot x).stopOp x.i { t with pc := some (t.pc.getD o.a) })
  { u with kept := none }

/-- LATE_DATA of load n at the bundle that reads its register (R122). -/
def execLateData (p c n : Nat) (s : State) : Host.Outcome State Fault Refusal :=
  .next (s.within p c (fun s =>
    match s.prep with
    | .trap o x t => if t.cause = 8 && s.ar.loads.any (fun q => q.id == n && q.addr == t.d1) then s.trapOffer o x t else s
    | _ => s))

/-! ### Full/empty requests at a bank (R117) -/

/-- The first request of a logical core whose granules are all full. -/
def State.fullWait (s : State) (l : Nat) : Option BankWait :=
  (s.lcore l).waits.find? (fun w => s.spFull w.acc l (if w.rc = 4 then none else some w.rc) w.off w.len w.pn)

/-- The machine as the context of a waiting request reads it: over what it withheld before the request, where no commit has performed that
since (R98, R125); the context cycle of its issue. -/
def State.waitView (s : State) (w : BankWait) : State × Nat :=
  match s.loadAt w.id with
  | some (.ctx p c q) =>
    let v : State := { s with cur := p, ctx := c }
    (v.modCx (fun k => { k with wbuf := if k.ckexp + k.ckimp = w.nck then w.own else [] }), q.iss)
  | _ => ({ s with cur := 0, ctx := 4 }, 0)

/-- A request is performed: it reads, empties unless it keeps, and its data arrives. -/
def State.satisfy (s : State) (l : Nat) (w : BankWait) : State :=
  let rc := if w.rc = 4 then none else some w.rc
  let (view, iss) := s.waitView w
  let raw := view.spBytes w.acc l rc w.off w.len
  let raw := if w.acc then view.accFree iss l w.off w.len raw else raw
  let pois := view.spPois w.acc l rc w.off w.len w.pn
  let v := if w.sx = 8 then blendBytes 256 w.pn w.old raw else scalarVal w.sx raw
  let s := if w.keep then s else s.spDrain w.acc l rc w.off w.len w.pn
  let s := s.modLcore l (fun c => { c with waits := c.waits.filter (fun x => x.id != w.id) })
  s.giveLoad w.id (fun q => { q with val := v, pois := if pois then some q.addr else none })

/-- The request of load n is performed once every granule that it touches is full, in the bank's order of arrival (R117). -/
def execFeWaitSatisfy (_p _c n : Nat) (s : State) : Host.Outcome State Fault Refusal :=
  .next (match s.lcores.find? (fun t => t.2.waits.any (fun w => w.id == n)) with
    | none => s
    | some t => match s.fullWait t.1 with
      | some w => if w.id = n then s.satisfy t.1 w else s
      | none => s)

/-! ### Input streams (R159) -/

/-- The next element that stream `q` of the issuing context would fetch, where its window has room and no translation of it waits for its repair
(R83). -/
def State.nextElem (s : State) (q : Nat) : Option (Stream × Nat) :=
  match s.stream q with
  | none => none
  | some st =>
    let n := st.pos + (s.win q).length
    if st.dir == 0 && !Tbl.has s.cx.swait q && (s.win q).length < st.depth && n < st.count then some (st, n) else none

/-- The line of another package that a fetch asks for, unless it has been asked for (R426). -/
def State.fetchGap (s : State) (q : Nat) : Option Nat :=
  match s.nextElem q with
  | none => none
  | some (st, n) =>
    match s.elemPlaces st n false with
    | .error _ => none
    | .ok ps => match s.farGap q ps with
      | none => none
      | some pa => if (s.die (dieOf s.lc)).copies.any (fun k => k.m.kind == 1 && k.req == s.myStream q && k.m.addr == pa % 2 ^ 44 && k.m.dpkg == pa / 2 ^ 44)
          then none else some pa

/-- The translation fault that a fetch meets and has not posted (R83). -/
def State.fetchFault (s : State) (q : Nat) : Option Trap :=
  match s.nextElem q with
  | none => none
  | some (st, n) =>
    match s.elemPlaces st n false with
    | .error t => if t.cause = 3 && s.fqRoom (dieOf s.lc) then some t else none
    | .ok _ => none

/-- One fetch of stream `q`: an element, a request for a far line, or a translation fault that waits for its repair. -/
def State.fetchOne (s : State) (q : Nat) : State :=
  if s.canFetch q then (match s.nextElem q with
    | some (st, n) => if st.space = 2 then ((s.fetchNext q).tlbFill s.cur s.asid (st.elem n)).draw else s.fetchNext q
    | none => s.fetchNext q)
  else
    match s.fetchGap q, s.fetchFault q with
    | some pa, _ => s.sendHome (dieOf s.lc) 1 pa 0 [8] { s.me with req := s.myStream q }
    | none, some t =>
      let (u, n) := s.postFault (dieOf s.lc) t.d1 s.asid t.d0 false 15 s.cur
      u.modCx (fun k => { k with swait := Tbl.put k.swait q n })
    | none, none => s

/-- Whether stream `q` has something to fetch now. -/
def State.wantsFetch (s : State) (q : Nat) : Bool := !s.asleep s.cur && (s.canFetch q || (s.fetchGap q).isSome || (s.fetchFault q).isSome)

/-- A stream fetches its next element (R159). -/
def execStreamFetch (p c q : Nat) (s : State) : Host.Outcome State Fault Refusal := .next (s.within p c (fun s => s.fetchOne q))

/-! ### Recipe replays (R222, R223) -/

/-- RECIPE_FAULT of the replay of register `v` with an inner cause. -/
def trapReplay (v inner d0 d1 : Nat) : Trap := { cause := 10, d0 := inner + d0 % 2 ^ 32 * 256, d1 := d1, d2 := v }

/-- The register whose replay comes next for a read of dropped register `v`: innermost first. -/
def Arch.innermost (a : Arch) : Nat → Nat → Nat
  | 0, v => v
  | f + 1, v =>
    match a.recipe v with
    | none => v
    | some e => match e.i.vsrcs.find? (fun n => n < 56 && n != v && 2 ≤ Tbl.get 0 a.vst n) with
      | some n => a.innermost f n
      | none => v

/-- Operands of a recipe's operation: registers as visible, the captured scalar, the predicate p0 (R218, R222). -/
def State.replayIn (s : State) (e : Recipe) : VecIn :=
  { v := s.rv, old := s.rvd, x := fun _ => e.scal.headD 0, p := fun _ => ones 256 }

/-- What a replay of a recipe computes, with its latency, or the inner cause that it meets (R222, R223). -/
def State.replayVal (s : State) (e : Recipe) : Except Trap (Nat × Nat) :=
  match e.i with
  | .vld .. =>
    match clusterAddr s.lc spSize e.addr 256 with
    | .error c => .error (trapReplay e.vd 5 c e.addr)
    | .ok (u, o) =>
      match (if s.swzOff then none else (List.range 16).findSome? (fun g => (s.lcore u).tagFail e.rc (o + 16 * g) 16)) with
      | some d => .error (trapReplay e.vd 18 d e.addr)
      | none =>
        if s.spPois false u (some e.rc) o 256 (ones 256) then .error (trapReplay e.vd 7 0 e.addr)
        else .ok (s.spBytes false u (some e.rc) o 256, s.spLat u)
  | i =>
    match i.vsrcs.find? (fun n => Tbl.has s.ar.vpois n) with
    | some n => .error (trapReplay e.vd 7 0 (Tbl.get 0 s.ar.vpois n))
    | none => .ok (vecVal (s.replayIn e) i.performed, vecLat i.performed)

/-- A replay of register `v` starts and makes it RESIDENT (R214, R222), or its fault (R223). It waits for late data of its sources. -/
def State.startReplay (s : State) (v : Nat) : Except Trap State :=
  match s.ar.recipe v with
  | none => .ok s
  | some e =>
    if e.i.vsrcs.any (fun n => (s.ar.awaited .v n).isSome) then .ok s
    else if Tbl.get 0 s.ar.vst v = 2 && 48 ≤ s.ar.resident then .error { trapReplay v 11 2 0 with d1 := v }
    else
      match s.replayVal e with
      | .error t => .error t
      | .ok (x, lat) => .ok (s.modCx (fun k => { k with chain := true, replay := some ⟨v, x, (s.core s.cur).cyc + lat + 2⟩,
                                                        arch := { k.arch with vst := Tbl.put k.arch.vst v 3 } }))

/-- A replay lands: the register holds its value again, and keeps its recipe (R222). -/
def State.landReplay (s : State) : State :=
  match s.cx.replay with
  | none => s
  | some r =>
    if r.at_ < (s.core s.cur).cyc then
      s.modCx (fun k => { k with replay := none, arch := { k.arch.setV r.vd (BitVec.ofNat 2048 r.val) with
        vst := Tbl.put k.arch.vst r.vd 1, vpois := Tbl.del k.arch.vpois r.vd } })
    else s

/-- The dropped register whose replay a waiting bundle needs next, with the operation that reads it. -/
def State.replayNeed (s : State) (l : List (SlotInst × Wait)) : Option (SlotInst × Nat) :=
  l.findSome? (fun w => if w.2 == .replay then
    (w.1.i.vsrcs.find? (fun n => n < 56 && 2 ≤ Tbl.get 0 s.ar.vst n)).map (fun n => (w.1, s.ar.innermost 2 n)) else none)

/-- A bundle that reads a dropped register starts the next replay of its chain, or takes its fault. -/
def State.stepReplay (s : State) (o : Offer) (l : List (SlotInst × Wait)) : State :=
  match s.replayNeed l with
  | none => s
  | some (x, v) =>
    match s.startReplay v with
    | .ok t => t
    | .error t => s.trapOffer o x { t with slot := x.slot }

/-- The replay of register r starts or lands (R222). -/
def execRecipeReplay (p c r : Nat) (s : State) : Host.Outcome State Fault Refusal :=
  .next (s.within p c (fun s =>
    match s.cx.replay with
    | some q => if q.vd = r then s.landReplay else s
    | none =>
      match s.prep with
      | .hold o l => if (s.replayNeed l).map (fun t => t.2) = some r then s.stepReplay o l else s
      | _ => s))

/-! ### Matrix results (R297) -/

/-- Whether a context's commit is over, so that no store of it is left that a result's write must follow (R300, log 65). -/
def Ctx.commitOver (k : Ctx) : Bool := k.hold.isNone || k.wbuf.isEmpty

/-- Whether result `n` of a core may be written now. -/
def State.canWrite (s : State) (p n : Nat) : Bool :=
  match (s.core p).matPend[n]? with
  | none => false
  | some r => !s.asleep p && r.committed && !r.written && r.at_ < (s.core p).cyc && (s.ctxAt p r.ctx).commitOver
      && ((s.core p).matPend.take n).all (fun q => q.ctx != r.ctx || q.written)

/-- A pending result is written to its tile. -/
def execMatrixResultWrite (p n : Nat) (s : State) : Host.Outcome State Fault Refusal :=
  .next (if s.canWrite p n then s.writeResAt p n else s)

/-! ### Pairs (R308) -/

/-- The MMAP of a bundle. -/
def Offer.mmap (o : Offer) : Option (SlotInst × MmaW) :=
  o.ops.findSome? (fun x => match x.i with
    | .mmap _ _ _ m => some (x, m)
    | _ => none)

/-- The bundle of the issuing context whose MMAP is presented. -/
def State.presentedOffer (s : State) : Option (Offer × SlotInst × MmaW) :=
  match s.prep with
  | .hold o _ | .go o => o.mmap.map (fun t => (o, t.1, t.2))
  | _ => none

/-- Whether the presented MMAP of the issuing context has waited 4,096 core cycles. -/
def State.pairExpired (s : State) : Bool :=
  match s.cx.presented with
  | none => false
  | some (_, t, _) => t + 4096 ≤ (s.core s.cur).cyc

/-- PAIR_TIMEOUT of the presented MMAP; its group records it for the partner (R308). -/
def State.timeoutPair (s : State) : State :=
  match s.presentedOffer with
  | none => s
  | some (o, x, m) =>
    let t := s.trapPair 16 1 m.gid ((s.cx.presented.map (fun t => t.2.2)).getD 0)
    let g := (s.cx.presented.map (fun t => t.1)).getD 0
    let other := ((s.partner m.gid).map (fun t => t.2)).getD 0
    (s.modGroup (dieOf s.lc) g (fun g => { g with tout := true, toutFor := other })).trapOffer o x { t with slot := x.slot }

/-- A presented MMAP times out (R308). -/
def execPairTimeout (p c : Nat) (s : State) : Host.Outcome State Fault Refusal :=
  .next (s.within p c (fun s => if s.pairExpired then s.timeoutPair else s))

/-! ### Ticketed parts (R319 to R322) -/

/-- Part `n` is taken off its way and reaches its controller. -/
def State.bringPart (s : State) (n : Nat) (refused : Bool) : State :=
  match findIdx? (fun p => p.id == n && p.refused == refused) s.parts 0 with
  | none => s
  | some (i, p) => ({ s with parts := removeAt s.parts i } : State).deliverPart p

/-- Part n reaches its bank (R319). -/
def execTicketPartArrive (n : Nat) (s : State) : Host.Outcome State Fault Refusal := .next (s.bringPart n false)

/-- Refused part n is sent again by its port (R321). -/
def execTicketPartRetry (n : Nat) (s : State) : Host.Outcome State Fault Refusal := .next (s.bringPart n true)

/-- Every drain that waits on a domain is released by its gap event (R322). -/
def PCore.releaseDrains (k : Nat) (p : Nat × PCore) : Nat × PCore :=
  (p.1, { p.2 with ctxs := p.2.ctxs.map (fun c => (c.1, if c.2.drainOn = some k then { c.2 with drainGo := some k } else c.2)) })

/-- The gap timer of a domain has reached WIN: the event, the drains that it releases, its record, and the collectives that it stops (R322,
R434). -/
def State.gapEvent (s : State) (l td : Nat) : State :=
  let d := (s.lcore l).dom td
  let s := s.modLcore l (fun c => c.setDom td { d with gapev := true, timer := 0 })
  let s : State := { s with cores := s.cores.map (PCore.releaseDrains (l * 64 + td)) }
  let h := s.hostOf l
  (s.blackBox (dieOf h) 2 (unitWord h 0) (td * 2 ^ 32 + d.next % 2 ^ 32)).collGap l td d.next

/-- Whether the gap timer of a domain has run out. -/
def State.gapDue (s : State) (l td : Nat) : Bool :=
  let d := (s.lcore l).dom td
  d.timed (s.waitedOn l td) && d.win ≤ d.timer

/-- TICKET_GAP (R322). -/
def execTicketGap (l td : Nat) (s : State) : Host.Outcome State Fault Refusal :=
  .next (if s.gapDue l td then s.gapEvent l td else s)

/-! ### Asynchronous causes and the selector -/

/-- A trap that comes before any bundle: the pending one of a save, an asynchronous cause, or one of the fetch (R404, R411). -/
def State.takeStop (s : State) (t : Trap) : State :=
  let s := if s.cx.trpend.isSome then s
    else if s.myTask.async.isEmpty then s
    else s.modTask s.tid (fun k => { k with async := k.async.drop 1 })
  s.takeTrap t

/-- A pending asynchronous cause is taken before the next bundle (R403, R404). -/
def execAsyncTrap (p c : Nat) (s : State) : Host.Outcome State Fault Refusal :=
  .next (s.within p c (fun s =>
    match s.prep with
    | .stop t => if s.cx.trpend.isSome || !s.myTask.async.isEmpty then s.takeStop t else s
    | _ => s))

/-- A context that was passed over in 64 eligible cycles is promoted (R384). -/
def execSelectorPromotion (p c : Nat) (s : State) : Host.Outcome State Fault Refusal :=
  .next (s.modCtxAt p c (fun k => if 64 ≤ k.wait && !k.prom then { k with prom := true, promCyc := (s.core p).cyc } else k))

end Sys2Proof.Machine
end

