-- ==== Sys2Proof/Machine/Sched.lean ====
section
/-! DEFINITION. Tasks on contexts: dispatch, wait yields, pre-emption, termination, resumption, the end of a launch (R378, R383,
R388, R390, R393, R410). -/

namespace Sys2Proof.Machine

/-! ### Dispatch (R383) -/

/-- The highest level of a core's ready queues that holds a task. -/
def PCore.level (p : PCore) : Option Nat := ([3, 2, 1, 0] : List Nat).find? (fun n => !(Tbl.get [] p.ready n).isEmpty)

/-- The registers with which a task starts (R213). -/
def startArch (t : Task) : Arch := ({ pc := t.entry } : Arch).setX 1 (BitVec.ofNat 64 t.arg)

/-- The issuing context takes a task: from its record, or from its frame. -/
def State.takeTask (s : State) (id : Nat) : State :=
  let t := s.task id
  let s := s.modTask id (fun k => { k with state := 3, ran := true, flush := 0 })
  let k : Ctx := { task := some id, stop := s.cx.stop, stopped := s.cx.stopped }
  if t.ran then (s.setCx k).reloadCtx else s.setCx { k with arch := startArch t, image := startArch t }

/-- Whether a free context of a core has a task to take, and that task may start. -/
def State.canDispatch (s : State) (p c : Nat) : Bool :=
  (s.ctxAt p c).task.isNone && !s.asleep p && (match (s.core p).level with
    | none => false
    | some n => (Tbl.get [] (s.core p).ready n).head?.all s.mayStart)

/-- The head task of the highest level that is not empty goes to a free context. -/
def State.dispatch (s : State) (p c : Nat) : State :=
  match (s.core p).level with
  | none => s
  | some n =>
    match Tbl.get [] (s.core p).ready n with
    | [] => s
    | id :: rest => (s.modCore p (fun q => { q with ready := Tbl.put q.ready n rest })).within p c (fun s => s.takeTask id)

/-- A free context takes a task (R383). -/
def execTaskDispatch (p c : Nat) (s : State) : Host.Outcome State Fault Refusal :=
  .next (if s.canDispatch p c then s.dispatch p c else s)

/-! ### Wait yields (R388) -/

/-- Whether a wait yield is due for the issuing context. -/
def State.yieldDue (s : State) : Bool := 4096 ≤ s.cx.waited && !s.asleep s.cur && (s.core s.cur).level.isSome && s.canCommit [] && s.canSave

/-- A wait yield (R388). -/
def execWaitYield (p c : Nat) (s : State) : Host.Outcome State Fault Refusal :=
  .next (s.within p c (fun s =>
    match s.prep with
    | .hold _ l => if s.yieldDue && l.any yieldable then s.saveCtx true else s
    | .refused => if s.yieldDue then s.saveCtx true else s
    | _ => s))

/-! ### Pre-emption (R390, R410) -/

/-- Groups of a task whose members are pre-empted together (R390). -/
def State.gangs (s : State) (id : Nat) : List Nat :=
  let t := s.task id
  ((List.range 4).filterMap (fun n => t.slotGid n)).filter (fun g => let e := s.group (dieOf t.lcore) g; e.gang || e.pair)

/-- Whether the group of an identifier is one for tasks of two dies: tables are per die, and a spanning group has entries on its own (R382). -/
def State.sameTable (s : State) (a b gid : Nat) : Bool :=
  let d := dieOf (s.task a).lcore
  let k := dieOf (s.task b).lcore
  d == k || (s.group d gid).xdie && NatSet.mem (s.group d gid).dies k

/-- Whether two tasks share such a group. -/
def State.together (s : State) (a b : Nat) : Bool := a != b && (s.gangs a).any (fun g => (s.gangs b).contains g && s.sameTable a b g)

/-- Contexts that are pre-empted with a task: its own and those of the RUNNING members of its gangs. -/
def State.preemptSet (s : State) (id : Nat) : List (Nat × Nat) :=
  (s.cores.map (fun p => p.2.ctxs.filterMap (fun c => match c.2.task with
    | some t => if t = id || s.together id t then some (p.1, c.1) else none
    | none => none))).flatten

/-- A flagged context is saved once that can be done; the stop of a debugger ends (R410, R481). -/
def State.savePreempted (s : State) (p c : Nat) : State :=
  s.within p c (fun s =>
    if s.cx.preempt && s.canSave then (s.modCx (fun k => { k with preempt := false, stop := false, stopped := false, replay := none, presented := none })).saveCtx false
    else s)

/-- The supervisor pre-empts a context, and with it the other members of its gangs (R390, R410). -/
def execPreempt (p c : Nat) (s : State) : Host.Outcome State Fault Refusal :=
  .next (match (s.ctxAt p c).task with
    | none => s
    | some id =>
      let l := s.preemptSet id
      let t := l.foldl (fun s k => s.modCtxAt k.1 k.2 (fun x => { x with preempt := true })) s
      let t := l.foldl (fun s k => s.modTask ((s.ctxAt k.1 k.2).tid) (fun x => { x with gp := decide (1 < l.length) })) t
      l.foldl (fun s k => s.savePreempted k.1 k.2) t)

/-- The supervisor ends a running task: its groups lose it, its locks are released, its context is free, and what the context held
is abandoned (R101, R378, R386, R412). -/
def execTaskTerminate (p c : Nat) (s : State) : Host.Outcome State Fault Refusal :=
  .next (s.within p c (fun s =>
    match s.cx.task with
    | none => s
    | some id =>
      let s := (List.range 4).foldl (fun s n => s.leaveGroup id n) s
      ((s.dropLocks id).modTask id (fun t => { t with state := 5, async := [] })).freeCtx))

/-- A SAVED task is READY again. -/
def State.readyAgain (s : State) (id : Nat) : State :=
  if (s.task id).state = 4 && (s.task id).id = id then (s.modTask id (fun t => { t with gp := false })).makeReady id else s

/-- Tasks that a pre-emption saved together with a task (R390). -/
def State.savedWith (s : State) (id : Nat) : List Nat :=
  if (s.task id).gp then
    (s.dies.map (fun d => d.2.tasks.filterMap (fun t => if t.2.gp && t.2.state == 4 && s.together id t.2.id then some t.2.id else none))).flatten
  else []

/-- The supervisor makes a SAVED task READY, and in one step those that were pre-empted with it (R378, R390). -/
def execResumption (task : Nat) (s : State) : Host.Outcome State Fault Refusal :=
  .next ((s.savedWith task).foldl (fun s t => s.readyAgain t) (s.readyAgain task))

/-! ### The end of a launch (R393) -/

/-- Whether every task of a launch has ended, every command of theirs has completed or been cancelled, no die of theirs owes a flush, and the
completion word of another package has its answer (R393). -/
def State.launchOver (s : State) (l : Launch) : Bool :=
  (match l.sent with
   | some n => !(s.die l.die).copies.any (fun k => k.m.kind == 7 && k.ref == n)
   | none => true) && l.tasks.all (fun t => (s.task t).state == 5 && (s.cmdsOf t).isEmpty) && l.tasks.all (fun t => !s.flushOwed (fld t 18 16) (fun _ => true))

/-- The AADD of 1 on the completion word, as an integer atomic; one on another package is performed when its answer comes (R334, R393). -/
def State.addDone (s : State) (l : Launch) : State :=
  if l.done = 0 then s
  else
    match s.xlate (.die l.die) l.asid (l.done % 2 ^ 57) true with
    | .error _ => s
    | .ok ph =>
      if !s.atOnce l.die ph.pa 0 s.fresh then
        ({ s.sendHome l.die 7 ph.pa 0 [1, 0, 3 * 16 + l.asid * 64] { num := s.fresh, ref := s.fresh } with
           launches := s.launches.map (fun k => if k.id = l.id then { k with sent := some s.fresh } else k) } : State).bump
      else
        match s.home ph.pa with
        | .acc u o => match (s.lcore u).atom o 0 64 true 1 0 with
          | some (_, c) => s.setLcore u c
          | none => s
        | _ => s

/-- The task slots of a launch become FREE (R393). -/
def State.freeLaunch (s : State) (l : Launch) : State :=
  let s := l.tasks.foldl (fun s t => s.modDie (fld t 18 16) (fun d => { d with tasks := d.tasks.filter (fun k => k.1 != fld t 15 0) })) s
  { s with launches := s.launches.filter (fun k => k.id != l.id) }

/-- A launch is over: its flushes, its completion word, and once that is performed its slots (R393, R394). -/
def State.endLaunch (s : State) (l : Launch) : State :=
  if l.sent.isSome then s.freeLaunch l
  else
    let t := s.addDone l
    if t.launches.any (fun k => k.id == l.id && k.sent.isSome) then t else t.freeLaunch l

/-- Launch n of die d completes (R393). -/
def execLaunchComplete (d n : Nat) (s : State) : Host.Outcome State Fault Refusal :=
  .next (match s.launches.find? (fun l => l.id == n && l.die == d) with
    | some l => if s.launchOver l then s.endLaunch l else s
    | none => s)

end Sys2Proof.Machine
end

