-- ==== Sys2Proof/Machine/Elwiset.lean ====
section
/-! DEFINITION. Elwiset: limits, the ceiling, group time, raises, silence, eviction, joining and leaving (R441 to R453), and the
thermal limit (R478). What the messages leave open is log 33. -/

namespace Sys2Proof.Machine

/-! ### The view -/

def State.elw (s : State) (d : Nat) : Elw := (s.die d).elw
def State.modElw (s : State) (d : Nat) (f : Elw → Elw) : State := s.modDie d (fun x => { x with elw := f x.elw })

/-- An event is given to the machine: it happens in a later step. -/
def State.post (s : State) (i : Instr) : State := { s with agenda := s.agenda ++ [i] }

/-- The other members, and the dies that join, to which a die sends its notices. -/
def State.elwPeers (s : State) (d : Nat) : List Nat := ((s.elw d).members.map (fun m => m.1)).filter (fun n => n != s.elwId d)

/-- The other members (R447): a die that joins is none before its tick. -/
def State.elwMembers (s : State) (d : Nat) : List Nat :=
  (((s.elw d).members.filter (fun m => !m.2.joining)).map (fun m => m.1)).filter (fun n => n != s.elwId d)

/-- The time reference: the LIVE member of lowest identity, a die's own member always LIVE to itself (R443). -/
def State.elwRef (s : State) (d : Nat) : Option Nat :=
  (((s.elw d).members.filter (fun m => !m.2.joining && (m.1 == s.elwId d || !m.2.silent))).map (fun m => m.1)).head?

/-- LIVE members, the die itself included (R452). -/
def State.elwLive (s : State) (d : Nat) : List Nat :=
  ((s.elw d).members.filter (fun m => !m.2.joining && (m.1 == s.elwId d || !m.2.silent))).map (fun m => m.1)

/-- STATE of ELWSTAT: 0 ALONE, 1 JOINING, 2 MEMBER, 3 LEAVING (R452, R453). -/
def Elw.stateCode (e : Elw) : Nat :=
  if e.joinTick.isSome then 1 else if e.leaveAt.isSome then 3 else if e.egid = 0 then 0 else 2

/-- A die's limit (R442). -/
def Elw.limit (e : Elw) : Nat :=
  let m := Nat.min (Nat.min e.cap e.thermal) (Nat.min e.powerLim e.current)
  Nat.min 700 (Nat.max 300 (m / 25 * 25))

/-- A member as the die knows it; one that joins knows the members by their answers (R449). -/
def Elw.known (e : Elw) (n : Nat) : Option Member :=
  ((e.members.find? (fun m => m.1 == n)).or (e.joinView.find? (fun m => m.1 == n))).map (fun m => m.2)

/-- A member's entry changes, wherever the die keeps it. -/
def Elw.modMember (e : Elw) (n : Nat) (f : Member → Member) : Elw :=
  match e.members.find? (fun m => m.1 == n) with
  | some m => { e with members := Tbl.put e.members n (f m.2) }
  | none =>
    match e.joinView.find? (fun m => m.1 == n) with
    | some m => { e with joinView := Tbl.put e.joinView n (f m.2) }
    | none => e

/-- A die whose EGID came from a join that it served, and that is the only member again: it has joined no group (R441). -/
def Elw.lone (e : Elw) : Elw := if e.founded && e.members.length ≤ 1 then { e with egid := 0, founded := false, hosting := none } else e

/-! ### Events and counters -/

/-- The word of an event (R452, R469). -/
def eventWord (kind subj tick : Nat) : Nat := 2 ^ 63 + kind % 16 * 2 ^ 59 + subj % 2 ^ 11 * 2 ^ 32 + tick % 2 ^ 32

/-- An Elwiset event: 16 are queued, and one more overwrites the oldest (R452, R487). -/
def State.elwEvent (s : State) (d kind subj : Nat) : State :=
  let g := (s.elw d).gtime
  let s := s.modElw d (fun e => let l := e.events ++ [(kind, subj, g)]; { e with events := l.drop (l.length - 16) })
  (s.fwEvent d 5 kind).blackBox d 6 0 (eventWord kind subj g)

/-- A host event with its vector: 64 are queued, and one more overwrites the oldest (R469). -/
def State.hostEvent (s : State) (d kind subj : Nat) : State :=
  let g := (s.elw d).gtime
  let s := s.modDie d (fun x => let l := x.hevt ++ [(kind, subj, g)]; { x with hevt := l.drop (l.length - 64) })
  { s with host := { s.host with msix := NatSet.insert s.host.msix (512 + d) } }

/-- A message that is dropped and counted as a protocol error (R421, R451, R487). -/
def State.protoError (s : State) (d kind source : Nat) : State :=
  let s := s.modDie d (fun x => { x with dbg := { x.dbg with proto := Nat.min (2 ^ 32 - 1) (x.dbg.proto + 1) } })
  s.blackBox d 5 0 (kind * 2 ^ 32 + source)

/-! ### Messages (R451) -/

/-- The event that a message is at its receiver. -/
def elwInstr (d : Nat) (m : ElwMsg) : Instr :=
  match m.op with
  | 0 => .hb d m
  | 1 => .lower d m
  | 2 => .raise d m
  | 3 => .ack d m
  | 4 => .commit d m
  | 5 => .cancel d m
  | 6 => .join d m
  | 7 => .joinack d m
  | 8 => .joinabort d m
  | 9 => .leave d m
  | 10 => .evict d m
  | _ => .elwBadOp d m

/-- The payload words of a message. -/
def elwWords (m : ElwMsg) : List Nat :=
  [m.op + b2n m.busy * 2 ^ 4 + m.egid * 2 ^ 16 + m.mhz * 2 ^ 32 + m.seq * 2 ^ 48, m.tick, m.subj + m.n * 2 ^ 16, m.gtime]

/-- The message that payload words carry. -/
def elwOf (m : Msg) : ElwMsg :=
  let w (i : Nat) := m.words.getD i 0
  ⟨fld (w 0) 3 0, m.spkg * 8 + m.sdie, bit (w 0) 4, fld (w 0) 31 16, fld (w 0) 47 32, fld (w 0) 63 48, w 1, fld (w 2) 15 0, w 2 / 2 ^ 16, w 3⟩

/-- A message to a member: within the package, where its way is open, it arrives in a later step, else it leaves as kind ELW. -/
def State.elwSend (s : State) (d dst : Nat) (m : ElwMsg) : State :=
  if dst / 8 = (s.die d).pkg && s.ringOpen d (dst % 8) then s.post (elwInstr (dst % 8) m)
  else s.sendTo d 13 (dst / 8) (dst % 8) 0 0 (elwWords m) {}

/-- A message of a die with its own EGID, sequence number and time. -/
def State.elwMsg (s : State) (d op mhz tick subj n : Nat) (busy : Bool) : ElwMsg :=
  let e := s.elw d
  ⟨op, s.elwId d, busy, if op = 6 && e.joinTick.isSome then e.joinEgid else e.egid, mhz, e.seq, tick, subj, n, e.gtime⟩

/-- A notice to all other members, from a die that joins to those that have answered it. -/
def State.elwAll (s : State) (d : Nat) (m : ElwMsg) : State :=
  let e := s.elw d
  let s := (s.elwPeers d).foldl (fun s n => s.elwSend d n m) s
  (e.joinView.map (fun t => t.1)).foldl (fun s n => s.elwSend d n { m with egid := e.joinEgid }) s

/-- A notice has the next sequence number. -/
def State.elwSeq (s : State) (d : Nat) : State := s.modElw d (fun e => { e with seq := (e.seq + 1) % 256 })

/-- Whether a message is for this die's group; a die that joins counts with the group it joins, and one that serves a join with the
group of that join (R449, R451, log 33). -/
def State.elwMine (s : State) (d : Nat) (m : ElwMsg) : Bool :=
  let e := s.elw d
  m.egid == e.egid || (e.joinTick.isSome && m.egid == e.joinEgid) || (e.hosting.isSome && m.egid == e.hostEgid)

/-- The handling of a received message: a halted die does nothing, and a foreign EGID is dropped and counted (R451, R478). -/
def State.elwTake (s : State) (d : Nat) (m : ElwMsg) (f : State → State) : State :=
  if (s.elw d).halted then s else if s.elwMine d m then f s else s.protoError d 13 m.src

/-- Whether a notice is newer than the last of its sender (R444). -/
def State.newer (s : State) (d : Nat) (m : ElwMsg) : Bool :=
  match (s.elw d).known m.src with
  | some t => t.seq.all (fun q => modI 8 ((m.seq : Int) - q) < 128)
  | none => false

/-- The sender's newest sequence number is kept. -/
def State.seen (s : State) (d : Nat) (m : ElwMsg) : State := s.modElw d (fun e => e.modMember m.src (fun t => { t with seq := some m.seq }))

/-! ### Changes (R443, R446) -/

/-- The events of the removals that a change makes (R448). -/
def State.evictions (s : State) (d : Nat) (gone : List Nat) : State :=
  gone.foldl (fun s n =>
    let s := s.elwEvent d 1 n
    if s.elwRef d = some (s.elwId d) then s.hostEvent d 1 n else s) s

/-- A die that is a group of one from a tick on (R441, R450): a raise of its limit that was pending is proposed anew. -/
def State.elwAlone (s : State) (d t : Nat) : State :=
  let me := s.elwId d
  s.modElw d (fun e => { e with egid := 0, members := [(me, { limit := e.announced })], ceiling := e.announced, lastTick := t, props := []
                                retry := if e.announced < e.limit then [(me, (e.gtime, e.limit))] else [], raises := [], joinTick := none
                                joinView := [], joinN := 0, leaveAt := none, go := false, hosting := none, founded := false })

/-- A joiner whose answers are complete becomes a member at its tick (R449). -/
def State.enterGroup (s : State) (d : Nat) : State :=
  let me := s.elwId d
  s.modElw d (fun e =>
    let t := e.joinTick.getD 0
    let own : Member := ((e.members.find? (fun m => m.1 == me)).map (fun m => m.2)).getD { limit := e.announced }
    let l := applyPend t (Tbl.put (e.joinView.map (fun m => (m.1, { m.2 with last := t }))) me own)
    { e with egid := e.joinEgid, members := l, ceiling := ceilOf 700 l, lastTick := t, joinTick := none, joinView := [], joinN := 0, go := false })

/-- The changes whose tick GTIME has reached are applied (R443). -/
def State.applyChanges (s : State) (d : Nat) : State :=
  let e := s.elw d
  let due := e.members.filter (fun m => (m.2.pendTick.map (fun t => decide (t ≤ e.gtime))).getD false)
  let s :=
    if due.isEmpty then s
    else
      let l := applyPend e.gtime e.members
      let last := due.foldl (fun a m => Nat.max a (m.2.pendTick.getD 0)) 0
      let gone := (due.filter (fun m => m.2.removal && m.2.evict)).map (fun m => m.1)
      let found := e.egid == 0 && due.any (fun m => m.2.joining && !m.2.removal)
      (s.modElw d (fun e => Elw.lone { e with members := l, ceiling := ceilOf 700 l, lastTick := last
                                              egid := if found then e.hostEgid else e.egid, founded := e.founded || found })).evictions d gone
  let e := s.elw d
  let s := if (e.leaveAt.map (fun t => decide (t ≤ e.gtime))).getD false then s.elwAlone d (e.leaveAt.getD 0) else s
  let e := s.elw d
  if (e.joinTick.map (fun t => decide (t ≤ e.gtime))).getD false && e.joinN != 0 && e.joinN ≤ e.joinView.length then s.enterGroup d else s

/-- A scheduled change takes effect (R443). -/
def execCeilingChangeApply (d : Nat) (s : State) : Host.Outcome State Fault Refusal := .next (s.applyChanges d)

/-- A member's one pending change (R444); one whose tick has passed is applied on receipt. -/
def State.schedule (s : State) (d n tick limit : Nat) (removal evict : Bool) : State :=
  let s := s.modElw d (fun e => e.modMember n (fun m => { m with pendTick := some tick, pendLimit := limit, removal := removal, evict := evict }))
  if tick ≤ (s.elw d).gtime then s.applyChanges d else s

/-! ### A change of the die's own limit (R444, R445) -/

/-- A raise is proposed to all members (R445). -/
def State.propose (s : State) (d subj mhz : Nat) : State :=
  let s := s.elwSeq d
  let t := (s.elw d).gtime + 200
  (s.modElw d (fun e => { e with props := Tbl.put e.props subj ⟨t, mhz, []⟩, retry := Tbl.del e.retry subj })).elwAll d (s.elwMsg d 2 mhz t subj 0 false)

/-- The limit that a die has announced last: that of a raise which is proposed or will be, else the one in effect. -/
def Elw.told (e : Elw) (me : Nat) : Nat :=
  match e.props.find? (fun p => p.1 == me), e.retry.find? (fun r => r.1 == me) with
  | some p, _ => p.2.mhz
  | none, some r => r.2.2
  | none, none => e.announced

/-- The die's limit has changed: one that falls is announced with its lead and ends a raise of it that is pending, a higher one is
proposed (R444, R445). -/
def State.limitChanged (s : State) (d : Nat) : State :=
  let e := s.elw d
  let me := s.elwId d
  let l := e.limit
  if e.halted || l = e.told me then s
  else if l < e.told me then
    let s := s.elwSeq d
    let t := (s.elw d).gtime + 50
    let s := s.modElw d (fun e => { e with announced := l, props := Tbl.del e.props me, retry := Tbl.del e.retry me })
    (s.elwAll d (s.elwMsg d 1 l t me 0 false)).schedule d me t l false false
  else if Tbl.has e.props me || Tbl.has e.retry me then s
  else s.propose d me l

/-- The thermal limit of a forecast, in units of 1/16 °C, under the image's TTHR of 75 to 95 °C (R478). -/
def thermalLimit (tthr : Nat) (tf : Int) : Nat :=
  let x := tf - 16 * Nat.min 95 (Nat.max 75 tthr)
  if x ≤ 0 then 700 else if 160 ≤ x then 300 else ((11200 - 40 * x) / 400).toNat * 25

/-- Shutdown at 115 °C: the die's cores halt, and it leaves Elwiset (R478). -/
def State.thermalHalt (s : State) (d : Nat) : State :=
  if (s.elw d).halted then s
  else
    let s := s.modElw d (fun e => { e with halted := true })
    (s.hostEvent d 3 (s.elwId d)).blackBox d 10 0 (eventWord 3 (s.elwId d) (s.elw d).gtime)

/-- A die samples its sensors and sets its thermal limit from the forecast (R478); temperatures in units of 1/16 °C. -/
def execThermalSample (d : Nat) (temps : List Int) (forecast : Int) (s : State) : Host.Outcome State Fault Refusal :=
  .next (if (s.elw d).halted then s
    else if temps.any (fun t => 16 * 115 ≤ t) then s.thermalHalt d
    else (s.modElw d (fun e => { e with thermal := thermalLimit s.cfg.tthr forecast })).limitChanged d)

/-! ### Timers (R445, R447 to R449) -/

/-- A heartbeat to every other member (R447). -/
def execHbSend (d : Nat) (s : State) : Host.Outcome State Fault Refusal :=
  .next (let e := s.elw d
    if e.halted || e.gtime % 100 != 0 then s
    else (s.elwMembers d).foldl (fun t n => t.elwSend d n (s.elwMsg d 0 e.limit e.gtime (s.elwId d) 0 false)) s)

/-- Peers of which none of the last three heartbeats has arrived become SILENT, with no lead (R447). -/
def execSilenceTest (d : Nat) (s : State) : Host.Outcome State Fault Refusal :=
  .next (let e := s.elw d
    if e.halted || e.gtime % 100 != 50 then s
    else
      let lost := (e.members.filter (fun m => m.1 != s.elwId d && !m.2.silent && !m.2.joining && m.2.last + 250 < e.gtime)).map (fun m => m.1)
      if lost.isEmpty then s
      else
        let s := s.modElw d (fun e =>
          let e := lost.foldl (fun e n => e.modMember n (fun m => { m with silent := true })) e
          { e with ceiling := ceilOf 700 e.members, lastTick := e.gtime })
        lost.foldl (fun s n => s.elwEvent d 4 n) s)

/-- The reference evicts peers silent for 10,000 ticks (R448). -/
def execEvictTimeout (d : Nat) (s : State) : Host.Outcome State Fault Refusal :=
  .next (let e := s.elw d
    if e.halted || s.elwRef d != some (s.elwId d) then s
    else
      ((e.members.filter (fun m => m.2.silent && m.1 != s.elwId d && !m.2.removal && m.2.last + 10000 ≤ e.gtime)).map (fun m => m.1)).foldl
        (fun s n =>
          let s := s.elwSeq d
          let t := (s.elw d).gtime + 50
          (s.elwAll d (s.elwMsg d 10 0 t n 0 false)).schedule d n t 0 true true) s)

/-- A proposal is committed or cancelled by T - 50 (R445). -/
def State.settleRaise (s : State) (d subj : Nat) (p : Proposal) : State :=
  let me := s.elwId d
  let s := s.elwSeq d
  let s := s.modElw d (fun e => { e with props := Tbl.del e.props subj })
  if ((s.elwLive d).filter (fun n => n != me)).all (fun n => NatSet.mem p.acks n) then
    let s := if subj = me then s.modElw d (fun e => { e with announced := p.mhz }) else s
    let s := (s.elwAll d (s.elwMsg d 4 p.mhz p.tick subj 0 false)).schedule d subj p.tick p.mhz false false
    if subj = me then s.limitChanged d else s
  else
    (s.modElw d (fun e => { e with retry := Tbl.put e.retry subj (e.gtime + 100, p.mhz) })).elwAll d (s.elwMsg d 5 p.mhz p.tick subj 0 false)

/-- The deadline of the proposals (R445). -/
def execRaiseDeadline (d : Nat) (s : State) : Host.Outcome State Fault Refusal :=
  .next (if (s.elw d).halted then s
    else ((s.elw d).props.filter (fun p => p.2.tick ≤ (s.elw d).gtime + 50)).foldl (fun s p => s.settleRaise d p.1 p.2) s)

/-- Cancelled raises whose time has come are proposed again (R445). -/
def State.retryRaises (s : State) (d : Nat) : State :=
  if (s.elw d).halted then s
  else ((s.elw d).retry.filter (fun r => r.2.1 ≤ (s.elw d).gtime)).foldl (fun s r =>
    let s := s.modElw d (fun e => { e with retry := Tbl.del e.retry r.1 })
    if r.1 = s.elwId d then s.limitChanged d else if Tbl.has (s.elw d).members r.1 then s.propose d r.1 r.2.2 else s) s

/-- A cancelled raise is proposed again (R445). -/
def execRetryAfterCancel (d : Nat) (s : State) : Host.Outcome State Fault Refusal := .next (s.retryRaises d)

/-- A join is given up: JOINABORT to every member, which those that have not answered get through the contact, JOIN_FAILED, ERR (R449,
log 33). -/
def State.abortJoin (s : State) (d : Nat) : State :=
  let e := s.elw d
  let m := { s.elwMsg d 8 0 0 (s.elwId d) 0 false with egid := e.joinEgid }
  let rcv := (e.joinView.map (fun t => t.1)).foldl NatSet.insert [e.joinContact]
  let s := rcv.foldl (fun s n => s.elwSend d n m) s
  (s.modElw d (fun e => { e with joinTick := none, joinView := [], joinN := 0, err := true, go := false })).elwEvent d 3 (s.elwId d)

/-- A joiner that lacks answers at T - 50 aborts (R449). -/
def execJoinDeadline (d : Nat) (s : State) : Host.Outcome State Fault Refusal :=
  .next (let e := s.elw d
    match e.joinTick with
    | none => s
    | some t => if !e.halted && t ≤ e.gtime + 50 && (e.joinN = 0 || e.joinView.length < e.joinN) then s.abortJoin d else s)

/-! ### Group time (R443) -/

/-- Timers that a tick sets off, as events. -/
def State.elwTimers (s : State) (d : Nat) : List Instr :=
  let e := s.elw d
  let g := e.gtime
  (if (pendTick e.members).any (fun t => t ≤ g) || e.leaveAt.any (fun t => t ≤ g) || e.joinTick.any (fun t => t ≤ g) then [Instr.ceilingChangeApply d] else [])
  ++ (if g % 100 = 0 then [Instr.hbSend d] else []) ++ (if g % 100 = 50 then [Instr.silenceTest d] else [])
  ++ (if e.members.any (fun m => m.2.silent && !m.2.removal && m.2.last + 10000 ≤ g) then [Instr.evictTimeout d] else [])
  ++ (if e.props.any (fun p => p.2.tick ≤ g + 50) then [Instr.raiseDeadline d] else [])
  ++ (if e.joinTick.any (fun t => t ≤ g + 50) then [Instr.joinDeadline d] else [])
  ++ (if g % 1000 = 0 then [Instr.blackboxMirror d] else [])

/-- GTIME advances by one; a fast counter holds back instead (R443). -/
def State.tickDie (s : State) (d : Nat) : State :=
  if 0 < (s.elw d).slew then s.modElw d (fun e => { e with slew := e.slew - 1 })
  else
    let s := s.modElw d (fun e => { e with gtime := (e.gtime + 1) % 2 ^ 64 })
    if (s.elw d).halted then
      if (s.elw d).gtime % 1000 = 0 then s.post (.blackboxMirror d) else s
    else
      let s := s.retryRaises d
      { s with agenda := s.agenda ++ s.elwTimers d }

/-- One core cycle of the die by which the package counts time: a microsecond is as many cycles as its ceiling has MHz, and the counters
of all dies advance by it (R21, R443, log 3). -/
def State.clockDie (s : State) (d : Nat) : State :=
  let s := s.modElw d (fun e => { e with frac := e.frac + 1 })
  if (s.elw d).ceiling ≤ (s.elw d).frac then (List.range 8).foldl (fun s k => s.tickDie k) (s.modElw d (fun e => { e with frac := 0 })) else s

/-! ### Messages received -/

/-- HB: the peer is heard, GTIME slews toward the reference, a SILENT peer is LIVE again at 300 MHz; a die outside the view is
answered with EVICT (R443, R447, R448). -/
def execHb (d : Nat) (m : ElwMsg) (s : State) : Host.Outcome State Fault Refusal :=
  .next (s.elwTake d m (fun s =>
    match (s.elw d).members.find? (fun t => t.1 == m.src) with
    | none =>
      let s := s.elwSeq d
      s.elwSend d m.src (s.elwMsg d 10 0 ((s.elw d).gtime + 50) m.src 0 false)
    | some t =>
      let ref := s.elwRef d
      let s := s.modElw d (fun e => e.modMember m.src (fun x => { x with last := Nat.max x.last m.tick }))
      let g := (s.elw d).gtime
      let s := if ref = some m.src && m.src != s.elwId d then
          if g < m.gtime then s.tickDie d else if m.gtime < g then s.modElw d (fun e => { e with slew := 1 }) else s
        else s
      if t.2.silent then
        let s := s.modElw d (fun e =>
          let e := e.modMember m.src (fun x => { x with silent := false, limit := 300 })
          { e with ceiling := ceilOf 700 e.members })
        let s := s.elwEvent d 5 m.src
        if ref = some (s.elwId d) then s.propose d m.src m.mhz else s
      else s))

/-- LOWER schedules the sender's lower limit, and cancels a raise of it (R444, R445). -/
def execLower (d : Nat) (m : ElwMsg) (s : State) : Host.Outcome State Fault Refusal :=
  .next (s.elwTake d m (fun s =>
    if s.newer d m then
      let s := (s.seen d m).modElw d (fun e =>
        { e with raises := Tbl.del e.raises m.src, props := Tbl.del e.props m.src, retry := Tbl.del e.retry m.src })
      s.schedule d m.src m.tick m.mhz false false
    else s))

/-- RAISE is acknowledged (R445). -/
def execRaise (d : Nat) (m : ElwMsg) (s : State) : Host.Outcome State Fault Refusal :=
  .next (s.elwTake d m (fun s =>
    let s := s.modElw d (fun e => { e with raises := Tbl.put e.raises m.subj (m.src, m.tick, m.mhz) })
    s.elwSend d m.src (s.elwMsg d 3 m.mhz m.tick m.subj 0 false)))

/-- ACK is counted for its proposal (R445). -/
def execAck (d : Nat) (m : ElwMsg) (s : State) : Host.Outcome State Fault Refusal :=
  .next (s.elwTake d m (fun s => s.modElw d (fun e =>
    match e.props.find? (fun p => p.1 == m.subj) with
    | some p => if p.2.tick = m.tick then { e with props := Tbl.put e.props m.subj { p.2 with acks := NatSet.insert p.2.acks m.src } } else e
    | none => e)))

/-- COMMIT schedules the raise, or applies it where its tick has passed; one of a raise that a LOWER has cancelled does nothing (R445). -/
def execCommit (d : Nat) (m : ElwMsg) (s : State) : Host.Outcome State Fault Refusal :=
  .next (s.elwTake d m (fun s =>
    if s.newer d m then
      let s := s.seen d m
      if Tbl.get (0, 0, 0) (s.elw d).raises m.subj = (m.src, m.tick, m.mhz) then
        (s.modElw d (fun e => { e with raises := Tbl.del e.raises m.subj })).schedule d m.subj m.tick m.mhz false false
      else s
    else s))

/-- CANCEL discards the proposal (R445). -/
def execCancel (d : Nat) (m : ElwMsg) (s : State) : Host.Outcome State Fault Refusal :=
  .next (s.elwTake d m (fun s => s.modElw d (fun e => { e with raises := Tbl.del e.raises m.subj })))

/-- The answer to a JOIN (R449): the limit in effect, the contact's with the number of members; a pending change of the limit and a
pending leave follow as the notices that announce them (log 33). -/
def State.joinAnswer (s : State) (d joiner n : Nat) (busy : Bool) (egid : Nat) : State :=
  let e := s.elw d
  let me := s.elwId d
  let own : Member := (e.known me).getD { limit := e.announced }
  let tell (s : State) (op mhz tick : Nat) : State := s.elwSend d joiner { s.elwMsg d op mhz tick me 0 false with egid := egid }
  let s := s.elwSend d joiner { s.elwMsg d 7 own.limit 0 joiner n busy with egid := egid }
  if busy then s
  else
    let s := match own.pendTick with
      | some t => tell s 1 own.pendLimit t
      | none => s
    match e.leaveAt with
    | some t => tell s 9 0 t
    | none => s

/-- A joiner enters the view as a member to be, from its tick on (R449). -/
def State.addJoiner (s : State) (d n tick mhz : Nat) : State :=
  s.modElw d (fun e => { e with members := Tbl.put e.members n { limit := mhz, last := tick, pendTick := some tick, pendLimit := mhz, joining := true } })

/-- JOIN: a contact forwards it with its tick and answers, and a group of 256 takes no more; a member that it is forwarded to answers; a
busy one, or one of another group, says so (R441, R449, R451, log 33). -/
def execJoin (d : Nat) (m : ElwMsg) (s : State) : Host.Outcome State Fault Refusal :=
  .next (let e := s.elw d
    if e.halted then s
    else if e.joinTick.isSome || e.members.any (fun t => t.2.joining && t.1 != m.subj) then s.joinAnswer d m.subj 0 true m.egid
    else if m.src = m.subj then
      if (e.egid != 0 && e.egid != m.egid) || 256 ≤ e.members.length then s.joinAnswer d m.subj 0 true m.egid
      else
        let s := s.modElw d (fun e => { e with hosting := some m.subj, hostEgid := m.egid })
        let t := e.gtime + 250
        let n := e.members.length
        let s := (s.elwPeers d).foldl (fun s k => s.elwSend d k (s.elwMsg d 6 m.mhz t m.subj 0 false)) s
        (s.addJoiner d m.subj t m.mhz).joinAnswer d m.subj n false m.egid
    else if m.egid = e.egid then (s.addJoiner d m.subj m.tick m.mhz).joinAnswer d m.subj 0 false m.egid
    else s.joinAnswer d m.subj 0 true m.egid)

/-- JOINACK: a joiner records the answer; the contact's sets its time, its tick and the number of answers; BUSY ends the join
(R449). -/
def execJoinack (d : Nat) (m : ElwMsg) (s : State) : Host.Outcome State Fault Refusal :=
  .next (s.elwTake d m (fun s =>
    if (s.elw d).joinTick.isNone then s
    else if m.busy then s.abortJoin d
    else
      let s := s.modElw d (fun e =>
        let e := { e with joinView := Tbl.put e.joinView m.src { limit := m.mhz, seq := some m.seq } }
        if m.n = 0 then e else { e with joinN := m.n, gtime := m.gtime, joinTick := some (m.gtime + 250) })
      let e := s.elw d
      let me := s.elwId d
      if e.announced = e.joinMhz then s
      else s.elwSend d m.src { s.elwMsg d 1 e.announced (((e.known me).bind (fun t => t.pendTick)).getD e.gtime) me 0 false with egid := e.joinEgid }))

/-- JOINABORT: the joiner is discarded before its tick, and removed on receipt after it; its contact hands the message on to the members
(R449). -/
def execJoinabort (d : Nat) (m : ElwMsg) (s : State) : Host.Outcome State Fault Refusal :=
  .next (s.elwTake d m (fun s =>
    let e := s.elw d
    match e.members.find? (fun t => t.1 == m.subj) with
    | none => s
    | some t =>
      if m.subj = s.elwId d then s
      else
        let host := m.src == m.subj && e.hosting == some m.subj
        let s := s.modElw d (fun e =>
          let l := Tbl.del e.members m.subj
          if t.2.joining then { e with members := l, hosting := if host then none else e.hosting }
          else Elw.lone { e with members := l, ceiling := ceilOf 700 l, lastTick := e.gtime, hosting := if host then none else e.hosting })
        if host then (s.elwMembers d).foldl (fun s k => s.elwSend d k { s.elwMsg d 8 0 0 m.subj 0 false with egid := m.egid }) s else s))

/-- LEAVE: the sender is removed at its tick (R450). -/
def execLeave (d : Nat) (m : ElwMsg) (s : State) : Host.Outcome State Fault Refusal :=
  .next (s.elwTake d m (fun s => if s.newer d m then (s.seen d m).schedule d m.src m.tick 0 true false else s))

/-- EVICT: the peer is removed at its tick; a die that it names is a group of one at once (R448). -/
def execEvict (d : Nat) (m : ElwMsg) (s : State) : Host.Outcome State Fault Refusal :=
  .next (s.elwTake d m (fun s =>
    if m.subj = s.elwId d then (s.elwAlone d (s.elw d).gtime).elwEvent d 2 m.subj
    else if s.newer d m then (s.seen d m).schedule d m.subj m.tick 0 true true
    else s))

/-- An unknown OP or a foreign EGID is dropped and counted (R451). -/
def execElwBadOp (d : Nat) (m : ElwMsg) (s : State) : Host.Outcome State Fault Refusal :=
  .next (if (s.elw d).halted then s else s.protoError d 13 m.src)

/-! ### Commands of the firmware (R449, R450, R452) -/

/-- A command that cannot be made sets ERR. -/
def State.elwRefuse (s : State) (d : Nat) : State := s.modElw d (fun e => { e with err := true })

/-- ELWCTL with CMD = JOIN (R449): refused while a command is pending, with EGID 0, or by a die that is in a group. -/
def State.ctlJoin (s : State) (d : Nat) : State :=
  let e := s.elw d
  if e.go || e.joinEgid = 0 || e.egid != 0 then s.elwRefuse d
  else
    let s := (s.elwSeq d).modElw d (fun e =>
      { e with cmd := 1, go := true, joinTick := some (e.gtime + 250), joinView := [], joinN := 0, joinMhz := e.announced })
    if (s.elw d).halted then s else s.elwSend d e.joinContact (s.elwMsg d 6 e.announced 0 (s.elwId d) 0 false)

/-- The firmware's JOIN command (R449). -/
def execElwctlJoin (d : Nat) (s : State) : Host.Outcome State Fault Refusal := .next (s.ctlJoin d)

/-- ELWCTL with CMD = LEAVE (R450): refused while ALONE or while a command is pending. -/
def State.ctlLeave (s : State) (d : Nat) : State :=
  let e := s.elw d
  if e.go || e.egid = 0 then s.elwRefuse d
  else
    let s := s.elwSeq d
    let t := e.gtime + 50
    let s := s.modElw d (fun e => { e with cmd := 2, go := true, leaveAt := some t })
    if e.halted then s else s.elwAll d (s.elwMsg d 9 0 t (s.elwId d) 0 false)

/-- The firmware's LEAVE command (R450). -/
def execElwctlLeave (d : Nat) (s : State) : Host.Outcome State Fault Refusal := .next (s.ctlLeave d)

/-- ELWCTL with CMD = CAP (R452): the firmware cap, as a LOWER or a RAISE of the die's limit. -/
def State.ctlCap (s : State) (d mhz : Nat) : State :=
  if (s.elw d).go || mhz < 300 || 700 < mhz || mhz % 25 != 0 then s.elwRefuse d
  else (s.modElw d (fun e => { e with cmd := 3, mhz := mhz, cap := mhz })).limitChanged d

/-- The firmware's CAP command (R452). -/
def execElwctlCap (d mhz : Nat) (s : State) : Host.Outcome State Fault Refusal := .next (s.ctlCap d mhz)

/-- Writing 1 to ELWEVT.V removes the head event (R452). -/
def execElwevtPop (d : Nat) (s : State) : Host.Outcome State Fault Refusal :=
  .next (s.modElw d (fun e => { e with events := e.events.drop 1 }))

/-- Writing 1 to HEVT.V removes the head event (R469). -/
def execHevtPop (d : Nat) (s : State) : Host.Outcome State Fault Refusal :=
  .next (s.modDie d (fun x => { x with hevt := x.hevt.drop 1 }))

end Sys2Proof.Machine
end

