-- ==== Sys2Proof/Machine/Lists.lean ====
section
/-! DEFINITION. Command lists: their entries, launches, counter words, region transfers by the firmware, the submission slots
(R367 to R375, R393, R394, R467, R468). The lines that a task owes are written through (log 5): a flush is performed once they are answered. -/

namespace Sys2Proof.Machine

/-! ### Slots -/

def State.sub (s : State) (d n : Nat) : Sub := Tbl.get {} (s.die d).subs n
def State.modSub (s : State) (d n : Nat) (f : Sub → Sub) : State :=
  s.modDie d (fun x => { x with subs := Tbl.put x.subs n (f (Tbl.get {} x.subs n)) })

/-- The vector of slot n of die d (R467). -/
def State.raiseSub (s : State) (d n : Nat) : State := { s with host := { s.host with msix := NatSet.insert s.host.msix (64 * d + n) } }

/-- Processing goes on at an address; what the list has read of other packages for the entry before is dropped. -/
def State.listTo (s : State) (d n va : Nat) : State :=
  (s.modSub d n (fun u => { u with pc := va })).dropGot (fun r => r == listKey d n)

/-- The list stops with an error at its entry (R375, R468). -/
def State.listFail (s : State) (d n code : Nat) : State :=
  (s.listTo d n (s.sub d n).pc).modSub d n (fun u => { u with busy := false, fail := true, code := code, entry := u.pc % 2 ^ 57, waitRef := none, got := none }) |>.raiseSub d n

/-- The list has ended (R373, R468). -/
def State.listDone (s : State) (d n : Nat) : State :=
  ((s.listTo d n (s.sub d n).pc).modSub d n (fun u => { u with busy := false, done := true })).raiseSub d n

/-! ### Reading for a list -/

/-- Where a list reads 8 bytes of its address space. -/
def State.listPa (s : State) (d n va : Nat) : Option Nat :=
  match s.xlate (.die d) (s.sub d n).asid va false with
  | .error _ => none
  | .ok ph => if va % 8 = 0 then some ph.pa else none

/-- 8 bytes that a list has at hand, where it may read them and they are clean. -/
def State.listRead (s : State) (d n va : Nat) : Option Nat :=
  match s.listPa d n va with
  | none => none
  | some pa => if s.poisHere d (listKey d n) pa 0 s.fresh then none else some (s.bytesHere d (listKey d n) pa 0 s.fresh 8)

/-- Words 0 to k - 1 of an entry. -/
def State.listWords (s : State) (d n va k : Nat) : Option (List Nat) :=
  (List.range k).foldr (fun i l => match l, s.listRead d n (va + 8 * i) with
    | some l, some w => some (w :: l)
    | _, _ => none) (some [])

/-- The first of some addresses that a list reads whose line it does not have at hand. -/
def State.listGap (s : State) (d n : Nat) (vas : List Nat) : Option Nat :=
  (vas.filterMap (fun va => s.listPa d n va)).find? (fun pa => !s.lineHere d (listKey d n) pa 0 s.fresh)

/-- Whether a line that a list has asked for is still on its way (R426). -/
def State.listAsked (s : State) (d n : Nat) : Bool := (s.die d).copies.any (fun k => k.m.kind == 1 && k.req == listKey d n && !k.stale)

/-- The list goes on with `f` once it has the lines of some addresses at hand; it asks for one after the other. -/
def State.listGet (s : State) (d n : Nat) (vas : List Nat) (f : State → State) : State :=
  match s.listGap d n vas with
  | none => f s
  | some pa => if s.listAsked d n then s else s.sendHome d 1 pa 0 [8] { num := s.fresh, req := listKey d n }

/-- A plain read by a task at a virtual address, checked as the firmware checks it for that task (R86). -/
def State.readableAs (s : State) (d task asid va : Nat) : Bool :=
  match s.xlate (.die d) asid va false with
  | .error _ => false
  | .ok ph => (s.regionCheck d ph task asid .plain false).isNone

/-- Length of an entry in units of 32 bytes (R368). -/
def entryLen (ty : Nat) : Option Nat := if ty = 1 || ty = 2 then some 4 else if inRange 3 12 ty then some 1 else none

/-! ### Reserved bits (R368 to R374) -/

/-- Whether the bits that a word's fields do not cover are zero: the fields as pairs of high and low bit. -/
def onlyBits (w : Nat) (fs : List (Nat × Nat)) : Bool :=
  fs.foldl (fun v f => setFld v f.1 f.2 0) (w % 2 ^ 64) == 0

/-- The words of an entry, each with its fields. -/
def fieldsOk (ws : List Nat) (fs : List (List (Nat × Nat))) : Bool :=
  (List.range ws.length).all (fun i => onlyBits (ws.getD i 0) (fs.getD i []))

/-- TYPE and LEN of a header. -/
def hdrBits : List (Nat × Nat) := [(63, 56), (55, 52)]

/-- LAUNCH word 2, the box (R369). -/
def boxFields : List (Nat × Nat) := [(21, 20), (19, 15), (14, 10), (9, 8), (7, 6), (5, 3), (2, 0)]

/-- Bits of the words of LAUNCH; word 2 is a virtual address in LAUNCHI. -/
def launchFields (ind : Bool) : List (List (Nat × Nat)) :=
  [hdrBits ++ [(51, 50), (47, 35), (15, 0)], [(17, 0)], if ind then [(63, 0)] else boxFields, [(56, 0)], [(63, 0)], [(63, 0)], [(63, 0)],
   [(56, 0)], [(48, 32), (17, 0)], [(17, 0)], [(63, 63), (47, 35), (15, 0)], [(63, 63), (31, 0)]]

/-- A group specification that R370 allows as such. -/
def gspecOk (g : Nat) : Bool := !bit g 14 && !bit g 11 && !(bit g 15 && fld g 13 12 = 3)

/-- The reserved values of a LAUNCH or LAUNCHI entry but those of its box. -/
def launchOk (ws : List Nat) (ind : Bool) : Bool :=
  fieldsOk ws (launchFields ind) && fld (ws.getD 8 0) 48 32 ≤ 65536 && fld (ws.getD 8 0) 16 0 % 64 = 0 && fld (ws.getD 8 0) 16 0 ≤ codeEnd
    && (List.range 4).all (fun i => gspecOk (el 16 (ws.getD 5 0) i))

/-- The reserved values of the other entries. -/
def entryOk (ty : Nat) (ws : List Nat) : Bool :=
  let w := ws.headD 0
  match ty with
  | 3 => fieldsOk ws [hdrBits ++ [(51, 50)], [(63, 0)], [(63, 0)], [(63, 0)]] && fld w 51 50 != 3
  | 4 => fieldsOk ws [hdrBits ++ [(51, 50)], if fld w 51 50 = 2 then [(31, 0)] else [(63, 0)], [(63, 0)]] && fld w 51 50 != 3
      && (fld w 51 50 != 2 || inRange 1 (2 ^ 32 - 1) (ws.getD 2 0))
  | 5 => fieldsOk ws [hdrBits ++ [(51, 50), (15, 0)], [(63, 0)], [(63, 0)], [(63, 0)]] && fld w 51 50 != 3
  | 6 | 7 => fieldsOk ws [hdrBits, [(63, 0)]]
  | 9 => fieldsOk ws [hdrBits ++ [(31, 0)], [(63, 0)]] && fld w 31 0 != 0
  | 10 => fieldsOk ws [hdrBits ++ [(51, 49), (48, 38)], [(56, 0)], [(63, 0)]] && fld w 51 49 ≤ 2
      && (if fld w 51 49 = 2 then selectorOk (ws.getD 2 0) else ws.getD 2 0 < 2 ^ 32)
  | _ => fieldsOk ws [hdrBits]

/-! ### Launches (R369 to R371) -/

/-- A task of a box: launch index, die, its index on the die, logical core. -/
structure BoxTask where
  g : Nat
  die : Nat
  j : Nat
  cl : Nat
  core : Nat
deriving DecidableEq, Repr

/-- The tasks of a box in launch order. -/
def boxTasks (b : Nat) : List BoxTask :=
  let nc := fld b 9 8 + 1 - fld b 7 6
  let nk := fld b 19 15 + 1 - fld b 14 10
  let t := fld b 21 20 + 1
  let nd := fld b 5 3 + 1 - fld b 2 0
  (List.range (nd * nc * nk * t)).map (fun g =>
    let j := g % (nc * nk * t)
    ⟨g, fld b 2 0 + g / (nc * nk * t), j, fld b 7 6 + j / (nk * t), fld b 14 10 + j / t % nk⟩)

/-- The box's fields in their order (R375 error 7). -/
def boxBad (b : Nat) : Bool := fld b 5 3 < fld b 2 0 || fld b 9 8 < fld b 7 6 || fld b 19 15 < fld b 14 10 || 23 < fld b 19 15

/-- Identifier of a task (R376). -/
def taskId (gen die slot : Nat) : Nat := gen * 2 ^ 19 + die * 2 ^ 16 + slot

/-- Logical core of a box task. -/
def BoxTask.lcore (t : BoxTask) : Nat := t.die * 96 + t.cl * 24 + t.core

/-- The group that specification `sp` gives a task of box `b` (R370). -/
def BoxTask.gid (t : BoxTask) (b sp : Nat) : Nat :=
  let nk := fld b 19 15 + 1 - fld b 14 10
  match fld sp 13 12 with
  | 0 => fld sp 7 0
  | 1 => fld sp 7 0 + (t.cl - fld b 7 6)
  | _ => fld sp 7 0 + (t.cl - fld b 7 6) * nk / 2 + (t.core - fld b 14 10) / 2

/-- Identifier of a box task under a LAUNCH header. -/
def BoxTask.id (t : BoxTask) (w0 : Nat) : Nat := taskId (fld w0 47 35) t.die (fld w0 15 0 + t.j)

/-- The valid specifications with their membership slots. -/
def gspecs (w5 : Nat) : List (Nat × Nat) := ((List.range 4).map (fun i => (i, el 16 w5 i))).filter (fun t => bit t.2 15)

/-- GIDs that a specification needs, with the dies. -/
def specEntries (b sp : Nat) : List (Nat × Nat) := ((boxTasks b).map (fun t => (t.die, t.gid b sp))).eraseDups

/-- Whether the specifications break R370 or need an entry that is not free (R375 error 5). -/
def State.groupsBad (s : State) (b w5 : Nat) : Bool :=
  let nk := fld b 19 15 + 1 - fld b 14 10
  let es := (gspecs w5).map (fun t => specEntries b t.2)
  (gspecs w5).any (fun t => bit t.2 8 && !(fld t.2 13 12 = 2 && fld b 21 20 = 0 && nk % 2 = 0))
    || es.flatten.any (fun e => 255 < e.2 || s.hasGroup e.1 e.2) || es.flatten.eraseDups.length != es.flatten.length

/-- A counter or completion word of a list (R314, R372): logical core, offset, and its address where another package holds it. -/
def State.listAcc (s : State) (d asid ea : Nat) : Option (Nat × Nat × Option Nat) :=
  if fld ea 63 63 = 0 || fld ea 62 57 != 0 || ea % 8 != 0 then none
  else
    match s.xlate (.die d) asid (ea % 2 ^ 57) true with
    | .error _ => none
    | .ok ph =>
      if !isAccWin ph.pa then none
      else
        let o := ph.pa % 2 ^ 44 - 0x500_0000_0000
        if accSize < o % 2 ^ 21 + 8 then none
        else some (o / 2 ^ 28 * 96 + o / 2 ^ 26 % 4 * 24 + o / 2 ^ 21 % 32, o % 2 ^ 21, if s.isLocal d ph.pa then none else some ph.pa)

/-- The first check of a launch with box `b` that fails (R375). -/
def State.launchErr (s : State) (d asid b : Nat) (ws : List Nat) : Option Nat :=
  let w (i : Nat) := ws.getD i 0
  if boxBad b then some 7
  else
    let ts := boxTasks b
    let id0 := taskId (fld (w 0) 47 35) (fld b 2 0) (fld (w 0) 15 0)
    if fld (w 0) 47 35 = 0 || ts.any (fun t => 65535 < fld (w 0) 15 0 + t.j || (bit (w 10) 63 && 65535 < fld (w 10) 15 0 + t.j)) || ts.any (fun t => (s.task (t.id (w 0))).state != 0) then some 4
    else if s.groupsBad b (w 5) then some 5
    else if ts.any (fun t => !s.readableAs d (t.id (w 0)) asid (w 3 + t.g * fld (w 4) 31 0)) then some 3
    else if w 6 != 0 && (s.listAcc d asid (w 6)).isNone then some 3
    else if w 7 != 0 && (List.range (fld (w 8) 16 0)).any (fun i => i % 64 = 0 &&
        !(s.readableAs d id0 asid (w 7 + i) && s.readableAs d id0 asid (w 7 + i + 63))) then some 3
    else none

/-- The record of a task of a launch (R369, R377). -/
def launchTask (asid b launch : Nat) (ws : List Nat) (t : BoxTask) : Task :=
  let w (i : Nat) := ws.getD i 0
  { entry := fld (w 1) 17 0, arg := w 3 + t.g * fld (w 4) 31 0, state := 1, prio := fld (w 0) 51 50, asid := asid, id := t.id (w 0), gidx := t.g,
    dep := fld (w 4) 63 32, lockq := fld (w 8) 48 32, lcore := t.lcore,
    gv := (gspecs (w 5)).map (fun g => (g.1, true)), gid := (gspecs (w 5)).map (fun g => (g.1, t.gid b g.2)),
    dept0 := if bit (w 10) 63 then taskId (fld (w 10) 47 35) t.die (fld (w 10) 15 0 + t.j) else 0,
    dept1 := if bit (w 11) 63 then fld (w 11) 31 0 else 0,
    trapvec := fld (w 9) 17 0, done := w 6, save := Config.saveArea (t.id (w 0)), launch := launch }

/-- The members of a specification's group: of all tasks where the specification makes one group, else those of one logical cluster or pair,
which lies on one die. -/
def specMembers (b sp die gid : Nat) : List BoxTask :=
  (boxTasks b).filter (fun t => t.gid b sp == gid && (fld sp 13 12 == 0 || t.die == die))

/-- A specification's group as its entry on a die starts (R370, R382). -/
def specGroup (b sp die gid : Nat) : Group :=
  let ms := specMembers b sp die gid
  let dies := ms.foldl (fun l t => NatSet.insert l t.die) []
  { v := true, pair := bit sp 8, mcast := bit sp 9, gang := bit sp 10, xdie := dies.length != 1, nmem := ms.length, dies := dies }

/-- The entries of a specification's groups on every die that holds a member (R370, R382). -/
def State.putSpec (s : State) (b sp : Nat) : State :=
  (specEntries b sp).foldl (fun s e => s.modDie e.1 (fun x => { x with groups := Tbl.put x.groups e.2 (specGroup b sp e.1 e.2) })) s

/-- Addresses of the words of a launch's image. -/
def imageVas (w7 len : Nat) : List Nat := if w7 = 0 then [] else (List.range (ceilDiv (w7 % 8 + len) 8)).map (fun i => w7 / 8 * 8 + 8 * i)

/-- Word `i` of an image that a list has at hand, with its poison; an image need not be aligned. -/
def State.imageWord (s : State) (d n img i : Nat) : Nat × Bool :=
  let l := (List.range 8).map (fun k => match s.xlate (.die d) (s.sub d n).asid (img + 8 * i + k) false with
    | .ok ph => (s.bytesHere d (listKey d n) ph.pa 0 s.fresh 1, s.poisHere d (listKey d n) ph.pa 0 s.fresh)
    | .error _ => (0, false))
  (ofBytes (l.map (fun t => t.1)), l.any (fun t => t.2))

/-- The image of a launch in one bank of one logical core (R369 step 6). Poison goes with it. -/
def State.copyImage (s : State) (d n img bank len l : Nat) : State :=
  (List.range (len / 16)).foldl (fun s i =>
    let a := s.imageWord d n img (2 * i)
    let b := s.imageWord d n img (2 * i + 1)
    let bytes := spread (bank * 2 ^ 17 + 16 * i) 16 (a.1 + 2 ^ 64 * b.1)
    s.modLcore l (fun c => { c with code := if a.2 || b.2 then c.code.storePois bytes else c.code.store bytes })) s

/-- A launch (R369). -/
def State.doLaunch (s : State) (d n asid b : Nat) (ws : List Nat) : State :=
  let w (i : Nat) := ws.getD i 0
  let ts := boxTasks b
  let id := s.fresh
  let s := s.bump
  let s := ts.foldl (fun s t => s.setTask (t.id (w 0)) (launchTask asid b id ws t)) s
  let s := (gspecs (w 5)).foldl (fun s g => s.putSpec b g.2) s
  let s := if w 7 = 0 then s else ((ts.map BoxTask.lcore).eraseDups).foldl (fun s l => s.copyImage d n (w 7) (fld (w 8) 17 17) (fld (w 8) 16 0) l) s
  let s := if fld (w 4) 63 32 = 0 then ts.foldl (fun s t => s.makeReady (t.id (w 0))) s else s
  let l : Launch := ⟨id, d, n, ts.map (fun (t : BoxTask) => t.id (w 0)), w 6, asid, none⟩
  let s : State := { s with launches := s.launches ++ [l] }
  (s.listTo d n ((s.sub d n).pc + 128)).modSub d n (fun u => { u with launches := u.launches ++ [id] })

/-- The box of LAUNCHI, or the error of its word (R371, R375). -/
def State.boxWord (s : State) (d n : Nat) (ws : List Nat) : Except Nat Nat :=
  match s.listRead d n (ws.getD 2 0) with
  | none => .error 3
  | some b =>
    if !s.readableAs d (taskId (fld (ws.headD 0) 47 35) (fld b 2 0) (fld (ws.headD 0) 15 0)) (s.sub d n).asid (ws.getD 2 0) then .error 3
    else if !onlyBits b boxFields then .error 2
    else .ok b

/-- LAUNCH and LAUNCHI. -/
def State.entryLaunch (s : State) (d n : Nat) (ws : List Nat) (ind : Bool) : State :=
  let asid := (s.sub d n).asid
  if !launchOk ws ind then s.listFail d n 2
  else
    s.listGet d n (if ind then [ws.getD 2 0] else []) (fun s =>
      match (if ind then s.boxWord d n ws else .ok (ws.getD 2 0)) with
      | .error c => s.listFail d n c
      | .ok b =>
        match s.launchErr d asid b ws with
        | some c => s.listFail d n c
        | none => s.listGet d n (imageVas (ws.getD 7 0) (fld (ws.getD 8 0) 16 0)) (fun s => s.doLaunch d n asid b ws))

/-! ### Counter words (R372) -/

/-- An integer atomic of the list on its counter word: operation 0 adds, 3 sets; `f` goes on with the old value. A word of another
package is asked for, and its answer awaited. -/
def State.listAtom (s : State) (d n ea op b : Nat) (f : Nat → State → State) : State :=
  let u := s.sub d n
  match s.listAcc d u.asid ea with
  | none => s.listFail d n 3
  | some (l, o, none) =>
    match (s.lcore l).atom o op 64 true b 0 with
    | none => s.listFail d n 3
    | some (old, c) => f old (s.setLcore l c)
  | some (_, _, some pa) =>
    match u.got with
    | some (v, p) =>
      let s := s.modSub d n (fun u => { u with got := none })
      if p then s.listFail d n 3 else f v s
    | none =>
      if u.waitRef.isSome then s
      else ((s.modSub d n (fun u => { u with waitRef := some s.fresh })).bump).sendHome d 7 pa 0 [b, 0, op + 3 * 16 + u.asid * 64] { num := s.fresh, ref := s.fresh }

/-- (word and MASK) COND VALUE. -/
def counterHolds (cond w value mask : Nat) : Bool :=
  let x := w &&& mask
  if cond = 0 then value ≤ x else if cond = 1 then x == value else x != value

/-- WAITC: it goes on where the condition holds. -/
def State.entryWait (s : State) (d n : Nat) (ws : List Nat) : State :=
  s.listAtom d n (ws.getD 1 0) 0 0 (fun w s =>
    if counterHolds (fld (ws.headD 0) 51 50) w (ws.getD 2 0) (ws.getD 3 0) then s.listTo d n ((s.sub d n).pc + 32) else s)

/-- SKIPIF: the entries to pass over are counted, and then passed one after the other. -/
def State.entrySkip (s : State) (d n : Nat) (ws : List Nat) : State :=
  s.listAtom d n (ws.getD 1 0) 0 0 (fun w s =>
    let h := counterHolds (fld (ws.headD 0) 51 50) w (ws.getD 2 0) (ws.getD 3 0)
    (s.listTo d n ((s.sub d n).pc + 32)).modSub d n (fun u => { u with skip := if h then fld (ws.headD 0) 15 0 else 0 }))

/-- An entry is passed over; it is as long as its header says. -/
def State.passEntry (s : State) (d n w : Nat) : State :=
  (s.listTo d n ((s.sub d n).pc + 32 * fld w 55 52)).modSub d n (fun u => { u with skip := u.skip - 1 })

/-- Whether a die owes a flush for the ASID of a list (R394). -/
def State.listOwed (s : State) (asid : Nat) : Bool := s.dies.any (fun d => s.flushOwed d.1 (fun t => t.asid == asid))

/-- SIGNAL, after the flushes that are owed for its ASID (R372, R378, R394). -/
def State.entrySignal (s : State) (d n : Nat) (ws : List Nat) : State :=
  let go (s : State) : State := s.listTo d n ((s.sub d n).pc + 32)
  if s.listOwed (s.sub d n).asid then s else
  match fld (ws.headD 0) 51 50 with
  | 0 => s.listAtom d n (ws.getD 1 0) 0 (ws.getD 2 0) (fun _ s => go s)
  | 1 => s.listAtom d n (ws.getD 1 0) 3 (ws.getD 2 0) (fun _ s => go s)
  | _ => go (s.decTask d (ws.getD 1 0) (ws.getD 2 0)).2

/-! ### Flow (R373) -/

/-- JUMP. -/
def State.entryJump (s : State) (d n : Nat) (ws : List Nat) : State :=
  if ws.getD 1 0 % 32 != 0 then s.listFail d n 3 else s.listTo d n (ws.getD 1 0)

/-- CALL. -/
def State.entryCall (s : State) (d n : Nat) (ws : List Nat) : State :=
  let u := s.sub d n
  if ws.getD 1 0 % 32 != 0 then s.listFail d n 3
  else if 8 ≤ u.calls.length then s.listFail d n 6
  else (s.listTo d n (ws.getD 1 0)).modSub d n (fun k => { k with calls := (u.pc + 32) :: u.calls })

/-- RET. -/
def State.entryRet (s : State) (d n : Nat) : State :=
  match (s.sub d n).calls with
  | [] => s.listDone d n
  | a :: l => (s.listTo d n a).modSub d n (fun u => { u with calls := l })

/-- LOOP. -/
def State.entryLoop (s : State) (d n : Nat) (ws : List Nat) : State :=
  let u := s.sub d n
  let top := u.loops.head?.map (fun t => t.1) == some u.pc
  if ws.getD 1 0 % 32 != 0 then s.listFail d n 3
  else if !top && 4 ≤ u.loops.length then s.listFail d n 6
  else
    match (if top then u.loops else (u.pc, fld (ws.headD 0) 31 0 - 1) :: u.loops) with
    | [] => s
    | (a, k) :: l =>
      if 0 < k then (s.listTo d n (ws.getD 1 0)).modSub d n (fun u => { u with loops := (a, k - 1) :: l })
      else (s.listTo d n (u.pc + 32)).modSub d n (fun u => { u with loops := l })

/-! ### Regions and flushes (R107, R374, R394) -/

/-- What the firmware's transfer of one region meets. A REMOTE region that the list does not hold has error 8 (DESIGN CHOICE, log 73), and the
HDM carve-out stays the firmware's (R465). -/
def State.listRegionErr (s : State) (d asid va : Nat) : Option Nat :=
  match s.xlate (.die d) asid va false with
  | .error _ => some 3
  | .ok ph =>
    let r := s.region ph.pa
    if isAccWin ph.pa then some 3
    else if r.st = 3 then some 8
    else if !s.inHdm ph.pa && (r.asid = asid || (r.owner = 0 && r.st = 0)) then none
    else some 3

/-- A region passes to a task's ASID (R107). -/
def State.listRegion (s : State) (d asid newst xb va : Nat) : State :=
  match s.xlate (.die d) asid va false with
  | .error _ => s
  | .ok ph => (s.setRegion ph.pa { xferEntry (s.region ph.pa) newst 0 xb with asid := asid }).dropLines (ph.pa / 2 ^ 21 * 2 ^ 21) (2 ^ 21)

/-- XFER. -/
def State.entryXfer (s : State) (d n : Nat) (ws : List Nat) : State :=
  let asid := (s.sub d n).asid
  let newst := fld (ws.headD 0) 51 49
  let xb := ws.getD 2 0
  let vas := regionVas (ws.getD 1 0) (fld (ws.headD 0) 48 38 + 1)
  if ws.getD 1 0 % 2 ^ 21 != 0 then s.listFail d n 3
  else
    match vas.findSome? (s.listRegionErr d asid) with
    | some c => s.listFail d n c
    | none => (vas.foldl (fun s v => s.listRegion d asid newst xb v) s).listTo d n ((s.sub d n).pc + 32)

/-- Whether every launch that the list made has completed. -/
def State.listLaunched (s : State) (d n : Nat) : Bool := (s.sub d n).launches.all (fun l => s.launches.all (fun k => k.id != l))

/-- FLUSH: every flush that is owed for the list's ASID is performed (R394). -/
def State.entryFlush (s : State) (d n : Nat) : State := if s.listOwed (s.sub d n).asid then s else s.listTo d n ((s.sub d n).pc + 32)

/-- FENCE: the launches of the list have completed, and then as FLUSH. -/
def State.entryFence (s : State) (d n : Nat) : State := if s.listLaunched d n then s.entryFlush d n else s

/-! ### Processing an entry -/

/-- Addresses of the words of an entry with header `w`. -/
def entryVas (pc w : Nat) : List Nat := (List.range (4 * fld w 55 52)).map (fun i => pc + 8 * i)

/-- An entry of a known TYPE and LEN whose words are at hand (R375). -/
def State.runEntry (s : State) (d n w : Nat) : State :=
  match s.listWords d n (s.sub d n).pc (4 * fld w 55 52) with
  | none => s.listFail d n 3
  | some ws =>
    let ty := fld w 63 56
    if ty = 1 then s.entryLaunch d n ws false
    else if ty = 2 then s.entryLaunch d n ws true
    else if !entryOk ty ws then s.listFail d n 2
    else
      match ty with
      | 3 => s.entryWait d n ws
      | 4 => s.entrySignal d n ws
      | 5 => s.entrySkip d n ws
      | 6 => s.entryJump d n ws
      | 7 => s.entryCall d n ws
      | 8 => s.entryRet d n
      | 9 => s.entryLoop d n ws
      | 10 => s.entryXfer d n ws
      | 11 => s.entryFlush d n
      | _ => s.entryFence d n

/-- The entry of a list is processed, or tried, or passed over (R367, R372, R375). -/
def State.stepList (s : State) (d n : Nat) : State :=
  let u := s.sub d n
  if !u.busy then s
  else
    s.listGet d n [u.pc] (fun s =>
      match s.listRead d n u.pc with
      | none => s.listFail d n 3
      | some w =>
        if entryLen (fld w 63 56) != some (fld w 55 52) then s.listFail d n 1
        else if 0 < u.skip then s.passEntry d n w
        else s.listGet d n (entryVas u.pc w) (fun s => s.runEntry d n w))

/-- The header of the entry that a list processes, where it has it at hand. -/
def State.listHead (s : State) (d n : Nat) : Option Nat :=
  let u := s.sub d n
  if u.busy && u.skip = 0 && (s.listGap d n [u.pc]).isNone then s.listRead d n u.pc else none

/-- The list's entry is of TYPE `ty`. -/
def State.listAt (s : State) (d n ty : Nat) : Bool := (s.listHead d n).map (fun w => fld w 63 56) == some ty

/-- A SIGNAL entry's OP. -/
def State.listOp (s : State) (d n op : Nat) : Bool := s.listAt d n 4 && (s.listHead d n).map (fun w => fld w 51 50) == some op

/-- Whether the counter word that a WAITC entry names stops it now: read on this package without its condition, or asked for. -/
def State.waitBlocked (s : State) (d n : Nat) : Bool :=
  let u := s.sub d n
  match s.listWords d n u.pc 4 with
  | none => false
  | some ws =>
    match s.listAcc d u.asid (ws.getD 1 0) with
    | some (l, o, none) => entryOk 3 ws && !(s.lcore l).acc.isPois o
        && !counterHolds (fld (ws.headD 0) 51 50) ((s.lcore l).acc.mem.readN o 8) (ws.getD 2 0) (ws.getD 3 0)
    | _ => false

/-- Whether a list has something to do now. -/
def State.listReady (s : State) (d n : Nat) : Bool :=
  let u := s.sub d n
  u.busy && u.waitRef.isNone && !s.listAsked d n && !(s.listAt d n 3 && s.waitBlocked d n) && !(s.listAt d n 12 && !s.listLaunched d n)
    && !((s.listAt d n 4 || s.listAt d n 11 || s.listAt d n 12) && s.listOwed u.asid)

/-! ### The entries as events -/

/-- A LAUNCH entry (R369). -/
def execLaunch (d n : Nat) (s : State) : Host.Outcome State Fault Refusal := .next (if s.listAt d n 1 then s.stepList d n else s)

/-- A LAUNCHI entry (R371). -/
def execLaunchi (d n : Nat) (s : State) : Host.Outcome State Fault Refusal := .next (if s.listAt d n 2 then s.stepList d n else s)

/-- A WAITC entry reads its word (R372). -/
def execWaitc (d n : Nat) (s : State) : Host.Outcome State Fault Refusal := .next (if s.listAt d n 3 then s.stepList d n else s)

/-- The awaited condition is observed (R372). -/
def execWaitcObserved (d n : Nat) (s : State) : Host.Outcome State Fault Refusal :=
  .next (if s.listAt d n 3 && !s.waitBlocked d n then s.stepList d n else s)

/-- A SIGNAL entry that adds (R372). -/
def execSignalAdd (d n : Nat) (s : State) : Host.Outcome State Fault Refusal := .next (if s.listOp d n 0 then s.stepList d n else s)

/-- A SIGNAL entry that sets (R372). -/
def execSignalSet (d n : Nat) (s : State) : Host.Outcome State Fault Refusal := .next (if s.listOp d n 1 then s.stepList d n else s)

/-- A SIGNAL entry that decrements a task's counter (R372, R378). -/
def execSignalTdec (d n : Nat) (s : State) : Host.Outcome State Fault Refusal := .next (if s.listOp d n 2 then s.stepList d n else s)

/-- A SKIPIF entry (R372). -/
def execSkipif (d n : Nat) (s : State) : Host.Outcome State Fault Refusal := .next (if s.listAt d n 5 then s.stepList d n else s)

/-- A JUMP entry (R373). -/
def execListJump (d n : Nat) (s : State) : Host.Outcome State Fault Refusal := .next (if s.listAt d n 6 then s.stepList d n else s)

/-- A CALL entry (R373). -/
def execListCall (d n : Nat) (s : State) : Host.Outcome State Fault Refusal := .next (if s.listAt d n 7 then s.stepList d n else s)

/-- A RET entry (R373). -/
def execListRet (d n : Nat) (s : State) : Host.Outcome State Fault Refusal := .next (if s.listAt d n 8 then s.stepList d n else s)

/-- A LOOP entry (R373). -/
def execListLoop (d n : Nat) (s : State) : Host.Outcome State Fault Refusal := .next (if s.listAt d n 9 then s.stepList d n else s)

/-- An XFER entry (R374). -/
def execListXfer (d n : Nat) (s : State) : Host.Outcome State Fault Refusal := .next (if s.listAt d n 10 then s.stepList d n else s)

/-- A FLUSH entry (R368, R394). -/
def execListFlush (d n : Nat) (s : State) : Host.Outcome State Fault Refusal := .next (if s.listAt d n 11 then s.stepList d n else s)

/-- A FENCE entry (R368). -/
def execListFence (d n : Nat) (s : State) : Host.Outcome State Fault Refusal := .next (if s.listAt d n 12 then s.stepList d n else s)

/-! ### Submission (R468) -/

/-- A write of GO. -/
def State.submit (s : State) (d n : Nat) : State :=
  let u := s.sub d n
  if u.busy then (s.modSub d n (fun u => { u with fail := true, code := 9 })).raiseSub d n
  else if !(s.die d).ready then (s.modSub d n (fun u => { u with fail := true, code := 10 })).raiseSub d n
  else (s.listTo d n u.addr).modSub d n (fun u =>
    { u with busy := true, done := false, fail := false, code := 0, calls := [], loops := [], launches := [], waitRef := none, got := none
             skip := 0 })

/-- GO of slot n of die d is written (R468). -/
def execSubmitGo (d n : Nat) (s : State) : Host.Outcome State Fault Refusal := .next (s.submit d n)

end Sys2Proof.Machine
end

