-- ==== Sys2Proof/Machine/Debug.lean ====
section
/-! DEFINITION. What the firmware does through registers, and what checks of the parts find: memory errors, the black-box mirror, the
carve-out, translation control, saving of domains, stops, reading state back, plain register writes (R11, R12, R76, R83, R84, R337
to R339, R424, R452, R466, R480, R481, R486 to R489). -/

namespace Sys2Proof.Machine

/-! ### Errors (R488 to R490) -/

/-- Key of a counter of a die: structure code and unit, a core's number within its die or 0 (R489). -/
def errKey (code unit : Nat) : Nat := code * 2 ^ 10 + unit

/-- A 32-bit saturating count. -/
def countUp (t : Tbl Nat) (k : Nat) : Tbl Nat := Tbl.put t k (Nat.min (2 ^ 32 - 1) (Tbl.get 0 t k + 1))

/-- Marks the granules of `n` bytes from an address as poisoned. -/
def Bank.taint (k : Bank) (a n : Nat) : Bank :=
  { k with pois := (List.range (ceilDiv (a % 16 + n) 16)).foldl (fun s i => NatSet.insert s (a / 16 + i)) k.pois }

/-- A register marked for POISON (R402, R488, R490); x0 and p0 hold their values always. -/
def Arch.taint (a : Arch) (space : ErrPlace) (n : Nat) : Arch :=
  match space with
  | .xreg => if n = 0 then a else { a with xpois := Tbl.put a.xpois n 0 }
  | .preg => if n = 0 then a else { a with ppois := Tbl.put a.ppois n 0 }
  | _ => { a with vpois := Tbl.put a.vpois n 0 }

/-- The granules or the register that an uncorrectable error marks: of global memory by physical address, where the line goes whole if the cache
die holds the error; of scratchpad and accumulator memory of logical core `unit` the granule of the byte; a register of context `unit`, four to
a core, live and in its image (R488). -/
def State.poisonAt (s : State) (code : Nat) (space : ErrPlace) (unit addr : Nat) : State :=
  match space with
  | .glob =>
    let a := if code = 4 then addr / 256 * 256 else addr / 16 * 16
    let n := if code = 4 then 256 else 16
    match s.home a with
    | .acc l o => s.modLcore l (fun c => { c with acc := c.acc.taint o n })
    | .mem _ => { s with mem := s.mem.taint a n }
    | .hole => s
  | .sp => s.modLcore unit (fun c => { c with sp := c.sp.taint (c.place .sp none (addr / 16 * 16)) 16 })
  | .acc => s.modLcore unit (fun c => { c with acc := c.acc.taint (addr / 16 * 16) 16 })
  | _ => s.modCtxAt (unit / 4) (unit % 4) (fun k => { k with arch := k.arch.taint space addr, image := k.image.taint space addr })

/-- The die and the counter's unit of an error; a mismatch of duplicate issue is its core's. -/
def errUnit (code : ErrCode) (space : ErrPlace) (unit addr : Nat) : Nat × Nat :=
  if code.code = 9 then (dieOf (code.ctx / 4), code.ctx / 4 % 96)
  else
    match space with
    | .glob => (homeDie addr, 0)
    | .sp | .acc => (dieOf unit, unit % 96)
    | _ => (dieOf (unit / 4), unit / 4 % 96)

/-- MEMORY_ERROR (R488): a corrected error is counted; an uncorrectable one poisons what it lost, is counted and recorded, a mismatch
of duplicate issue as KIND 9 with the address of its bundle (R487, R490). -/
def State.memError (s : State) (code : ErrCode) (space : ErrPlace) (unit addr : Nat) (correctable : Bool) : State :=
  let (d, u) := errUnit code space unit addr
  let n := code.code
  if correctable then s.modDie d (fun x => { x with dbg := { x.dbg with corr := countUp x.dbg.corr (errKey n u) } })
  else
    let s := s.modDie d (fun x => { x with dbg := { x.dbg with unc := countUp x.dbg.unc (errKey n u) } })
    let s := if n = 9 then s.blackBox d 9 u (u * 2 ^ 32 + code.pc % 2 ^ 18) else s.blackBox d 3 u (n * 2 ^ 56 + addr % 2 ^ 56)
    if n = 7 then s else s.poisonAt n space unit addr

/-- A detected error (R488). -/
def execMemoryError (code : ErrCode) (space : ErrPlace) (unit addr : Nat) (correctable : Bool) (s : State) : Host.Outcome State Fault Refusal :=
  .next (s.memError code space unit addr correctable)

/-! ### The black box's mirror (R487) -/

/-- The record that a slot of the ring holds. -/
def Dbg.slotRec (g : Dbg) (i : Nat) : Option (Nat × Nat × Nat × Nat × Nat) := g.bbox.find? (fun r => r.1 % 4096 == i)

/-- The four words of a record. -/
def bboxWords (r : Nat × Nat × Nat × Nat × Nat) : Nat := joinEl 64 [r.1, r.2.1 * 2 ^ 56 + r.2.2.1 % 2 ^ 16 * 2 ^ 40, r.2.2.2.1, r.2.2.2.2]

/-- The SRAM and the trailer are written to the die's mirror. -/
def State.mirror (s : State) (d : Nat) : State :=
  let x := s.die d
  let base := mirrorBase x.pkg d
  let s := s.clearPA base 0x2_1000
  let s := x.dbg.bbox.foldl (fun s r => s.storePA (spread (base + r.1 % 4096 * 32) 32 (bboxWords r)) false false) s
  s.storePA (spread (base + 0x2_0000) 8 (x.dbg.seq - 1)) false false

/-- Every millisecond (R487). -/
def execBlackboxMirror (d : Nat) (s : State) : Host.Outcome State Fault Refusal := .next (s.mirror d)

/-! ### The near-memory carve-out (R76) -/

/-- A write of NMCFG: ERR is cleared by a 1, and UNITS starts a change or is refused. -/
def State.nmcfg (s : State) (d v : Nat) : State :=
  let s := s.modDie d (fun x => { x with nmErr := x.nmErr && !bit v 30 })
  if 17 ≤ fld v 4 0 || (s.die d).tasks.any (fun t => t.2.state == 2 || t.2.state == 3) then s.modDie d (fun x => { x with nmErr := true })
  else s.modDie d (fun x => { x with nmBusy := true, nmNew := fld v 4 0 })

/-- NMCFG is written (R76). -/
def execNmcfgWrite (d v : Nat) (s : State) : Host.Outcome State Fault Refusal := .next (s.nmcfg d v)

/-- The change ends: the locks are gone, the window holds unpredictable bytes, none poisoned, BUSY clears (R76). -/
def State.carveout (s : State) (d : Nat) : State :=
  if !(s.die d).nmBusy then s
  else
    let here (a : Nat) : Bool := isNear a && a % 2 ^ 31 / 2 ^ 28 == d && s.isLocal d a
    let s := s.modDie d (fun x => { x with nmBusy := false, units := x.nmNew, locks := [] })
    { s with mem := { s.mem with mem := s.mem.mem.filter (fun t => !here t.1), pois := s.mem.pois.filter (fun g => !here (16 * g)) }
             nearGen := Tbl.put s.nearGen d (s.free + 1), free := s.free + 2 }

/-- A carve-out change completes (R76). -/
def execCarveoutComplete (d : Nat) (s : State) : Host.Outcome State Fault Refusal := .next (s.carveout d)

/-! ### Translation control (R83, R84) -/

/-- Whether a TLB entry lies in the scope of an invalidation. -/
def TlbEnt.inScope (scope asid va : Nat) (e : TlbEnt) : Bool :=
  match scope with
  | 0 => true
  | 1 => e.asid == asid
  | 2 => e.asid == asid && e.page * 2 ^ 16 / 2 ^ lvlPage e.lvl == va / 2 ^ lvlPage e.lvl
  | _ => false

/-- Entries in scope leave the TLBs of the die. -/
def State.dropXlate (s : State) (d scope asid va : Nat) : State :=
  let f (l : List TlbEnt) : List TlbEnt := l.filter (fun e => !e.inScope scope asid va)
  { s with cores := s.cores.map (fun p => if dieOf p.1 = d then (p.1, { p.2 with tlb := f p.2.tlb }) else p)
           clusters := s.clusters.map (fun c => if c.1 / 4 = d then (c.1, { c.2 with tlb := f c.2.tlb }) else c) }

/-- XLINV starts: GO reads 1 until the entries are gone, and until then an access may still use them (R81). -/
def State.xlinv (s : State) (d scope asid va : Nat) : State :=
  s.modDie d (fun x => { x with xlGo := true, xlScope := scope, xlAsid := asid, xlVa := va })

/-- XLINV of all entries (R84). -/
def execXlinvAll (d : Nat) (s : State) : Host.Outcome State Fault Refusal := .next (s.xlinv d 0 (s.die d).xlAsid (s.die d).xlVa)

/-- XLINV of one ASID (R84). -/
def execXlinvAsid (d asid : Nat) (s : State) : Host.Outcome State Fault Refusal := .next (s.xlinv d 1 asid (s.die d).xlVa)

/-- XLINV of one page (R84). -/
def execXlinvPage (d asid va : Nat) (s : State) : Host.Outcome State Fault Refusal := .next (s.xlinv d 2 asid va)

/-- Every unit has dropped what the invalidation names (R84). -/
def State.xlinvEnd (s : State) (d : Nat) : State :=
  let x := s.die d
  if x.xlGo then (s.dropXlate d x.xlScope x.xlAsid x.xlVa).modDie d (fun x => { x with xlGo := false }) else s

/-- GO of XLINV reads 0 again (R84). -/
def execXlinvDone (d : Nat) (s : State) : Host.Outcome State Fault Refusal := .next (s.xlinvEnd d)

/-- A command's wait on fault n of its die ends. -/
def wakeCmd (d n : Nat) (c : Cmd) : Cmd := if dieOf c.lcore = d && c.waitx = some n then { c with waitx := none } else c

/-- What waits on fault n of die d in a core, a cluster, a die. -/
def wakeCore (d n : Nat) (p : Nat × PCore) : Nat × PCore :=
  (p.1, { p.2 with copyQ := p.2.copyQ.map (wakeCmd d n), sieveQ := p.2.sieveQ.map (wakeCmd d n) })
def wakeCluster (d n : Nat) (p : Nat × Cluster) : Nat × Cluster := (p.1, { p.2 with gq := p.2.gq.map (wakeCmd d n) })
def wakeDie (d n : Nat) (p : Nat × Die) : Nat × Die :=
  (p.1, { p.2 with fillQ := p.2.fillQ.map (wakeCmd d n), collQ := p.2.collQ.map (wakeCmd d n), noteQ := p.2.noteQ.map (wakeCmd d n),
                   demands := p.2.demands.map (fun q => if p.1 = d && q.waitx = some n then { q with waitx := none, cmd := wakeCmd d n q.cmd } else q) })

/-- Contexts that hold a task, by core and number. -/
def State.taken (s : State) : List (Nat × Nat) :=
  (s.cores.map (fun (p : Nat × PCore) => (p.2.ctxs.filter (fun (c : Nat × Ctx) => c.2.task.isSome)).map (fun c => (p.1, c.1)))).flatten

/-- A context's streams and frame accesses that wait on fault n go on. -/
def State.wakeCtx (s : State) (d n : Nat) : State :=
  if dieOf s.lc != d then s
  else
    let s := s.modCx (fun k => { k with swait := k.swait.filter (fun t => t.2 != n) })
    if s.cx.job.isSome && s.cx.jobIdx = some n then s.resumeJob else s

/-- XLRESUME (R83): what waits on entry n walks again. -/
def State.xlresume (s : State) (d n : Nat) : State :=
  let s : State := { s with cores := s.cores.map (wakeCore d n), clusters := s.clusters.map (wakeCluster d n), dies := s.dies.map (wakeDie d n) }
  s.taken.foldl (fun s k => s.within k.1 k.2 (fun s => s.wakeCtx d n)) s

/-- Index n is written to XLRESUME (R83). -/
def execXlresume (d n : Nat) (s : State) : Host.Outcome State Fault Refusal := .next (s.xlresume d n)

/-! ### Saving a domain (R337 to R339) -/

/-- The logical core whose domains the block of a physical core names: the lowest that it hosts (log 34). -/
def State.blockCore (s : State) (p : Nat) : Nat := ((List.range 24).find? (fun i => s.hostOf (p / 24 * 24 + i) == p)).elim p (fun i => p / 24 * 24 + i)

/-- The save area of a domain, as items (R339). -/
def domItems (d : Dom) (td : Nat) (held : List Part) : List Item :=
  [(0x000, 8, d.owner * 2 ^ 32 + d.asid * 2 ^ 16 + td), (0x008, 8, d.count * 2 ^ 32 + d.base),
   (0x010, 8, b2n d.invalid * 2 ^ 42 + b2n d.overflow * 2 ^ 41 + b2n d.gapev * 2 ^ 40 + d.pend * 2 ^ 32 + d.next % 2 ^ 32),
   (0x018, 8, d.skip), (0x020, 8, d.nmask), (0x028, 8, d.ndone), (0x030, 8, d.applied), (0x038, 8, d.skipped * 2 ^ 32 + d.dup),
   (0x040, 8, d.timer % 2 ^ 32 * 2 ^ 32 + d.win)]
  ++ (held.zipIdx.map (fun t =>
        let p := t.1
        let o := 0x080 + 80 * t.2
        [(o, 8, p.ticket * 2 ^ 32 + p.op * 2 ^ 30 + p.lane0 * 2 ^ 24 + p.off), (o + 8, 8, p.mask), (o + 16, 64, joinEl 32 p.payloads)])).flatten

/-- Held parts of a domain. -/
def LCore.heldOf (c : LCore) (td : Nat) : List Part := c.parts.filter (fun p => p.td == td)

/-- A save begins, or is refused. -/
def State.accSave (s : State) (p td : Nat) : State :=
  let l := s.blockCore p
  let d := (s.lcore l).dom td
  let s := s.modCore p (fun c => { c with accsvAct := 1, accsvTd := td })
  if d.state = 1 then
    (s.modLcore l (fun c => c.setDom td { d with state := 2 })).modCore p (fun c => { c with accsvGo := true })
  else s.modCore p (fun c => { c with accsvErr := true, accsvGo := false })

/-- ACCSVCTL with ACT = save (R338). -/
def execAccsvSave (p td : Nat) (s : State) : Host.Outcome State Fault Refusal := .next (s.accSave p td)

/-- The area is written, the domain's entries are free, and the domain is SAVED (R338). -/
def State.domSaved (s : State) (p : Nat) : State :=
  let c := s.core p
  let l := s.blockCore p
  let d := (s.lcore l).dom c.accsvTd
  if c.accsvGo && c.accsvAct = 1 && d.state = 2 then
    let area := c.accsvAddr / 2 ^ 12 * 2 ^ 12
    let items := domItems d c.accsvTd ((s.lcore l).heldOf c.accsvTd)
    let s := items.foldl (fun s t => s.storePA (spread (area + t.1) t.2.1 t.2.2) false false) (s.clearPA area 4096)
    (s.modLcore l (fun k => { k with parts := k.parts.filter (fun (q : Part) => q.td != c.accsvTd) }.setDom c.accsvTd { d with state := 3, pend := 0 })).modCore p
      (fun c => { c with accsvGo := false })
  else s

/-- A domain's save completes (R338). -/
def execDomainSaveDone (p : Nat) (s : State) : Host.Outcome State Fault Refusal := .next (s.domSaved p)

/-- The domain that a save area holds. NEXT of a domain that is DONE at 2^32 has lost its bit 32 there: it lies below BASE (R338). -/
def State.areaDom (s : State) (a : Nat) : Dom :=
  let w (o : Nat) := s.readPAn (a + o) 8
  let next := fld (w 0x10) 31 0
  { state := 1, owner := fld (w 0) 63 32, asid := fld (w 0) 27 16, count := fld (w 8) 63 32, base := fld (w 8) 31 0
    invalid := bit (w 0x10) 42, overflow := bit (w 0x10) 41, gapev := bit (w 0x10) 40, pend := fld (w 0x10) 37 32, next := if next < fld (w 8) 31 0 then next + 2 ^ 32 else next
    skip := w 0x18, nmask := w 0x20, ndone := w 0x28, applied := w 0x30, skipped := fld (w 0x38) 63 32, dup := fld (w 0x38) 31 0
    timer := fld (w 0x40) 63 32, win := fld (w 0x40) 31 0, opened := true }

/-- The held parts that a save area holds. -/
def State.areaParts (s : State) (a l : Nat) : List Part :=
  let d := s.areaDom a
  (List.range d.pend).map (fun e =>
    let o := a + 0x080 + 80 * e
    let w := s.readPAn o 8
    { td := fld (s.readPAn a 8) 5 0, ticket := fld w 63 32, op := fld w 31 30, mask := s.readPAn (o + 8) 8, lane0 := fld w 29 24, off := fld w 20 0
      pay := (List.range 16).map (fun j => s.readPAn (o + 16 + 4 * j) 4), asid := d.asid, lcore := l, pcore := s.hostOf l, task := 0, addr := fld w 20 0 })

/-- Whether every reserved field of a save area is zero. -/
def State.areaClean (s : State) (a : Nat) : Bool :=
  let n := (s.areaDom a).pend
  onlyBits (s.readPAn a 8) [(63, 32), (27, 16), (5, 0)] && onlyBits (s.readPAn (a + 0x10) 8) [(42, 40), (37, 0)]
    && (List.range 7).all (fun i => s.readPAn (a + 0x48 + 8 * i) 8 == 0)
    && (List.range n).all (fun e => fld (s.readPAn (a + 0x080 + 80 * e) 8) 23 21 == 0)
    && (List.range 496).all (fun i => i < 10 * n || s.readPAn (a + 0x080 + 8 * i) 8 == 0)

/-- ACCSVCTL with ACT = restore: the domain goes on as saved, or the restore is refused. -/
def State.accRestore (s : State) (p td : Nat) : State :=
  let l := s.blockCore p
  let d := (s.lcore l).dom td
  let s := s.modCore p (fun c => { c with accsvAct := 2, accsvTd := td, accsvGo := false })
  let a := (s.core p).accsvAddr / 2 ^ 12 * 2 ^ 12
  let n := (s.areaDom a).pend
  if (d.state = 0 || d.state = 3) && n ≤ 48 && s.areaClean a && fld (s.readPAn a 8) 5 0 = td then
    s.modLcore l (fun k => { k with parts := k.parts.filter (fun (q : Part) => q.td != td) ++ s.areaParts a l }.setDom td (s.areaDom a))
  else s.modCore p (fun c => { c with accsvErr := true })

/-- ACCSVCTL with ACT = restore (R338). -/
def execAccsvRestore (p td : Nat) (s : State) : Host.Outcome State Fault Refusal := .next (s.accRestore p td)

/-! ### Stops (R481, R482) -/

/-- A context stops at its boundary; nothing commits. -/
def State.stopCtx (s : State) (p c : Nat) : State :=
  let was := (s.ctxAt p c).stopped
  let s := s.modCtxAt p c (fun k => { k with stop := true, stopped := true })
  if was then s else s.within p c (fun s => s.traceRec 4 (s.nextHeader s.ar.pc) s.cyc (s.elw (dieOf p)).gtime)

/-- STOP of a context is set (R481). -/
def execDbgStop (p c : Nat) (s : State) : Host.Outcome State Fault Refusal := .next (s.stopCtx p c)

/-- A stopped context goes on. -/
def State.unstopCtx (s : State) (p c : Nat) : State :=
  let was := (s.ctxAt p c).stopped
  let s := s.modCtxAt p c (fun k => { k with stop := false, stopped := false })
  if was then s.within p c (fun s => s.traceRec 5 (s.nextHeader s.ar.pc) s.cyc (s.elw (dieOf p)).gtime) else s

/-- STOP of a context is cleared (R481). -/
def execDbgUnstop (p c : Nat) (s : State) : Host.Outcome State Fault Refusal := .next (s.unstopCtx p c)

/-! ### Reading state back (R486) -/

/-- What a read of a space finds: nothing there, contents whose place the manual does not give, or a value. -/
inductive Peek where
  | undef
  | unstated
  | val (v : Nat)
deriving DecidableEq, Repr

/-- The 8 bytes at an offset of a list of items. -/
def itemsWord (l : List Item) (o : Nat) : Nat :=
  ofBytes ((List.range 8).map (fun i => (l.find? (fun t => t.1 ≤ o + i && o + i < t.1 + t.2.1)).elim 0 (fun t => t.2.2 / 2 ^ (8 * (o + i - t.1)) % 256)))

/-- Context state in the frame layout; of a running context the word at offset 0 alone, with VALID = 0. -/
def State.peekCtx (s : State) (p c o : Nat) : Peek :=
  let k := s.ctxAt p c
  if k.stopped = false then if o = 0 then .val 0 else .undef
  else if frameSize ≤ o then .undef
  else
    let v : State := { s with cur := p, ctx := c }
    let t := k.saveTrap
    let f : FrameInfo := ⟨k.inh, k.trpend.isSome, false, t, (t.bind (fun t => t.pc)).getD 0, (t.map (fun t => t.ncyc)).getD 0,
      (t.map (fun t => t.nb)).getD 0, k.arch.pc, c, k.ckexp, k.ckimp, k.held ++ k.post.filter (fun o => o.cmd.isSome && o.slot == 9),
      k.post.filter (fun o => !(o.cmd.isSome && o.slot == 9))⟩
    .val (itemsWord (v.frameItems k.arch f) o)

/-- FULL and POISON of a granule. -/
def Bank.mark (k : Bank) (a : Nat) : Nat := b2n (!NatSet.mem k.empty (a / 16)) + 2 * b2n (k.isPois a)

/-- A byte of space 4: granules of scratchpad, of accumulator memory, then tags. -/
def LCore.markByte (c : LCore) (i : Nat) : Nat :=
  if i < spSize / 16 then c.sp.mark (c.place .sp none (16 * i))
  else if i < spSize / 16 + accSize / 16 then c.acc.mark (16 * (i - spSize / 16))
  else c.tagOf (2048 * (i - spSize / 16 - accSize / 16)) % 8

/-- A byte of space 6: permutation memory, transpose tile, instruction banks. -/
def LCore.miscByte (c : LCore) (i : Nat) : Nat :=
  if i < 8192 then c.permEnt (i / 2) / 2 ^ (8 * (i % 2)) % 256
  else if i < 8192 + 16384 then Tbl.get 0 c.ttile ((i - 8192) / 4) / 2 ^ (8 * (i % 4)) % 256
  else
    let j := i - 8192 - 16384
    (c.code.mem.read (j / codeEnd * 2 ^ 17 + j % codeEnd)).toNat

/-- Eight bytes. -/
def byteWord (f : Nat → Nat) (o : Nat) : Nat := ofBytes ((List.range 8).map (fun i => f (o + i)))

/-- A word of a task record (R377). -/
def Task.word (t : Task) (i : Nat) : Nat :=
  match i with
  | 0 => t.entry
  | 1 => t.arg
  | 2 => t.state * 2 ^ 56 + t.prio * 2 ^ 48 + t.asid * 2 ^ 32 + t.id
  | 3 => t.gidx * 2 ^ 32 + t.dep
  | 4 => t.lockq * 2 ^ 32 + lcoreWord t.lcore
  | 5 => joinEl 16 ((List.range 4).map (fun k => b2n (Tbl.get false t.gv k) * 2 ^ 15 + b2n (Tbl.get false t.gw k) * 2 ^ 14 + Tbl.get 0 t.gid k))
  | 6 => t.dept1 * 2 ^ 32 + t.dept0
  | 7 => t.trapvec
  | 8 => t.done
  | 9 => t.save
  | 10 => Tbl.get 0 t.gt 1 * 2 ^ 32 + Tbl.get 0 t.gt 0
  | 11 => Tbl.get 0 t.gt 3 * 2 ^ 32 + Tbl.get 0 t.gt 2
  | _ => 0

/-- The two words of a group entry (R386). -/
def Group.words (g : Group) : Nat :=
  b2n g.v * 2 ^ 127 + b2n g.pair * 2 ^ 126 + b2n g.mcast * 2 ^ 125 + b2n g.gang * 2 ^ 124 + b2n g.xdie * 2 ^ 123 + b2n g.tout * 2 ^ 122
    + g.nmem * 2 ^ 96 + g.nleft * 2 ^ 80 + g.arr * 2 ^ 64 + g.phase * 2 ^ 32

/-- First physical address of a region of a die's table, by its index (R70, R84). -/
def regionBase (pkg d i : Nat) : Nat :=
  pkg * 2 ^ 44 + (if i < 32768 then d * 2 ^ 36 + i * 2 ^ 21
    else if i < 163840 then 0x200_0000_0000 + d * 2 ^ 38 + (i - 32768) * 2 ^ 21
    else 0x400_0000_0000 + d * 2 ^ 28 + (i - 163840) * 2 ^ 21)

/-- Die tables, one after the other: tasks, groups, remap table, regions; the registrations' layout is not given. -/
def State.peekDie (s : State) (d o : Nat) : Peek :=
  let x := s.die d
  let g0 := 65536 * 128
  let m0 := g0 + 256 * 16
  let r0 := m0 + 192
  if o < g0 then .val ((Tbl.get {} x.tasks (o / 128)).word (o / 8 % 16))
  else if o < m0 then
    let i := (o - g0) / 16
    .val (el 64 (Tbl.get {} x.groups i).words (o / 8 % 2))
  else if o < r0 then .val (joinEl 16 ((List.range 4).map (fun i => let k := (o - m0) / 2 + i; s.hostOf (d * 96 + k) % 24)))
  else if o < r0 + 163968 * 16 then .val (el 64 (encRegion (s.region (regionBase x.pkg d ((o - r0) / 16)))) ((o - r0) / 8 % 2))
  else .unstated

/-- A word of a space (R486). -/
def State.peek (s : State) (d : Nat) : Peek :=
  let g := (s.die d).dbg
  let o := g.offset
  let core := d * 96 + fld g.unit 8 7 * 24 + fld g.unit 6 2
  let c := s.lcore core
  if 1 ≤ g.space && g.space ≤ 7 && 24 ≤ fld g.unit 6 2 then .undef
  else
    match g.space with
    | 1 => s.peekCtx core (fld g.unit 1 0) o
    | 2 => if o < spSize then .val (c.readN .sp none o 8) else .undef
    | 3 => if o < accSize then .val (c.readN .acc none o 8) else .undef
    | 4 => if o < spSize / 16 + accSize / 16 + spSize / 2048 then .val (byteWord c.markByte o) else .undef
    | 5 => if o < 64 * 4096 then .val (itemsWord (domItems (c.dom (o / 4096)) (o / 4096) (c.heldOf (o / 4096))) (o % 4096)) else .undef
    | 6 => if o < 8192 + 16384 + 2 * codeEnd then .val (byteWord c.miscByte o) else .undef
    | 7 => .unstated
    | 8 => s.peekDie d o
    | 9 => .unstated
    | 10 => if o < 4096 * 32 then .val ((g.slotRec (o / 32)).elim 0 (fun r => el 64 (bboxWords r) (o / 8 % 4))) else .undef
    | _ => .undef

/-- A read of DBGDATA: its value, ERR where there is nothing, OFFSET moved on. What the manual states no value for is a free value. -/
def State.dbgRead (s : State) (d : Nat) : State :=
  let r := s.peek d
  let v := match r with
    | .val v => v
    | _ => (Config.freeWord s.free).toNat
  let s := s.modDie d (fun x => { x with dbg := { x.dbg with data := v, err := x.dbg.err || r == .undef, offset := (x.dbg.offset + 8) % 2 ^ 40 } })
  { s with free := s.free + 1 }

/-- DBGDATA is read (R480, R486). -/
def execDbgdataRead (d : Nat) (s : State) : Host.Outcome State Fault Refusal := .next (s.dbgRead d)

/-- A ring's base (R480). -/
def State.setRing (s : State) (d r v : Nat) : State :=
  s.modDie d (fun x => { x with dbg := { x.dbg with rbase := Tbl.put x.dbg.rbase r (fld v 51 12 * 2 ^ 12), rhead := Tbl.put x.dbg.rhead r 0,
                                                    rdrop := Tbl.put x.dbg.rdrop r 0 } })

/-- RBASE of ring r is written (R480). -/
def execRbaseWrite (d r v : Nat) (s : State) : Host.Outcome State Fault Refusal := .next (s.setRing d r v)

/-! ### Plain writes of registers (R11, R12, R466) -/

/-- A write of a register of a submission slot (R467, R468). -/
def State.writeSub (s : State) (d n off v : Nat) : State :=
  let u := s.sub d n
  match off with
  | 0x00 => if u.busy then s else s.modSub d n (fun u => { u with addr := fld v 56 5 * 32 })
  | 0x08 =>
    let s := if u.busy then s else s.modSub d n (fun u => { u with asid := fld v 11 0 })
    if bit v 63 then s.submit d n else s
  | 0x10 => s.modSub d n (fun u => { u with done := u.done && !bit v 62, fail := u.fail && !bit v 61 })
  | _ => s

/-- A write of a register of the memory control block (R84). -/
def State.writeMem (s : State) (d off v : Nat) : State :=
  match off with
  | 0x000 => s.nmcfg d v
  | 0x008 => s.modDie d (fun x => { x with xlAsidBase := fld v 51 16 * 2 ^ 16 })
  | 0x010 =>
    if bit v 63 then
      if fld v 62 61 = 3 then s.modDie d (fun x => { x with xlScope := 3, xlAsid := fld v 60 49 })
      else s.xlinv d (fld v 62 61) (fld v 60 49) (s.die d).xlVa
    else s.modDie d (fun x => { x with xlScope := fld v 62 61, xlAsid := fld v 60 49 })
  | 0x018 => s.modDie d (fun x => { x with xlVa := fld v 56 16 * 2 ^ 16 })
  | 0x020 => s.modDie d (fun x => { x with fqBase := fld v 51 13 * 2 ^ 13 })
  | 0x030 => s.modDie d (fun x => { x with fqTail := v % 256 })
  | 0x038 => s.xlresume d (v % 256)
  | _ => s

/-- A write of RINGCFG (R424). -/
def State.writeRing (s : State) (d v : Nat) : State :=
  s.modDie d (fun x => { x with p1en := bit v 17 && d % 2 == 0, p0en := bit v 16 && d % 2 == 0, npkgm1 := fld v 15 8, pkg := fld v 7 0 })

/-- A write of a register of the Elwiset block (R452). -/
def State.writeElw (s : State) (d off v : Nat) : State :=
  match off with
  | 0x000 =>
    let s := s.modElw d (fun e => { e with err := e.err && !bit v 60 })
    if !bit v 63 then s.modElw d (fun e => { e with cmd := fld v 62 61, mhz := fld v 9 0 })
    else
      match fld v 62 61 with
      | 1 => (s.modElw d (fun e => { e with mhz := fld v 9 0 })).ctlJoin d
      | 2 => (s.modElw d (fun e => { e with mhz := fld v 9 0 })).ctlLeave d
      | 3 => s.ctlCap d (fld v 9 0)
      | _ => if (s.elw d).go then s.elwRefuse d else s.modElw d (fun e => { e with cmd := 0, mhz := fld v 9 0 })
  | 0x008 => s.modElw d (fun e => { e with joinEgid := fld v 31 16, joinContact := fld v 10 0 })
  | 0x018 => if bit v 63 then s.modElw d (fun e => { e with events := e.events.drop 1 }) else s
  | _ => s

/-- A write of a register of an accumulator control block (R337). -/
def State.writeAcc (s : State) (p off v : Nat) : State :=
  match off with
  | 0x000 =>
    let s := s.modCore p (fun c => { c with accsvErr := c.accsvErr && !bit v 60 })
    if !bit v 63 then s.modCore p (fun c => { c with accsvAct := fld v 62 61, accsvTd := fld v 5 0 })
    else
      match fld v 62 61 with
      | 1 => s.accSave p (fld v 5 0)
      | 2 => s.accRestore p (fld v 5 0)
      | a => s.modCore p (fun c => { c with accsvAct := a, accsvTd := fld v 5 0 })
  | 0x008 => s.modCore p (fun c => { c with accsvAddr := fld v 51 12 * 2 ^ 12 })
  | _ => s

/-- The run of a selector's log in progress ends: its entry enters ring 1; a full ring clears SLOG of every core of the die (R483). -/
def State.logFlush (s : State) (p : Nat) : State :=
  let c := s.core p
  let d := dieOf p
  let g := (s.die d).dbg
  if c.logRun = 0 then s
  else
    let full : Bool := 0 < Tbl.get 0 g.rlen 1 && Tbl.get 0 g.rlen 1 < Tbl.get 0 g.rhead 1 + 4
    let s := (s.modCore p (fun c => { c with logRun := 0 })).ringPut d 1 4 (p % 96 * 2 ^ 25 + c.logCtx * 2 ^ 22 + c.logRun)
    if full then { s with cores := s.cores.map (fun (t : Nat × PCore) => if dieOf t.1 = d then (t.1, { t.2 with slog := false, logRun := 0 }) else t) } else s

/-- A write of DBGCTL of a core (R480, R481). -/
def State.writeDbgctl (s : State) (p v : Nat) : State :=
  let s := if bit v 62 then s else s.logFlush p
  let s := s.modCore p (fun c => { c with dup := bit v 63, slog := bit v 62, replay := bit v 61, trace := bit v 60, snap := bit v 59,
                                          replayAt := if bit v 61 && !c.replay then 0 else c.replayAt, replayRun := if bit v 61 && !c.replay then 0 else c.replayRun })
  (List.range 4).foldl (fun s k => if bit v k = (s.ctxAt p k).stop then s else if bit v k then s.stopCtx p k else s.unstopCtx p k) s

/-- A write of a register of the debug block (R480). OFFSET is kept a multiple of 8 and LEN one of 4 KiB; an offset that begins no register
writes none (log 67). -/
def State.writeDbg (s : State) (d off v : Nat) : State :=
  if off = 0 then
    s.modDie d (fun x => { x with dbg := { x.dbg with space := fld v 63 56, err := x.dbg.err && !bit v 55, unit := fld v 48 40, offset := fld v 39 3 * 8 } })
  else if 0x100 ≤ off && off < 0x100 + 8 * 96 && off % 8 = 0 then s.writeDbgctl (d * 96 + (off - 0x100) / 8) v
  else if 0x400 ≤ off && off < 0x460 then
    let r := (off - 0x400) / 0x20
    match (off - 0x400) % 0x20 with
    | 0x00 => s.setRing d r v
    | 0x08 => s.modDie d (fun x => { x with dbg := { x.dbg with rlen := Tbl.put x.dbg.rlen r (fld v 31 12 * 2 ^ 12) } })
    | _ => s
  else s

/-- A 64-bit write at an offset of a die's control space (R466): each field by its access type (R11). -/
def State.writeReg (s : State) (d off v : Nat) : State :=
  if off < 64 * 32 then s.writeSub d (off / 32) (off % 32) v
  else if 0x1_0000 ≤ off && off < 0x2_0000 then s.writeMem d (off - 0x1_0000) v
  else if off = 0x2_0000 then s.writeRing d v
  else if 0x3_0000 ≤ off && off < 0x4_0000 then s.writeElw d (off - 0x3_0000) v
  else if 0x10_0000 ≤ off && off < 0x10_0000 + 0x1000 * 96 then s.writeAcc (d * 96 + (off - 0x10_0000) / 0x1000) (off % 0x1000) v
  else if off = 0x20_0018 then if bit v 63 then s.modDie d (fun x => { x with hevt := x.hevt.drop 1 }) else s
  else if 0x40_0000 ≤ off then s.writeDbg d (off - 0x40_0000) v
  else s

/-- Whether the host reaches an offset of a die's control space (R466, R480): the submission block and the status block. -/
def hostReaches (off : Nat) : Bool := off < 64 * 32 || (0x20_0000 ≤ off && off < 0x20_0020)

/-- The die and the offset of an address of BAR0 (R466). -/
def bar0Of (a : Nat) : Nat × Nat := (a / 2 ^ 24, a % 2 ^ 24)

/-- A register without behaviour of its own is written (R11); a host's write of a block that it does not reach, and one beyond BAR0, is
discarded (R464, R466, R480). -/
def execRegisterWrite (d : RegPort) (off v : Nat) (s : State) : Host.Outcome State Fault Refusal :=
  .next (match d with
    | .fw d => s.writeReg d off v
    | .host => if hostReaches (bar0Of off).2 && off < 2 ^ 27 then s.writeReg (bar0Of off).1 (bar0Of off).2 v else s)

/-! ### Plain reads of registers (R11, R12, R466): a reserved bit, a WO field and an offset without a register read 0 -/

/-- A word of a submission slot (R467). -/
def State.readSub (s : State) (d n off : Nat) : Nat :=
  let u := s.sub d n
  match off with
  | 0x00 => u.addr
  | 0x08 => u.asid
  | 0x10 => b2n u.busy * 2 ^ 63 + b2n u.done * 2 ^ 62 + b2n u.fail * 2 ^ 61 + u.code * 2 ^ 48
  | 0x18 => u.entry
  | _ => 0

/-- A word of the memory control block (R76, R84). -/
def State.readMem (s : State) (d off : Nat) : Nat :=
  let x := s.die d
  match off with
  | 0x000 => b2n x.nmBusy * 2 ^ 31 + b2n x.nmErr * 2 ^ 30 + x.units
  | 0x008 => x.xlAsidBase
  | 0x010 => b2n x.xlGo * 2 ^ 63 + x.xlScope * 2 ^ 61 + x.xlAsid * 2 ^ 49
  | 0x018 => x.xlVa
  | 0x020 => x.fqBase
  | 0x028 => x.fqHead
  | 0x030 => x.fqTail
  | _ => 0

/-- RINGCFG (R424). -/
def State.readRing (s : State) (d : Nat) : Nat :=
  let x := s.die d
  b2n (x.p1en && d % 2 == 0) * 2 ^ 17 + b2n (x.p0en && d % 2 == 0) * 2 ^ 16 + x.npkgm1 * 2 ^ 8 + x.pkg

/-- The head of a queue of events as ELWEVT and HEVT show it (R452, R469). -/
def headEvent (l : List (Nat × Nat × Nat)) : Nat := l.head?.elim 0 (fun e => eventWord e.1 e.2.1 e.2.2)

/-- A word of the Elwiset block (R452). -/
def State.readElw (s : State) (d off : Nat) : Nat :=
  let e := s.elw d
  match off with
  | 0x000 => b2n e.go * 2 ^ 63 + e.cmd * 2 ^ 61 + b2n e.err * 2 ^ 60 + e.mhz
  | 0x008 => e.joinEgid * 2 ^ 16 + e.joinContact
  | 0x010 => e.egid * 2 ^ 48 + e.stateCode * 2 ^ 45 + Nat.max 1 (s.elwLive d).length * 2 ^ 36 + e.limit
  | 0x018 => headEvent e.events
  | _ => 0

/-- A word of an accumulator control block (R337). -/
def State.readAcc (s : State) (p off : Nat) : Nat :=
  let c := s.core p
  match off with
  | 0x000 => b2n c.accsvGo * 2 ^ 63 + c.accsvAct * 2 ^ 61 + b2n c.accsvErr * 2 ^ 60 + c.accsvTd
  | 0x008 => c.accsvAddr
  | _ => 0

/-- A word of the status and identity block; on d1 to d7 only DEVSTAT and HEVT hold values (R469). -/
def State.readStatus (s : State) (d off : Nat) : Nat :=
  let x := s.die d
  match off with
  | 0x000 => b2n x.ready * 2 ^ 63 + b2n x.failed * 2 ^ 62 + b2n x.noid * 2 ^ 61 + x.stage
  | 0x008 => if d = 0 then 0xB0 * 2 ^ 56 + s.host.line % 2 ^ 8 * 2 ^ 48 + s.host.minor % 2 ^ 16 * 2 ^ 32 + s.host.build % 2 ^ 32 else 0
  | 0x010 => if d = 0 then s.host.serial else 0
  | 0x018 => headEvent x.hevt
  | _ => 0

/-- DBGCTL of a core (R480). -/
def State.readDbgctl (s : State) (p : Nat) : Nat :=
  let c := s.core p
  let bits (f : Ctx → Bool) : Nat := joinEl 1 ((List.range 4).map (fun k => b2n (f (s.ctxAt p k))))
  b2n c.dup * 2 ^ 63 + b2n c.slog * 2 ^ 62 + b2n c.replay * 2 ^ 61 + b2n c.trace * 2 ^ 60 + b2n c.snap * 2 ^ 59
    + bits (fun k => k.stopped) * 2 ^ 4 + bits (fun k => k.stop)

/-- A word of the debug block (R480), DBGDATA aside, whose read acts (DBGDATA_READ). -/
def State.readDbg (s : State) (d off : Nat) : Nat :=
  let g := (s.die d).dbg
  if off = 0 then g.space * 2 ^ 56 + b2n g.err * 2 ^ 55 + g.unit * 2 ^ 40 + g.offset
  else if 0x100 ≤ off && off < 0x100 + 8 * 96 && off % 8 = 0 then s.readDbgctl (d * 96 + (off - 0x100) / 8)
  else if 0x400 ≤ off && off < 0x460 then
    let r := (off - 0x400) / 0x20
    match (off - 0x400) % 0x20 with
    | 0x00 => Tbl.get 0 g.rbase r
    | 0x08 => Tbl.get 0 g.rlen r
    | 0x10 => Tbl.get 0 g.rhead r
    | 0x18 => Tbl.get 0 g.rdrop r
    | _ => 0
  else 0

/-- The word that the firmware reads at an offset of a die's control space (R11, R12, R466). -/
def State.readReg (s : State) (d off : Nat) : Nat :=
  if off < 64 * 32 then s.readSub d (off / 32) (off % 32)
  else if 0x1_0000 ≤ off && off < 0x2_0000 then s.readMem d (off - 0x1_0000)
  else if off = 0x2_0000 then s.readRing d
  else if 0x3_0000 ≤ off && off < 0x4_0000 then s.readElw d (off - 0x3_0000)
  else if 0x10_0000 ≤ off && off < 0x10_0000 + 0x1000 * 96 then s.readAcc (d * 96 + (off - 0x10_0000) / 0x1000) (off % 0x1000)
  else if 0x20_0000 ≤ off && off < 0x20_0020 then s.readStatus d (off - 0x20_0000)
  else if 0x40_0000 ≤ off then s.readDbg d (off - 0x40_0000)
  else 0

/-- The word that the host reads at an address of BAR0: only the submission and the status block answer it (R466). -/
def State.hostReadReg (s : State) (a : Nat) : Nat :=
  if hostReaches (bar0Of a).2 && a < 2 ^ 27 then s.readReg (bar0Of a).1 (bar0Of a).2 else 0

end Sys2Proof.Machine
end

