-- ==== Sys2Proof/Machine/Fabric.lean ====
section
/-! DEFINITION. Messages of the fabric that reach this package: requests served at their home, answers to what was sent, notices, tokens,
readiness of collectives, link errors (R417 to R440). What the messages leave open is log 35. -/

namespace Sys2Proof.Machine

/-! ### Answering -/

/-- An answer to a message: from its receiver to its source, under the source's TAG. -/
def State.answer (s : State) (m : Msg) (kind pois : Nat) (words : List Nat) : State :=
  s.emit m.ddie ⟨kind, m.ddie, m.sdie, m.dpkg, m.spkg, m.tag, pois, m.addr, words, false⟩

/-- NACK names the refused message (R421, R422). -/
def State.nack (s : State) (m : Msg) : State := s.answer m 9 0 [m.kind + m.tag * 2 ^ 6]

/-- A refused message circles once more; refused again, it is dropped with NACK (R422). -/
def State.refuse (s : State) (m : Msg) : State := if m.rc then s.nack m else { s with station := s.station ++ [(m.ddie, { m with rc := true })] }

/-- A message that comes to this package: one for another package goes on from the bridge that it came to; one for this package meets `f` at its
die, or stands at the bridge, or at its own package's station, while a hop of its way is down (R420, R425). -/
def State.incoming (s : State) (m : Msg) (f : State → State) : State :=
  let b := bridgeOf m.dpkg m.addr
  if m.dpkg != (s.die b).pkg then s.emit b m
  else
    let g := if m.spkg = m.dpkg then m.sdie else b
    if s.ringOpen g m.ddie then (f s).passed g m else { s with station := s.station ++ [(g, m)] }

/-- The physical address that a message to this package names. -/
def msgPa (m : Msg) : Nat := m.dpkg * 2 ^ 44 + m.addr

/-- The copy of kind `kind` that an answer answers. -/
def State.copyOf (s : State) (m : Msg) (kind : Nat) : Option Copy := (s.die m.ddie).copies.find? (fun k => k.m.kind == kind && k.m.tag == m.tag)

/-- The copy is no longer kept. -/
def State.dropCopy (s : State) (m : Msg) (kind : Nat) : State :=
  s.modDie m.ddie (fun x => { x with copies := x.copies.filter (fun k => !(k.m.kind == kind && k.m.tag == m.tag)) })

/-- What an answer does, where the message it answers is outstanding. -/
def State.onAnswer (s : State) (m : Msg) (kind : Nat) (f : State → Copy → State) : State :=
  match s.copyOf m kind with
  | none => s
  | some k => f (s.dropCopy m kind) k

/-! ### Reads and writes (R426) -/

/-- Poison marks of `n` bytes, a bit per granule. -/
def State.poisBits (s : State) (pa n : Nat) : Nat :=
  joinEl 1 ((List.range (ceilDiv n 16)).map (fun g => b2n (s.poisPA (pa + 16 * g))))

/-- RDREQ at the home. -/
def State.serveRead (s : State) (m : Msg) : State :=
  let n := 2 ^ (m.words.headD 0 % 256)
  if 256 < n then s.protoError m.ddie 1 (m.spkg * 8 + m.sdie) else s.answer m 2 (s.poisBits (msgPa m) n) [s.readPAn (msgPa m) n, n]

/-- RDREQ is served and answered (R426). -/
def execRdreq (m : Msg) (s : State) : Host.Outcome State Fault Refusal := .next (s.incoming m (fun s => s.serveRead m))

/-- A line that was asked for is kept (R89, R426). -/
def State.keepLine (s : State) (pa data pois : Nat) : State :=
  (List.range 16).foldl (fun s g => s.memStore (spread (pa + 16 * g) 16 (el 128 data g)) (bit pois g)) { s with rlines := NatSet.insert s.rlines (pa / 256) }

/-- A line reaches its requester; it is kept where the die holds its region's token. One that has been written or given up since it was asked for
serves nobody, and is asked for again (R89, R343, R431). -/
def State.bringLine (s : State) (d : Nat) (k : Copy) (data pois : Nat) : State :=
  let pa := k.m.dpkg * 2 ^ 44 + k.m.addr
  if k.stale then s
  else
    let s := if s.holdsToken d pa && !s.isLocal d pa then s.keepLine pa data pois else s
    { s with got := s.got ++ [⟨k.req, pa / 256, data, pois⟩] }

/-- A global load completes with its data; withheld bytes of its context stand over them, and poison of its granule reaches it unless one of them
covers the granule whole (R91, R98, R426). -/
def farVal (k : Copy) (data : Nat) (pois : Bool) (q : PendLoad) : PendLoad :=
  let z := k.m.words.headD 0
  let n := 2 ^ z
  let raw := joinEl 8 ((List.range n).map (fun i => if bit k.lane i then el 8 q.val i else el 8 data i))
  { q with val := scalarVal (z + (if k.sx then 4 else 0)) raw, pois := if pois && !bit k.lane n then some q.addr else none }

/-- RDRSP at the requester: a line, or a load's data. -/
def State.takeRead (s : State) (m : Msg) : State :=
  s.onAnswer m 1 (fun s k =>
    if k.m.words.headD 0 = 8 then s.bringLine m.ddie k (m.words.headD 0) m.pois
    else s.giveLoad k.ref (farVal k (m.words.headD 0) (m.pois % 2 == 1)))

/-- RDRSP returns (R426). -/
def execRdrsp (m : Msg) (s : State) : Host.Outcome State Fault Refusal := .next (s.incoming m (fun s => s.takeRead m))

/-- Granules of a line that a mask covers wholly. -/
def wholeGranules (mask : Nat) : List Nat := (List.range 4).filter (fun g => mask / 2 ^ (16 * g) % 2 ^ 16 == ones 16)

/-- Granules of a line of which a mask names a byte. -/
def touchedGranules (mask : Nat) : List Nat := (List.range 4).filter (fun g => mask / 2 ^ (16 * g) % 2 ^ 16 != 0)

/-- WRREQ performed: a weak write, or a write-port add of accumulator memory, where an element with a poisoned source is left unpredictable (log
6); an engine's write sets the granules that it touches full (R315, R316, R426, log 63). -/
def State.serveWrite (s : State) (m : Msg) : State :=
  let mask := m.words.headD 0
  let mode := m.words.getD 1 0
  let data := m.words.getD 2 0
  let pa := (msgPa m) / 64 * 64
  match s.home pa with
  | .acc l o =>
    let free := s.free
    ({ s with free := s.free + 1 } : State).modLcore l (fun c =>
      let bad := (touchedGranules mask).filter (fun g => bit m.pois g)
      let sum := addElems (c.acc.mem.readN o 64) mask data (mode == 1)
      let d := if mode = 0 then data
        else joinEl 8 ((List.range 64).map (fun i => if bad.contains (i / 16) then (Config.freeByte free (o + i)).toNat else el 8 sum i))
      let c := { c with acc := { c.acc with mem := c.acc.mem.writeL (maskBytes o 64 mask d) } }
      let clean := if mode = 0 then (wholeGranules mask).filter (fun g => !bit m.pois g) else []
      let pois := bad.foldl (fun p g => NatSet.insert p (o / 16 + g)) (c.acc.pois.filter (fun g => !clean.any (fun k => o / 16 + k == g)))
      let full := if m.words.getD 3 0 = 1 then touchedGranules mask else []
      { c with acc := { c.acc with pois := pois, empty := full.foldl (fun e g => NatSet.erase e (o / 16 + g)) c.acc.empty } })
  | _ =>
    (List.range 4).foldl (fun s g => s.storePA (maskBytes (pa + 16 * g) 16 (mask / 2 ^ (16 * g)) (data / 2 ^ (128 * g))) (bit m.pois g) false) s

/-- WRREQ is performed and acknowledged (R426). -/
def execWrreq (m : Msg) (s : State) : Host.Outcome State Fault Refusal := .next (s.incoming m (fun s => (s.serveWrite m).answer m 4 0 []))

/-- WRACK frees the copy (R426). -/
def execWrack (m : Msg) (s : State) : Host.Outcome State Fault Refusal := .next (s.incoming m (fun s => s.dropCopy m 3))

/-! ### Ticketed parts and atomics (R319, R334, R426) -/

/-- The part that a TKPART carries. -/
def msgPart (m : Msg) (id : Nat) : Part :=
  let w := m.words.headD 0
  let o := m.addr - 0x500_0000_0000
  { td := fld w 37 32, ticket := fld w 31 0, op := fld w 39 38, mask := m.words.getD 1 0, lane0 := fld w 57 52, off := o % 2 ^ 21
    pay := (List.range 16).map (fun i => el 32 (m.words.getD 2 0) i), asid := fld w 51 40
    lcore := o / 2 ^ 28 * 96 + o / 2 ^ 26 % 4 * 24 + o / 2 ^ 21 % 32, pcore := m.ddie * 96, task := 0, addr := m.addr, id := id }

/-- TKPART at its bank: acknowledged, refused, or in conflict (R319, R321, R323). -/
def State.servePart (s : State) (m : Msg) : State :=
  let p := msgPart m s.fresh
  let s := s.bump
  let (c, f) := (s.lcore p.lcore).arrive p
  let s := s.setLcore p.lcore c
  match f with
  | .taken => s.answer m 6 0 []
  | .orphan => (s.modCore (s.hostOf p.lcore) (fun k => { k with orphans := k.orphans + 1 })).answer m 6 0 []
  | .refused => s.refuse m
  | .conflict code => s.answer m 10 0 [code]

/-- TKPART arrives (R426). -/
def execTkpart (m : Msg) (s : State) : Host.Outcome State Fault Refusal := .next (s.incoming m (fun s => s.servePart m))

/-- TKACK frees the copy (R426). -/
def execTkack (m : Msg) (s : State) : Host.Outcome State Fault Refusal := .next (s.incoming m (fun s => s.dropCopy m 5))

/-- TKCONF: the sender takes TICKET_CONFLICT, or its collective stops (R323, R434). -/
def State.takeConf (s : State) (m : Msg) : State :=
  s.onAnswer m 5 (fun s k =>
    let w := k.m.words.headD 0
    let code := m.words.headD 0
    if k.req = 0 then s.conflict k.task code k.lane (fld w 37 32) (fld w 31 0)
    else s.modColl m.ddie (k.req / 2 - 1) (fun c => { c with fault := some { cause := 13, d0 := code, d2 := 4 * 16 + 12 } }))

/-- TKCONF answers a part (R323). -/
def execTkconf (m : Msg) (s : State) : Host.Outcome State Fault Refusal := .next (s.incoming m (fun s => s.takeConf m))

/-- AAREQ performed at its bank; a poisoned element is left and its mark returned. -/
def State.serveAtom (s : State) (m : Msg) : State :=
  let w := m.words.getD 2 0
  let n := if 2 ≤ fld w 5 4 then 64 else 32
  match s.home (msgPa m) with
  | .acc l o =>
    match (s.lcore l).atom o (fld w 2 0) n (fld w 5 4 % 2 == 1) (m.words.headD 0) (m.words.getD 1 0) with
    | none => s.answer m 8 1 [0]
    | some (old, c) => (s.setLcore l c).answer m 8 0 [old]
  | _ => s.protoError m.ddie 7 (m.spkg * 8 + m.sdie)

/-- AAREQ is performed and answered (R426). -/
def execAareq (m : Msg) (s : State) : Host.Outcome State Fault Refusal := .next (s.incoming m (fun s => s.serveAtom m))

/-- The context whose atomic awaits answer `n` (log 62). -/
def State.ctxAwaiting (s : State) (n : Nat) : Option (Nat × Nat) :=
  s.cores.findSome? (fun p => p.2.ctxs.findSome? (fun c => if n != 0 && (c.2.hold.map (fun h => h.ref)) == some n then some (p.1, c.1) else none))

/-- The poison and the old value of an element reach the atomic that holds its context, which goes on with them. -/
def State.answerAtom (s : State) (p c v : Nat) (bad : Bool) : State :=
  s.within p c (fun s =>
    (s.modCx (fun k => { k with hold := k.hold.map (fun h => { h with vals := h.vals ++ [b2n bad, v], ref := 0 }) })).finishHold)

/-- AARSP at its source: a list's counter word, or the answer that a context awaits (R334, R336). -/
def State.takeAtom (s : State) (m : Msg) : State :=
  let v := m.words.headD 0
  let bad := m.pois % 2 == 1
  s.onAnswer m 7 (fun s k =>
    match (s.die m.ddie).subs.find? (fun u => u.2.waitRef == some k.ref && u.2.busy) with
    | some u => s.modSub m.ddie u.1 (fun u => { u with waitRef := none, got := some (v, bad) })
    | none =>
      match s.ctxAwaiting k.ref with
      | some (p, c) => s.answerAtom p c v bad
      | none => s)

/-- AARSP returns (R426). -/
def execAarsp (m : Msg) (s : State) : Host.Outcome State Fault Refusal := .next (s.incoming m (fun s => s.takeAtom m))

/-! ### Refusals (R422) -/

/-- NACK: the source sends the message again from its copy. -/
def State.resend (s : State) (m : Msg) : State :=
  let kind := m.words.headD 0 % 2 ^ 6
  let tag := m.words.headD 0 / 2 ^ 6 % 4096
  match (s.die m.ddie).copies.find? (fun k => k.m.kind == kind && k.m.tag == tag) with
  | none => s
  | some k =>
    let s := s.modDie m.ddie (fun x => { x with copies := x.copies.map (fun c => if c.m.kind == kind && c.m.tag == tag then { c with tries := c.tries + 1 } else c) })
    s.emit m.ddie k.m

/-- NACK (R422). -/
def execNack (m : Msg) (s : State) : Host.Outcome State Fault Refusal := .next (s.incoming m (fun s => s.resend m))

/-! ### Notices and readiness (R433, R439) -/

/-- NOTICE: applied or queued and acknowledged, or refused. -/
def State.serveNotice (s : State) (m : Msg) : State :=
  let w := m.words.headD 0
  match s.takeNotice m.ddie ⟨m.words.getD 1 0 % 2 ^ 32 * 2 ^ 16 + fld w 15 0, fld w 27 16, fld w 35 28⟩ with
  | some s => s.answer m 12 0 []
  | none => s.refuse m

/-- NOTICE arrives (R439). -/
def execNotice (m : Msg) (s : State) : Host.Outcome State Fault Refusal := .next (s.incoming m (fun s => s.serveNotice m))

/-- NOTEACK counts toward its NOTE's completion (R437). -/
def execNoteack (m : Msg) (s : State) : Host.Outcome State Fault Refusal := .next (s.incoming m (fun s => s.dropCopy m 11))

/-- COLLRDY enters the ready table, or is refused where it is full. -/
def State.serveReady (s : State) (m : Msg) : State :=
  if 256 ≤ (s.die m.ddie).collRdy.length then s.refuse m
  else s.modDie m.ddie (fun x => { x with collRdy := x.collRdy ++ [(m.spkg * 2 ^ 44 + m.addr, fld (m.words.headD 0) 5 0)] })

/-- COLLRDY arrives (R433). -/
def execCollrdy (m : Msg) (s : State) : Host.Outcome State Fault Refusal := .next (s.incoming m (fun s => s.serveReady m))

/-! ### Tokens (R429 to R431) -/

/-- The home's decision on a request for a region that no die holds. -/
def State.grantToken (s : State) (m : Msg) : State :=
  let pa := (msgPa m)
  let r := s.region pa
  let w := m.words.headD 0
  if r.owner = fld w 31 0 && r.asid = fld w 43 32 then
    (s.setRegion pa { r with st := 3, tokpkg := m.spkg, tokdie := m.sdie }).answer m 15 0 [w]
  else s.answer m 15 0 [0]

/-- TOKREQ at the home: a holder is recalled first, and the request waits its turn. -/
def State.serveToken (s : State) (m : Msg) : State :=
  let r := s.region (msgPa m)
  let waits := (s.die m.ddie).tokQ.any (fun k => k.addr / 2 ^ 21 == m.addr / 2 ^ 21)
  if r.st = 3 then
    let s := if waits then s else s.sendTo m.ddie 16 r.tokpkg r.tokdie (m.addr / 2 ^ 21 * 2 ^ 21) 0 [r.owner + r.asid * 2 ^ 32] {}
    s.modDie m.ddie (fun x => { x with tokQ := x.tokQ ++ [m] })
  else s.grantToken m

/-- TOKREQ arrives (R429). -/
def execTokreq (m : Msg) (s : State) : Host.Outcome State Fault Refusal := .next (s.incoming m (fun s => s.serveToken m))

/-- Queued requests for the region of a message are answered in their order of arrival, up to one that is granted; one that still waits behind it
recalls the token again (R429). -/
def State.nextToken (s : State) (m : Msg) : Nat → State
  | 0 => s
  | n + 1 =>
    match findIdx? (fun (k : Msg) => k.addr / 2 ^ 21 == m.addr / 2 ^ 21) (s.die m.ddie).tokQ 0 with
    | none => s
    | some (i, q) =>
      let s := (s.modDie m.ddie (fun x => { x with tokQ := removeAt x.tokQ i })).grantToken q
      let r := s.region (msgPa m)
      if r.st = 3 then
        if (s.die m.ddie).tokQ.any (fun k => k.addr / 2 ^ 21 == m.addr / 2 ^ 21) then
          s.sendTo m.ddie 16 r.tokpkg r.tokdie (m.addr / 2 ^ 21 * 2 ^ 21) 0 [r.owner + r.asid * 2 ^ 32] {}
        else s
      else s.nextToken m n

/-- A token has come back: the region is OWNED, and the requests for it are served. -/
def State.tokenBack (s : State) (m : Msg) : State :=
  let pa := (msgPa m)
  let r := s.region pa
  let s := if r.st = 3 then s.setRegion pa { r with st := 0, tokpkg := 0, tokdie := 0 } else s
  s.nextToken m ((s.die m.ddie).tokQ.length)

/-- TOKRETURN arrives (R430). -/
def execTokreturn (m : Msg) (s : State) : Host.Outcome State Fault Refusal := .next (s.incoming m (fun s => s.tokenBack m))

/-- The region that a recall names. -/
def recallPa (m : Msg) : Nat := m.spkg * 2 ^ 44 + m.addr / 2 ^ 21 * 2 ^ 21

/-- Whether the token of a recalled region may return: no access under it is unperformed (R431). -/
def State.mayReturn (s : State) (m : Msg) : Bool := !(s.die m.ddie).tokenUsed (recallPa m)

/-- The token of a recalled region returns. -/
def State.returnToken (s : State) (m : Msg) : State := s.sendTo m.ddie 17 m.spkg m.sdie m.addr 0 m.words {}

/-- A holder's token is recalled: its lines go, accesses of the old holder meet a token that is elsewhere, and the token returns once those
before have been performed (R429, R431). -/
def State.giveToken (s : State) (m : Msg) : State :=
  let pa := recallPa m
  if s.holdsToken m.ddie pa then
    let s := (s.setRegion pa { s.region pa with tokpkg := m.spkg, tokdie := m.sdie }).dropLines pa (2 ^ 21)
    if s.mayReturn m then s.returnToken m else s.modDie m.ddie (fun x => { x with recalls := x.recalls ++ [m] })
  else s

/-- The first recall whose token may return, with its place. -/
def State.nextReturn (s : State) : Option (Nat × Msg) :=
  s.dies.findSome? (fun d => findIdx? (fun m => s.mayReturn m) d.2.recalls 0)

/-- It returns. -/
def State.endRecall (s : State) (i : Nat) (m : Msg) : State := (s.modDie m.ddie (fun x => { x with recalls := removeAt x.recalls i })).returnToken m

/-- TOKRECALL arrives (R429). -/
def execTokrecall (m : Msg) (s : State) : Host.Outcome State Fault Refusal := .next (s.incoming m (fun s => s.giveToken m))

/-- TOKGRANT at the requester: the region is REMOTE here, or the request was refused; the waiting TOKACQ goes on. -/
def State.takeToken (s : State) (m : Msg) : State :=
  s.onAnswer m 14 (fun s k =>
    let pa := k.m.dpkg * 2 ^ 44 + k.m.addr
    let w := k.m.words.headD 0
    let ok := m.words.headD 0 != 0
    let s := if ok then s.setRegion pa ⟨fld w 31 0, fld w 43 32, 3, 0, k.m.spkg, k.m.sdie⟩ else s
    match s.ctxHolding (fld w 31 0) with
    | none => s
    | some (p, c) =>
      s.within p c (fun s =>
        match s.cx.hold with
        | none => s
        | some h =>
          let v := h.vals
          let v' := if ok then [v.getD 0 0, v.getD 1 0, v.getD 2 0, v.getD 3 0 + 1, v.getD 4 0 + 1] else v.take 5 ++ [1]
          (s.modCx (fun k => { k with hold := some { h with vals := v' } })).finishHold))

/-- TOKGRANT arrives (R429). -/
def execTokgrant (m : Msg) (s : State) : Host.Outcome State Fault Refusal := .next (s.incoming m (fun s => s.takeToken m))

/-! ### Links (R420, R421) -/

/-- A flit (R419). -/
structure Flit where
  kind : Nat
  pri : Bool
  rc : Bool
  last : Bool
  seq : Nat
  sdie : Nat
  ddie : Nat
  spkg : Nat
  dpkg : Nat
  tag : Nat
  pois : Nat
  addr : Nat
  payload : Nat
deriving DecidableEq, Repr

/-- Header bytes 4 to 15 of a flit. -/
def Flit.upper (f : Flit) : Nat :=
  f.addr % 2 ^ 44 + f.pois % 16 * 2 ^ 47 + f.tag % 4096 * 2 ^ 51 + f.dpkg % 256 * 2 ^ 63 + f.spkg % 256 * 2 ^ 71 + f.ddie % 8 * 2 ^ 79
    + f.sdie % 8 * 2 ^ 82 + f.seq % 4 * 2 ^ 85 + b2n f.last * 2 ^ 87 + b2n f.rc * 2 ^ 88 + b2n f.pri * 2 ^ 89 + f.kind % 64 * 2 ^ 90

/-- CRC-32C over header bytes 4 to 15 and the payload, from all ones with final inversion. -/
def flitCrc (upper payload : Nat) : Nat := ones 32 - crcBytes 64 (crcBytes 12 (ones 32) upper) payload

/-- The 80 bytes of a flit, the header lowest. -/
def Flit.bits (f : Flit) : Nat := flitCrc f.upper (f.payload % 2 ^ 512) + f.upper * 2 ^ 32 + f.payload % 2 ^ 512 * 2 ^ 128

/-- Whether a station accepts the 80 bytes of a flit (R420). -/
def flitOk (w : Nat) : Bool := w % 2 ^ 32 == flitCrc (w / 2 ^ 32 % 2 ^ 96) (w / 2 ^ 128 % 2 ^ 512)

/-- The payloads of a message with their poison marks, flit by flit (R421). A read's answer has its size in bytes as its second word. -/
def msgPayloads (m : Msg) : List (Nat × Nat) :=
  let w (i : Nat) : Nat := m.words.getD i 0
  match m.kind with
  | 2 => (List.range (Nat.max 1 (w 1 / 64))).map (fun i => (el 512 (w 0) i, el 4 m.pois i))
  | 3 => [(w 0 % 2 ^ 64 + w 1 * 2 ^ 64, 0), (w 2 % 2 ^ 512, m.pois)]
  | 5 => [(w 0 % 2 ^ 64 + w 1 % 2 ^ 64 * 2 ^ 64, 0), (w 2 % 2 ^ 512, 0)]
  | _ => [(joinEl 64 m.words % 2 ^ 512, m.pois)]

/-- Kinds of the priority channel (R421). -/
def priKind (k : Nat) : Bool := inRange 9 18 k

/-- The flits of a message (R419, R421). -/
def msgFlits (m : Msg) : List Flit :=
  let l := msgPayloads m
  l.zipIdx.map (fun t => ⟨m.kind, priKind m.kind, m.rc, t.2 + 1 == l.length, t.2, m.sdie, m.ddie, m.spkg, m.dpkg, m.tag, t.1.2, m.addr, t.1.1⟩)

/-- The flits that have left over the rack, as bytes. -/
def State.rackFlits (s : State) : List Nat := (s.fabric.map (fun m => (msgFlits m).map Flit.bits)).flatten

/-- A failing CRC on hop `h` of a die: 0 ring A, 1 ring B, 2 and 3 rack ports 0 and 1. -/
def State.crcFail (s : State) (d h : Nat) : State :=
  s.modDie d (fun x => { x with hopErr := Tbl.put x.hopErr h (Tbl.get 0 x.hopErr h + 1), dbg := { x.dbg with corr := countUp x.dbg.corr (errKey 7 h) } })

/-- A flit is not accepted and sent again (R420). -/
def execFlitCrcRetry (d hop : Nat) (s : State) : Host.Outcome State Fault Refusal := .next (s.crcFail d hop)

/-- The other end of a hop within the package. -/
def hopEnd (d h : Nat) : Option Nat := if h = 0 then some ((d + 1) % 8) else if h = 1 then some ((d + 7) % 8) else none

/-- After 32 consecutive failures the hop is down, and both ends have a link event (R420, R469, R487). -/
def State.hopFail (s : State) (d h : Nat) : State :=
  if Tbl.get 0 (s.die d).hopErr h < 32 || NatSet.mem (s.die d).hopDown h then s
  else
    let s := s.modDie d (fun x => { x with hopDown := NatSet.insert x.hopDown h, dbg := { x.dbg with unc := countUp x.dbg.unc (errKey 7 h) } })
    let s := ((s.fwEvent d 4 h).hostEvent d 2 d).blackBox d 4 0 h
    match hopEnd d h with
    | some k => ((s.fwEvent k 4 h).hostEvent k 2 d).blackBox k 4 0 h
    | none => s

/-- A hop is marked down (R420). -/
def execHopDown (d hop : Nat) (s : State) : Host.Outcome State Fault Refusal := .next (s.hopFail d hop)

/-- A flit of another KIND is dropped and counted (R421). -/
def execFlitUnknownKind (m : Msg) (s : State) : Host.Outcome State Fault Refusal :=
  .next (s.incoming m (fun s => s.protoError m.ddie m.kind (m.spkg * 8 + m.sdie)))

/-! ### Messages that stand at a station (R417, R420, R423, R425, R440) -/

/-- A message reaches its die (R421). -/
def State.deliver (s : State) (m : Msg) : State :=
  match m.kind with
  | 1 => s.serveRead m
  | 2 => s.takeRead m
  | 3 => (s.serveWrite m).answer m 4 0 []
  | 4 => s.dropCopy m 3
  | 5 => s.servePart m
  | 6 => s.dropCopy m 5
  | 7 => s.serveAtom m
  | 8 => s.takeAtom m
  | 9 => s.resend m
  | 10 => s.takeConf m
  | 11 => s.serveNotice m
  | 12 => s.dropCopy m 11
  | 13 => s.post (elwInstr m.ddie (elwOf m))
  | 14 => s.serveToken m
  | 15 => s.takeToken m
  | 16 => s.giveToken m
  | 17 => s.tokenBack m
  | 18 => s.serveReady m
  | k => s.protoError m.ddie k (m.spkg * 8 + m.sdie)

/-- The first message at a station that may leave it, with its place. -/
def State.nextOut (s : State) : Option (Nat × Nat × Msg) := findIdx? (fun t => s.mayLeave t.1 t.2) s.station 0

/-- It leaves: to its die, or over the rack. -/
def State.sendOut (s : State) (i d : Nat) (m : Msg) : State :=
  let s : State := { s with station := removeAt s.station i }
  let s := s.passed d m
  if m.dpkg = (s.die d).pkg then s.deliver m else { s with fabric := s.fabric ++ [m] }

end Sys2Proof.Machine
end

