-- ==== Sys2Proof/Machine/Boot.lean ====
section
/-! DEFINITION. Host attachment, start-up, security and power: start-up and warm reset, the HDM range, configuration requests, the
Worulmon endpoint (R464 to R479, R489). What the manual leaves open is log 36. -/

namespace Sys2Proof

/-- Whether an event comes from outside a module of package `pkg`: host, baseboard, power, sensors, other packages. -/
def Instr.outside (pkg : Nat) : Instr → Bool
  | .resetRelease _ | .warmReset _ | .hdmWrite .. | .hdmRead .. | .configRequest | .readSensors .. | .setPowerCap .. | .attest .. | .readIdentity ..
  | .worulmonWarmReset .. | .setEndpointId _ | .getEndpointId | .getMctpVersionSupport | .getMessageTypeSupport
  | .getVendorDefinedMessageSupport | .mctpOtherType _ | .unknownCommand _ | .powerRemoved | .cxlLinkTrained _ | .powerCapReached _
  | .thermalSample .. | .registerWrite .host _ _ => true
  | .rdreq m | .rdrsp m | .wrreq m | .wrack m | .tkpart m | .tkack m | .aareq m | .aarsp m | .nack m | .tkconf m | .notice m | .noteack m
  | .tokreq m | .tokgrant m | .tokrecall m | .tokreturn m | .collrdy m | .flitUnknownKind m => m.spkg != pkg
  | .hb _ m | .lower _ m | .raise _ m | .ack _ m | .commit _ m | .cancel _ m | .join _ m | .joinack _ m | .joinabort _ m | .leave _ m
  | .evict _ m | .elwBadOp _ m => m.src / 8 != pkg
  | _ => false

end Sys2Proof

namespace Sys2Proof.Machine

/-! ### Start-up (R470, R471) -/

def dieNums : List Nat := List.range 8

/-- Physical cores that a die's remap table names, as the image and the self-test leave it. -/
def remapCores (remap : Tbl Nat) : List Nat := ((List.range 96).map (fun i => i / 24 * 24 + Tbl.get (i % 24) remap i)).eraseDups

/-- The image's remap table for a die: 96 entries each, die by die. -/
def Cfg.remapOf (c : Cfg) (d : Nat) : Tbl Nat := (c.remap.filter (fun t => t.1 / 96 == d)).map (fun t => (t.1 % 96, t.2))

/-- The table without the failed cores of a die: their logical cores move to the lowest core of the cluster that the image names and
that works (R20, R379). -/
def workingRemap (remap : Tbl Nat) (failed : List Nat) : Option (Tbl Nat) :=
  let named := remapCores remap
  let ok (c : Nat) : List Nat := named.filter (fun p => p / 24 == c && !failed.contains p)
  if (List.range 4).any (fun c => (ok c).isEmpty) then none
  else some ((List.range 96).map (fun i =>
    let p := i / 24 * 24 + Tbl.get (i % 24) remap i
    (i, if failed.contains p then ((ok (i / 24)).headD 0) % 24 else p % 24)))

/-- A start-up step begins: STAGE of every die shows it (R469, R470). -/
def State.beginStage (s : State) (n : Nat) : State := dieNums.foldl (fun s d => s.modDie d (fun x => { x with stage := n })) s

/-- Start-up stops at a step (R471): DEVSTAT of every die, and the cause in the black box. -/
def State.bootFail (s : State) (stage cause : Nat) : State :=
  let s := (dieNums.foldl (fun s d => s.modDie d (fun x => { x with failed := true, stage := stage })) s).blackBox 0 7 0 (stage * 256 + cause)
  { s with host := { s.host with booting := none } }

/-- A die as the configuration image sets it up (R470 step 3): rings and carve-out. -/
def State.setDieUp (s : State) (d : Nat) : State :=
  let c := s.cfg
  s.modDie d (fun x => { x with units := c.units, pkg := c.pkg, npkgm1 := c.npkgm1, p1en := c.p1en && d % 2 == 0, p0en := c.p0en && d % 2 == 0 })

/-- A die's Elwiset state as start-up leaves it (R470 step 6), under the power cap in force (R479). -/
def State.setElwUp (s : State) (d : Nat) : State :=
  let c := s.cfg
  let s := s.modElw d (fun e => { e with cap := c.mhz, mhz := c.mhz, powerLim := if s.host.capped then Config.powerLimit s.host.cap d else e.powerLim })
  let l := (s.elw d).limit
  s.modElw d (fun e => { e with announced := l, ceiling := l, members := [(s.elwId d, { limit := l })] })

/-- READY is reported at 16 lanes, once start-up has ended (R464, R470). -/
def State.showReady (s : State) : State :=
  dieNums.foldl (fun s d => s.modDie d (fun x => { x with ready := x.stage == 7 && !x.failed && s.host.booting.isNone && s.host.lanes == 16 })) s

/-- The remap tables without the cores that the self-test found failed; none of a die that has a cluster without a core. -/
def State.bootTables (s : State) (f : StartFind) : List (Option (Tbl Nat)) :=
  dieNums.map (fun d => workingRemap (s.cfg.remapOf d) ((f.failedCores.filter (fun p => p / 96 == d)).map (fun p => p % 96)))

/-- What the self-test leaves (R470 step 5, R471). -/
def State.selfTest (s : State) (f : StartFind) : State :=
  let tables := s.bootTables f
  if f.fatalUnit || dieNums.any (fun d => (List.range 4).all (fun c => f.failedGathers.contains (4 * d + c))) then s.bootFail 5 3
  else if tables.any (fun t => t.isNone) then s.bootFail 5 2
  else
    let s : State := { s with host := { s.host with selfTest := (f.failedCores, f.failedGathers) } }
    (dieNums.foldl (fun s d => s.modDie d (fun x => { x with remap := (tables.getD d none).getD [] })) s).beginStage 6

/-- The step of start-up that STAGE shows ends, and the next begins (R470, R471): 2 verifies the firmware image, 3 the configuration image, 4 loads
the firmware, 5 is the self-test, 6 trains and initialises, 7 derives the identity key and ends start-up. -/
def State.bootStep (s : State) : State :=
  match s.host.booting with
  | none => s
  | some f =>
    match (s.die 0).stage with
    | 2 => if f.fwSigOk then s.beginStage 3 else s.bootFail 2 1
    | 3 => if f.cfgSigOk then (dieNums.foldl State.setDieUp s).beginStage 4 else s.bootFail 3 1
    | 5 => s.selfTest f
    | 6 => if f.trainOk then (dieNums.foldl State.setElwUp { s with regions := [] }).beginStage 7 else s.bootFail 6 4
    | 7 =>
      let cores := (dieNums.map (fun d => (remapCores (s.die d).remap).map (fun p => d * 96 + p))).flatten
      let s : State := { s with order := cores, host := { s.host with booting := none } }
      (dieNums.foldl (fun s d => s.modDie d (fun x => { x with noid := !f.idOk })) s).showReady
    | n => s.beginStage (n + 1)

/-- Start-up begins at a step. -/
def State.boot (s : State) (stage : Nat) (f : StartFind) : State :=
  ({ s with host := { s.host with started := true, booting := some f } } : State).beginStage stage

/-- The host releases reset: step 1 is done, and start-up runs on step by step (R470). -/
def execResetRelease (f : StartFind) (s : State) : Host.Outcome State Fault Refusal := .next (if s.host.started then s else s.boot 1 f)

/-! ### Warm reset (R473) -/

/-- What a die keeps: the black box and its counters (R473, R489). -/
def Die.survive (x : Die) : Die := { dbg := { seq := x.dbg.seq, bbox := x.dbg.bbox, corr := x.dbg.corr, unc := x.dbg.unc, proto := x.dbg.proto } }

/-- What a core keeps: its orphan count (R489). -/
def PCore.survive (c : PCore) : PCore := { orphans := c.orphans }

/-- A warm reset: memory of the stacks, the slices and the near windows is unpredictable and clean, all but the mirrors; tasks, domains
and lists are gone, and what comes from outside still comes; start-up runs from step 2. A Worulmon request in progress is lost. -/
def State.warm (s : State) (f : StartFind) : State :=
  let t : State := { State.reset with
    free := s.free + 2, fresh := s.fresh, cfg := s.cfg, host := { s.host with pending := none }, memGen := s.free + 1
    mem := { mem := s.mem.mem.filter (fun t => inMirror t.1), pois := s.mem.pois.filter (fun g => inMirror (16 * g)) }
    agenda := s.agenda.filter (fun i => i.outside (s.die 0).pkg)
    dies := s.dies.map (fun x => (x.1, x.2.survive)), cores := s.cores.map (fun c => (c.1, c.2.survive)) }
  t.boot 2 f

/-- A CXL reset (R473). -/
def execWarmReset (f : StartFind) (s : State) : Host.Outcome State Fault Refusal := .next (if s.host.started then s.warm f else s)

/-- Power goes (R473, R489): nothing stays but what flash holds. -/
def State.powerOff (s : State) : State :=
  { State.reset with cfg := s.cfg, host := { line := s.host.line, minor := s.host.minor, build := s.host.build, serial := s.host.serial }, free := s.free, fresh := s.fresh }

/-- Power is removed (R489). -/
def execPowerRemoved (s : State) : Host.Outcome State Fault Refusal := .next s.powerOff

/-- The CXL link trains (R464). -/
def execCxlLinkTrained (lanes : Nat) (s : State) : Host.Outcome State Fault Refusal :=
  .next ({ s with host := { s.host with lanes := lanes } } : State).showReady

/-! ### The HDM range (R465) -/

/-- READY of the module: that of d0. -/
def State.isReady (s : State) : Bool := (s.die 0).ready

/-- The physical address of a host offset. -/
def State.hdmPA (s : State) (h : Nat) : Nat :=
  let d := h / 2 ^ 21 % 8
  (s.die 0).pkg * 2 ^ 44 + 0x200_0000_0000 + d * 2 ^ 38 + s.cfg.hdmOff + h / 2 ^ 24 * 2 ^ 21 + h % 2 ^ 21

/-- Bytes of a host access within the range, with their addresses. -/
def State.hdmBytes (s : State) (h : Nat) (bytes : List Nat) : List (Nat × Nat) :=
  (bytes.zipIdx.filter (fun t => h + t.2 < s.cfg.hdmSize)).map (fun t => (s.hdmPA (h + t.2), t.1))

/-- A host write: performed at the home, discarded before READY (R465). -/
def execHdmWrite (h : Nat) (bytes : List Nat) (s : State) : Host.Outcome State Fault Refusal :=
  .next (if s.isReady then s.storePA (s.hdmBytes h bytes) false false else s)

/-- What a host read returns: its bytes and whether it carries poison. -/
def State.hdmAnswer (s : State) (h n : Nat) : List Nat × Bool :=
  let pas := (s.hdmBytes h (List.replicate n 0)).map (fun t => t.1)
  if s.isReady then (pas.map (fun a => (s.readPA a).toNat), pas.any s.poisPA)
  else ((List.range n).map (fun i => (Config.freeByte s.free i).toNat), true)

/-- A host read (R465). -/
def execHdmRead (h n : Nat) (s : State) : Host.Outcome State Fault Refusal :=
  .next { s with host := { s.host with reads := s.host.reads ++ [s.hdmAnswer h n] }, free := s.free + 1 }

/-- A configuration request: 1 retry status until READY or FAILED, 0 a normal answer (R470, R471). -/
def execConfigRequest (s : State) : Host.Outcome State Fault Refusal :=
  .next { s with host := { s.host with cfgReplies := s.host.cfgReplies ++ [if s.isReady || (s.die 0).failed then 0 else 1] } }

/-! ### Worulmon (R474 to R477) -/

/-- A response of the vendor-defined type: header, completion code, payload. -/
def worulmon (inst cmd cc : Nat) (payload : List Nat) : List Nat := [0x7F, 0x00, 0x01, 0x2F, 0x7B, inst % 32, cmd, 0, cc] ++ payload

/-- Worulmon answers from step 2 of start-up on (R476). -/
def State.listens (s : State) : Bool := decide (2 ≤ (s.die 0).stage)

/-- A response leaves. -/
def State.respond (s : State) (r : List Nat) : State :=
  if s.listens then { s with host := { s.host with responses := s.host.responses ++ [r] } } else s

/-- The response of the request in progress leaves, and the module takes another one (R474). -/
def State.sendPending (s : State) : State :=
  match s.host.pending with
  | none => s
  | some r => ({ s with host := { s.host with pending := none } } : State).respond r

/-- A request of a command: one of more than 4,096 bytes is no message, one that arrives while another is in progress has completion code 4, and
any other is performed, with `f`'s completion code and payload as its response (R474, R476). -/
def State.request (s : State) (cmd : Nat) (q : Req) (f : State → State × Nat × List Nat) : State :=
  if !s.listens || 4096 < 8 + q.bytes.length then s
  else if s.host.pending.isSome then s.respond (worulmon q.inst cmd 4 [])
  else
    let (t, cc, r) := f s
    { t with host := { t.host with pending := some (worulmon q.inst cmd cc r) } }

/-- IDENT (R469). -/
def HostS.ident (h : HostS) : Nat := 0xB0 * 2 ^ 56 + h.line % 2 ^ 8 * 2 ^ 48 + h.minor % 2 ^ 16 * 2 ^ 32 + h.build % 2 ^ 32

/-- Start-up has failed, or has not ended: the code that holds a command back (R476). -/
def State.notReady (s : State) : Option Nat :=
  if (s.die 0).failed then some 6 else if (s.die 0).stage != 7 || s.host.booting.isSome then some 5 else none

/-- What the configuration image holds, as numbers. -/
def Cfg.image (c : Cfg) : List Nat :=
  [b2n c.p1en, b2n c.p0en, c.npkgm1, c.pkg, c.units, c.mhz, c.hdmSize, c.hdmOff, c.tthr] ++ (c.remap.map (fun t => [t.1, t.2])).flatten

/-- The result map of the self-test, as numbers: cores and gather engines mapped out. -/
def HostS.resultMap (h : HostS) : List Nat := h.selfTest.1.length :: (h.selfTest.1 ++ h.selfTest.2)

/-- A report's first 144 bytes (R477). -/
def State.reportHead (s : State) (nonce : List Nat) : List Nat :=
  let dg (k : Nat) (l : List Nat) : List Nat := (List.range 32).map (fun i => (Config.digest k l).getD i 0 % 256)
  nonce ++ dg 0 [s.host.line, s.host.minor, s.host.build] ++ dg 1 s.cfg.image ++ dg 2 s.host.resultMap
    ++ bytesOf 8 s.host.ident ++ bytesOf 8 s.host.serial

/-- Read sensors (R475). -/
def execReadSensors (r : Sensors) (s : State) : Host.Outcome State Fault Refusal :=
  .next (s.request 1 r.req (fun s =>
    if !r.req.bytes.isEmpty then (s, 3, [])
    else (s, 0, ((List.range 8).map (fun d => bytesOf 2 (if (s.elw d).halted then 0x7FFF else modI 16 (r.temps.getD d 0)))).flatten
      ++ bytesOf 2 r.power ++ bytesOf 2 r.millivolt ++ bytesOf 2 r.current ++ bytesOf 2 (modI 16 r.inlet) ++ bytesOf 2 s.host.cap)))

/-- The cap is divided among the dies as power-delivery limits (R442, R479). -/
def State.capDies (s : State) (cap : Nat) : State :=
  dieNums.foldl (fun s d => (s.modElw d (fun e => { e with powerLim := Config.powerLimit cap d })).limitChanged d)
    { s with host := { s.host with cap := cap, capped := true } }

/-- Set power cap (R475, R479). -/
def execSetPowerCap (payload : Req) (s : State) : Host.Outcome State Fault Refusal :=
  .next (s.request 2 payload (fun s =>
    match s.notReady with
    | some c => (s, c, [])
    | none =>
      let cap := ofBytes payload.bytes
      if payload.bytes.length != 2 || cap < 1000 || 2600 < cap || cap % 25 != 0 then (s, 3, []) else (s.capDies cap, 0, [])))

/-- What attestation answers: completion code and report (R472, R477). -/
def State.attested (s : State) (nonce : List Nat) : Nat × List Nat :=
  match s.notReady with
  | some c => (c, [])
  | none =>
    if nonce.length != 32 then (3, [])
    else if (s.die 0).noid then (2, [])
    else
      let r := s.reportHead nonce
      (0, r ++ (List.finRange 2420).map (fun i => (Config.signature r i).toNat))

/-- Attest (R472, R477): through Worulmon, or through the firmware's mailbox, which raises vector 520 for its response. -/
def execAttest (nonce : Req) (s : State) : Host.Outcome State Fault Refusal :=
  .next (if nonce.mailbox then
      let r := s.attested nonce.bytes
      { s with host := { s.host with mailbox := s.host.mailbox ++ [r.1 :: r.2], msix := NatSet.insert s.host.msix 520 } }
    else s.request 3 nonce (fun s => (s, s.attested nonce.bytes)))

/-- Read identity (R475). -/
def execReadIdentity (payload : Req) (s : State) : Host.Outcome State Fault Refusal :=
  .next (s.request 4 payload (fun s =>
    let off := ofBytes (payload.bytes.take 4)
    let len := ofBytes (payload.bytes.drop 4)
    let cert := Config.certificate
    if payload.bytes.length != 6 || 1024 < len || cert.length < off then (s, 3, [])
    else (s, 0, bytesOf 8 s.host.ident ++ bytesOf 8 s.host.serial ++ bytesOf 4 cert.length ++ ((cert.drop off).take len).map (fun b => b % 256))))

/-- Warm reset through Worulmon: the response is sent first (R475). -/
def execWorulmonWarmReset (payload : Req) (f : StartFind) (s : State) : Host.Outcome State Fault Refusal :=
  .next (let t := s.request 5 payload (fun s => if payload.bytes = [0xA5] then (s, 0, []) else (s, 3, []))
    if s.listens && s.host.pending.isNone && payload.bytes = [0xA5] then t.sendPending.warm f else t)

/-- Whether a vendor-defined message is a request that no command takes: its PEN or its reserved bits are wrong, or its CMD is unknown (R474). -/
def badRequest (msg : List Nat) : Bool :=
  msg.take 5 != [0x7F, 0x00, 0x01, 0x2F, 0x7B] || fld (msg.getD 5 0) 6 5 != 0 || msg.getD 7 0 != 0 || msg.getD 6 0 == 0 || 5 < msg.getD 6 0

/-- A request that is malformed or unknown: completion code 1 (R474); a response is none. -/
def execUnknownCommand (msg : List Nat) (s : State) : Host.Outcome State Fault Refusal :=
  .next (if bit (msg.getD 5 0) 7 && badRequest msg then s.request (msg.getD 6 0) { bytes := msg.drop 8, inst := msg.getD 5 0 } (fun s => (s, 1, [])) else s)

/-! ### MCTP control messages (R474) -/

/-- Set Endpoint ID. -/
def execSetEndpointId (n : Nat) (s : State) : Host.Outcome State Fault Refusal :=
  .next (if s.listens then ({ s with host := { s.host with eid := n % 256 } } : State).respond [0x00, 0x01, 0, n % 256] else s)

/-- Get Endpoint ID. -/
def execGetEndpointId (s : State) : Host.Outcome State Fault Refusal := .next (s.respond [0x00, 0x02, 0, s.host.eid])

/-- Get MCTP Version Support. -/
def execGetMctpVersionSupport (s : State) : Host.Outcome State Fault Refusal := .next (s.respond [0x00, 0x04, 0])

/-- Get Message Type Support: types 0x00 and 0x7F. -/
def execGetMessageTypeSupport (s : State) : Host.Outcome State Fault Refusal := .next (s.respond [0x00, 0x05, 0, 2, 0x00, 0x7F])

/-- Get Vendor Defined Message Support: the enterprise number. -/
def execGetVendorDefinedMessageSupport (s : State) : Host.Outcome State Fault Refusal :=
  .next (s.respond [0x00, 0x06, 0, 0x01, 0x00, 0x01, 0x2F, 0x7B])

/-- A message of any other type is dropped unanswered. -/
def execMctpOtherType (_t : Nat) (s : State) : Host.Outcome State Fault Refusal := .next s

/-! ### Power (R479) -/

/-- The power cap holds every die at the floor and power still exceeds it: HEVT KIND 4, and the module runs on. -/
def execPowerCapReached (d : Nat) (s : State) : Host.Outcome State Fault Refusal :=
  .next (if dieNums.all (fun k => (s.elw k).powerLim == 300) then (s.hostEvent d 4 d).blackBox d 10 0 (eventWord 4 d (s.elw d).gtime) else s)

end Sys2Proof.Machine
end

