-- ==== Sys2Proof/Machine/Dispatch.lean ====
section
/-! DEFINITION. The dispatch: one arm per instruction or event, each one call of its meaning. -/

namespace Sys2Proof.Machine

def exec (i : Instr) (s : State) : Host.Outcome State Fault Refusal :=
  match i with
  | .nop bh ck ic ilv => Sys2Proof.Machine.execNop bh ck ic ilv s
  | .add d a b => Sys2Proof.Machine.execAdd d a b s
  | .sub d a b => Sys2Proof.Machine.execSub d a b s
  | .mul d a b => Sys2Proof.Machine.execMul d a b s
  | .mulh d a b => Sys2Proof.Machine.execMulh d a b s
  | .div d a b => Sys2Proof.Machine.execDiv d a b s
  | .divn d a b => Sys2Proof.Machine.execDivn d a b s
  | .rem d a b => Sys2Proof.Machine.execRem d a b s
  | .remn d a b => Sys2Proof.Machine.execRemn d a b s
  | .and d a b => Sys2Proof.Machine.execAnd d a b s
  | .or d a b => Sys2Proof.Machine.execOr d a b s
  | .xor d a b => Sys2Proof.Machine.execXor d a b s
  | .shl d a b => Sys2Proof.Machine.execShl d a b s
  | .shrl d a b => Sys2Proof.Machine.execShrl d a b s
  | .shra d a b => Sys2Proof.Machine.execShra d a b s
  | .min d a b => Sys2Proof.Machine.execMin d a b s
  | .max d a b => Sys2Proof.Machine.execMax d a b s
  | .minn d a b => Sys2Proof.Machine.execMinn d a b s
  | .maxn d a b => Sys2Proof.Machine.execMaxn d a b s
  | .cmp d a b c => Sys2Proof.Machine.execCmp d a b c s
  | .sel d a b xc => Sys2Proof.Machine.execSel d a b xc s
  | .clz d a => Sys2Proof.Machine.execClz d a s
  | .popc d a => Sys2Proof.Machine.execPopc d a s
  | .bfx d a pos lm1 sx => Sys2Proof.Machine.execBfx d a pos lm1 sx s
  | .bfi d a b pos lm1 => Sys2Proof.Machine.execBfi d a b pos lm1 s
  | .addi d a imm => Sys2Proof.Machine.execAddi d a imm s
  | .andi d a imm => Sys2Proof.Machine.execAndi d a imm s
  | .ori d a imm => Sys2Proof.Machine.execOri d a imm s
  | .xori d a imm => Sys2Proof.Machine.execXori d a imm s
  | .shli d a n => Sys2Proof.Machine.execShli d a n s
  | .shrli d a n => Sys2Proof.Machine.execShrli d a n s
  | .shrai d a n => Sys2Proof.Machine.execShrai d a n s
  | .li d imm w => Sys2Proof.Machine.execLi d imm w s
  | .lih d imm => Sys2Proof.Machine.execLih d imm s
  | .fadd d a b r => Sys2Proof.Machine.execFadd d a b r s
  | .fmul d a b r => Sys2Proof.Machine.execFmul d a b r s
  | .ffma d a b xc r => Sys2Proof.Machine.execFfma d a b xc r s
  | .fcmp d a b c => Sys2Proof.Machine.execFcmp d a b c s
  | .fcvt d a w => Sys2Proof.Machine.execFcvt d a w s
  | .movs d n => Sys2Proof.Machine.execMovs d n s
  | .movd a n => Sys2Proof.Machine.execMovd a n s
  | .engctlResume p c k => Sys2Proof.Machine.execEngctlResume p c k s
  | .engctlCancel p c k => Sys2Proof.Machine.execEngctlCancel p c k s
  | .sete a k src imm => Sys2Proof.Machine.execSete a k src imm s
  | .ldg z d a imm w => Sys2Proof.Machine.execLdg z d a imm w s
  | .stg z src a imm w => Sys2Proof.Machine.execStg z src a imm w s
  | .ldl z d a imm w => Sys2Proof.Machine.execLdl z d a imm w s
  | .stl z src a imm w => Sys2Proof.Machine.execStl z src a imm w s
  | .br a b c off => Sys2Proof.Machine.execBr a b c off s
  | .j o => Sys2Proof.Machine.execJ o s
  | .call o => Sys2Proof.Machine.execCall o s
  | .jr a => Sys2Proof.Machine.execJr a s
  | .callr d a => Sys2Proof.Machine.execCallr d a s
  | .ret a => Sys2Proof.Machine.execRet a s
  | .brt ca cb cc neg cd off => Sys2Proof.Machine.execBrt ca cb cc neg cd off s
  | .loop d a lvl src tripi last => Sys2Proof.Machine.execLoop d a lvl src tripi last s
  | .bsw a imm => Sys2Proof.Machine.execBsw a imm s
  | .ifence => Sys2Proof.Machine.execIfence s
  | .barinit src a => Sys2Proof.Machine.execBarinit src a s
  | .bararr d a n => Sys2Proof.Machine.execBararr d a n s
  | .barwait d a p => Sys2Proof.Machine.execBarwait d a p s
  | .waitcc c n => Sys2Proof.Machine.execWaitcc c n s
  | .fenceL => Sys2Proof.Machine.execFenceL s
  | .fenceE => Sys2Proof.Machine.execFenceE s
  | .gbar d g => Sys2Proof.Machine.execGbar d g s
  | .gleave g => Sys2Proof.Machine.execGleave g s
  | .tdec d a n => Sys2Proof.Machine.execTdec d a n s
  | .endt => Sys2Proof.Machine.execEndt s
  | .yield => Sys2Proof.Machine.execYield s
  | .tkopen d a b td => Sys2Proof.Machine.execTkopen d a b td s
  | .tkadd a b xt td => Sys2Proof.Machine.execTkadd a b xt td s
  | .tkmin a b xt td => Sys2Proof.Machine.execTkmin a b xt td s
  | .tkmax a b xt td => Sys2Proof.Machine.execTkmax a b xt td s
  | .tkskip d a b td => Sys2Proof.Machine.execTkskip d a b td s
  | .tkdrain d a td => Sys2Proof.Machine.execTkdrain d a td s
  | .tkstat d a sel td => Sys2Proof.Machine.execTkstat d a sel td s
  | .tkclose d a f td => Sys2Proof.Machine.execTkclose d a f td s
  | .aadd d a b typ => Sys2Proof.Machine.execAadd d a b typ s
  | .amin d a b typ => Sys2Proof.Machine.execAmin d a b typ s
  | .amax d a b typ => Sys2Proof.Machine.execAmax d a b typ s
  | .axchg d a b typ => Sys2Proof.Machine.execAxchg d a b typ s
  | .acas d a b xc typ => Sys2Proof.Machine.execAcas d a b xc typ s
  | .xferOwned a b n1 => Sys2Proof.Machine.execXferOwned a b n1 s
  | .xferShared a b n1 => Sys2Proof.Machine.execXferShared a b n1 s
  | .xferEngine a b n1 => Sys2Proof.Machine.execXferEngine a b n1 s
  | .xferComplete p c => Sys2Proof.Machine.execXferComplete p c s
  | .lock d a b => Sys2Proof.Machine.execLock d a b s
  | .unlock d a b => Sys2Proof.Machine.execUnlock d a b s
  | .tokacq d a b => Sys2Proof.Machine.execTokacq d a b s
  | .tokrel d a b => Sys2Proof.Machine.execTokrel d a b s
  | .qbind n a dir fek add ai depth => Sys2Proof.Machine.execQbind n a dir fek add ai depth s
  | .qunbind n => Sys2Proof.Machine.execQunbind n s
  | .qsync n => Sys2Proof.Machine.execQsync n s
  | .qstat d n => Sys2Proof.Machine.execQstat d n s
  | .trap n => Sys2Proof.Machine.execTrap n s
  | .rett => Sys2Proof.Machine.execRett s
  | .brk n => Sys2Proof.Machine.execBrk n s
  | .vadd t d a b p w => Sys2Proof.Machine.execVadd t d a b p w s
  | .vsub t d a b p w => Sys2Proof.Machine.execVsub t d a b p w s
  | .vmul t d a b p w => Sys2Proof.Machine.execVmul t d a b p w s
  | .vfma t d a b p w => Sys2Proof.Machine.execVfma t d a b p w s
  | .vmin t d a b p => Sys2Proof.Machine.execVmin t d a b p s
  | .vmax t d a b p => Sys2Proof.Machine.execVmax t d a b p s
  | .vabs t d a p w => Sys2Proof.Machine.execVabs t d a p w s
  | .vneg t d a p w => Sys2Proof.Machine.execVneg t d a p w s
  | .vcmp t d a b p cond => Sys2Proof.Machine.execVcmp t d a b p cond s
  | .vred t d a o p => Sys2Proof.Machine.execVred t d a o p s
  | .vscan t d a o p => Sys2Proof.Machine.execVscan t d a o p s
  | .vshl w d a b p => Sys2Proof.Machine.execVshl w d a b p s
  | .vshrI w d a b p => Sys2Proof.Machine.execVshrI w d a b p s
  | .vshrN w d a b p => Sys2Proof.Machine.execVshrN w d a b p s
  | .vand d a b p => Sys2Proof.Machine.execVand d a b p s
  | .vor d a b p => Sys2Proof.Machine.execVor d a b p s
  | .vxor d a b p => Sys2Proof.Machine.execVxor d a b p s
  | .vnot d a p => Sys2Proof.Machine.execVnot d a p s
  | .vsel w d a b p => Sys2Proof.Machine.execVsel w d a b p s
  | .vmov w d a p => Sys2Proof.Machine.execVmov w d a p s
  | .vbcast w d x p => Sys2Proof.Machine.execVbcast w d x p s
  | .vrot w d x b p => Sys2Proof.Machine.execVrot w d x b p s
  | .vperm w d a b p => Sys2Proof.Machine.execVperm w d a b p s
  | .vshuf w d a b p => Sys2Proof.Machine.execVshuf w d a b p s
  | .vcompr w d a b p => Sys2Proof.Machine.execVcompr w d a b p s
  | .vexpd w d a b p => Sys2Proof.Machine.execVexpd w d a b p s
  | .vbcmp d a b p w => Sys2Proof.Machine.execVbcmp d a b p w s
  | .vbfind d a b p w => Sys2Proof.Machine.execVbfind d a b p w s
  | .vhash d a b p fin => Sys2Proof.Machine.execVhash d a b p fin s
  | .vcrc d a b p nb => Sys2Proof.Machine.execVcrc d a b p nb s
  | .vld d a k p w => Sys2Proof.Machine.execVld d a k p w s
  | .vst src a k p w => Sys2Proof.Machine.execVst src a k p w s
  | .vlda d a k p w => Sys2Proof.Machine.execVlda d a k p w s
  | .vsta src a k p w => Sys2Proof.Machine.execVsta src a k p w s
  | .vstaAdd src a k p w => Sys2Proof.Machine.execVstaAdd src a k p w s
  | .vtkadd src a k p xt td => Sys2Proof.Machine.execVtkadd src a k p xt td s
  | .vtkmin src a k p xt td => Sys2Proof.Machine.execVtkmin src a k p xt td s
  | .vtkmax src a k p xt td => Sys2Proof.Machine.execVtkmax src a k p xt td s
  | .vaadd src a k p vr ret uns => Sys2Proof.Machine.execVaadd src a k p vr ret uns s
  | .vamin src a k p vr ret uns => Sys2Proof.Machine.execVamin src a k p vr ret uns s
  | .vamax src a k p vr ret uns => Sys2Proof.Machine.execVamax src a k p vr ret uns s
  | .vaxchg src a k p vr ret uns => Sys2Proof.Machine.execVaxchg src a k p vr ret uns s
  | .vexp2 t d a p => Sys2Proof.Machine.execVexp2 t d a p s
  | .vlog2 t d a p => Sys2Proof.Machine.execVlog2 t d a p s
  | .vrcp t d a p => Sys2Proof.Machine.execVrcp t d a p s
  | .vrsq t d a p => Sys2Proof.Machine.execVrsq t d a p s
  | .vtanh t d a p => Sys2Proof.Machine.execVtanh t d a p s
  | .vsigm t d a p => Sys2Proof.Machine.execVsigm t d a p s
  | .vcvt d a pv pq w => Sys2Proof.Machine.execVcvt d a pv pq w s
  | .vrng d m p => Sys2Proof.Machine.execVrng d m p s
  | .pand d a b => Sys2Proof.Machine.execPand d a b s
  | .por d a b => Sys2Proof.Machine.execPor d a b s
  | .pxor d a b => Sys2Proof.Machine.execPxor d a b s
  | .pnot d a => Sys2Proof.Machine.execPnot d a s
  | .pcnt d a w p => Sys2Proof.Machine.execPcnt d a w p s
  | .rowpred d a b p w => Sys2Proof.Machine.execRowpred d a b p w s
  | .rcwupd d a b c blk => Sys2Proof.Machine.execRcwupd d a b c blk s
  | .rcwadv d a p blk => Sys2Proof.Machine.execRcwadv d a p blk s
  | .rcwld d a t p blk => Sys2Proof.Machine.execRcwld d a t p blk s
  | .rcpdef d src => Sys2Proof.Machine.execRcpdef d src s
  | .rcpdefEmbedded d a w => Sys2Proof.Machine.execRcpdefEmbedded d a w s
  | .drop d => Sys2Proof.Machine.execDrop d s
  | .rcpclr d => Sys2Proof.Machine.execRcpclr d s
  | .rcpclrAll => Sys2Proof.Machine.execRcpclrAll s
  | .rcpstat d a => Sys2Proof.Machine.execRcpstat d a s
  | .ttw a w => Sys2Proof.Machine.execTtw a w s
  | .ttr d w => Sys2Proof.Machine.execTtr d w s
  | .mma src b n w => Sys2Proof.Machine.execMma src b n w s
  | .mmap src b n w => Sys2Proof.Machine.execMmap src b n w s
  | .mscl n a => Sys2Proof.Machine.execMscl n a s
  | .mzero n => Sys2Proof.Machine.execMzero n s
  | .mtile n a => Sys2Proof.Machine.execMtile n a s
  | .mtileImm n w => Sys2Proof.Machine.execMtileImm n w s
  | .copy h => Sys2Proof.Machine.execCopy h s
  | .gath h => Sys2Proof.Machine.execGath h s
  | .exsave h => Sys2Proof.Machine.execExsave h s
  | .trunc h => Sys2Proof.Machine.execTrunc h s
  | .sieve h => Sys2Proof.Machine.execSieve h s
  | .resto h => Sys2Proof.Machine.execResto h s
  | .fillGap h => Sys2Proof.Machine.execFillGap h s
  | .fillSeal h => Sys2Proof.Machine.execFillSeal h s
  | .fillRequant h => Sys2Proof.Machine.execFillRequant h s
  | .fillUnseal h => Sys2Proof.Machine.execFillUnseal h s
  | .coll h => Sys2Proof.Machine.execColl h s
  | .noteSend h => Sys2Proof.Machine.execNoteSend h s
  | .noteRegister h => Sys2Proof.Machine.execNoteRegister h s
  | .noteDeregister h => Sys2Proof.Machine.execNoteDeregister h s
  | .notePurge h => Sys2Proof.Machine.execNotePurge h s
  | .implicitCheckpoint p c => Sys2Proof.Machine.execImplicitCheckpoint p c s
  | .commandStart q => Sys2Proof.Machine.execCommandStart q s
  | .engineCompletion q => Sys2Proof.Machine.execEngineCompletion q s
  | .engineFault q => Sys2Proof.Machine.execEngineFault q s
  | .loadDataArrive p c n => Sys2Proof.Machine.execLoadDataArrive p c n s
  | .lateData p c n => Sys2Proof.Machine.execLateData p c n s
  | .feWaitSatisfy p c n => Sys2Proof.Machine.execFeWaitSatisfy p c n s
  | .streamFetch p c q => Sys2Proof.Machine.execStreamFetch p c q s
  | .recipeReplay p c r => Sys2Proof.Machine.execRecipeReplay p c r s
  | .matrixResultWrite p n => Sys2Proof.Machine.execMatrixResultWrite p n s
  | .pairTimeout p c => Sys2Proof.Machine.execPairTimeout p c s
  | .flowstoneDemand d => Sys2Proof.Machine.execFlowstoneDemand d s
  | .ticketPartArrive n => Sys2Proof.Machine.execTicketPartArrive n s
  | .ticketPartRetry n => Sys2Proof.Machine.execTicketPartRetry n s
  | .ticketGap l td => Sys2Proof.Machine.execTicketGap l td s
  | .asyncTrap p c => Sys2Proof.Machine.execAsyncTrap p c s
  | .selectorPromotion p c => Sys2Proof.Machine.execSelectorPromotion p c s
  | .waitYield p c => Sys2Proof.Machine.execWaitYield p c s
  | .taskDispatch p c => Sys2Proof.Machine.execTaskDispatch p c s
  | .launchComplete d n => Sys2Proof.Machine.execLaunchComplete d n s
  | .preempt p c => Sys2Proof.Machine.execPreempt p c s
  | .taskTerminate p c => Sys2Proof.Machine.execTaskTerminate p c s
  | .memoryError code space unit addr correctable => Sys2Proof.Machine.execMemoryError code space unit addr correctable s
  | .thermalSample d temps forecast => Sys2Proof.Machine.execThermalSample d temps forecast s
  | .blackboxMirror d => Sys2Proof.Machine.execBlackboxMirror d s
  | .ceilingChangeApply d => Sys2Proof.Machine.execCeilingChangeApply d s
  | .hbSend d => Sys2Proof.Machine.execHbSend d s
  | .silenceTest d => Sys2Proof.Machine.execSilenceTest d s
  | .evictTimeout d => Sys2Proof.Machine.execEvictTimeout d s
  | .raiseDeadline d => Sys2Proof.Machine.execRaiseDeadline d s
  | .joinDeadline d => Sys2Proof.Machine.execJoinDeadline d s
  | .hb d m => Sys2Proof.Machine.execHb d m s
  | .lower d m => Sys2Proof.Machine.execLower d m s
  | .raise d m => Sys2Proof.Machine.execRaise d m s
  | .ack d m => Sys2Proof.Machine.execAck d m s
  | .commit d m => Sys2Proof.Machine.execCommit d m s
  | .cancel d m => Sys2Proof.Machine.execCancel d m s
  | .join d m => Sys2Proof.Machine.execJoin d m s
  | .joinack d m => Sys2Proof.Machine.execJoinack d m s
  | .joinabort d m => Sys2Proof.Machine.execJoinabort d m s
  | .leave d m => Sys2Proof.Machine.execLeave d m s
  | .evict d m => Sys2Proof.Machine.execEvict d m s
  | .elwBadOp d m => Sys2Proof.Machine.execElwBadOp d m s
  | .rdreq m => Sys2Proof.Machine.execRdreq m s
  | .rdrsp m => Sys2Proof.Machine.execRdrsp m s
  | .wrreq m => Sys2Proof.Machine.execWrreq m s
  | .wrack m => Sys2Proof.Machine.execWrack m s
  | .tkpart m => Sys2Proof.Machine.execTkpart m s
  | .tkack m => Sys2Proof.Machine.execTkack m s
  | .aareq m => Sys2Proof.Machine.execAareq m s
  | .aarsp m => Sys2Proof.Machine.execAarsp m s
  | .nack m => Sys2Proof.Machine.execNack m s
  | .tkconf m => Sys2Proof.Machine.execTkconf m s
  | .notice m => Sys2Proof.Machine.execNotice m s
  | .noteack m => Sys2Proof.Machine.execNoteack m s
  | .tokreq m => Sys2Proof.Machine.execTokreq m s
  | .tokgrant m => Sys2Proof.Machine.execTokgrant m s
  | .tokrecall m => Sys2Proof.Machine.execTokrecall m s
  | .tokreturn m => Sys2Proof.Machine.execTokreturn m s
  | .collrdy m => Sys2Proof.Machine.execCollrdy m s
  | .flitCrcRetry d hop => Sys2Proof.Machine.execFlitCrcRetry d hop s
  | .hopDown d hop => Sys2Proof.Machine.execHopDown d hop s
  | .flitUnknownKind m => Sys2Proof.Machine.execFlitUnknownKind m s
  | .launch d n => Sys2Proof.Machine.execLaunch d n s
  | .launchi d n => Sys2Proof.Machine.execLaunchi d n s
  | .waitc d n => Sys2Proof.Machine.execWaitc d n s
  | .waitcObserved d n => Sys2Proof.Machine.execWaitcObserved d n s
  | .signalAdd d n => Sys2Proof.Machine.execSignalAdd d n s
  | .signalSet d n => Sys2Proof.Machine.execSignalSet d n s
  | .signalTdec d n => Sys2Proof.Machine.execSignalTdec d n s
  | .skipif d n => Sys2Proof.Machine.execSkipif d n s
  | .listJump d n => Sys2Proof.Machine.execListJump d n s
  | .listCall d n => Sys2Proof.Machine.execListCall d n s
  | .listRet d n => Sys2Proof.Machine.execListRet d n s
  | .listLoop d n => Sys2Proof.Machine.execListLoop d n s
  | .listXfer d n => Sys2Proof.Machine.execListXfer d n s
  | .listFlush d n => Sys2Proof.Machine.execListFlush d n s
  | .listFence d n => Sys2Proof.Machine.execListFence d n s
  | .submitGo d n => Sys2Proof.Machine.execSubmitGo d n s
  | .nmcfgWrite d v => Sys2Proof.Machine.execNmcfgWrite d v s
  | .carveoutComplete d => Sys2Proof.Machine.execCarveoutComplete d s
  | .xlinvAll d => Sys2Proof.Machine.execXlinvAll d s
  | .xlinvAsid d asid => Sys2Proof.Machine.execXlinvAsid d asid s
  | .xlinvPage d asid va => Sys2Proof.Machine.execXlinvPage d asid va s
  | .xlinvDone d => Sys2Proof.Machine.execXlinvDone d s
  | .xlresume d n => Sys2Proof.Machine.execXlresume d n s
  | .accsvSave p td => Sys2Proof.Machine.execAccsvSave p td s
  | .domainSaveDone p => Sys2Proof.Machine.execDomainSaveDone p s
  | .accsvRestore p td => Sys2Proof.Machine.execAccsvRestore p td s
  | .elwctlJoin d => Sys2Proof.Machine.execElwctlJoin d s
  | .elwctlLeave d => Sys2Proof.Machine.execElwctlLeave d s
  | .elwctlCap d mhz => Sys2Proof.Machine.execElwctlCap d mhz s
  | .elwevtPop d => Sys2Proof.Machine.execElwevtPop d s
  | .hevtPop d => Sys2Proof.Machine.execHevtPop d s
  | .dbgStop p c => Sys2Proof.Machine.execDbgStop p c s
  | .dbgUnstop p c => Sys2Proof.Machine.execDbgUnstop p c s
  | .dbgdataRead d => Sys2Proof.Machine.execDbgdataRead d s
  | .rbaseWrite d r v => Sys2Proof.Machine.execRbaseWrite d r v s
  | .registerWrite d off v => Sys2Proof.Machine.execRegisterWrite d off v s
  | .resetRelease f => Sys2Proof.Machine.execResetRelease f s
  | .warmReset f => Sys2Proof.Machine.execWarmReset f s
  | .hdmWrite h bytes => Sys2Proof.Machine.execHdmWrite h bytes s
  | .hdmRead h n => Sys2Proof.Machine.execHdmRead h n s
  | .configRequest => Sys2Proof.Machine.execConfigRequest s
  | .readSensors r => Sys2Proof.Machine.execReadSensors r s
  | .setPowerCap payload => Sys2Proof.Machine.execSetPowerCap payload s
  | .attest nonce => Sys2Proof.Machine.execAttest nonce s
  | .readIdentity payload => Sys2Proof.Machine.execReadIdentity payload s
  | .worulmonWarmReset payload f => Sys2Proof.Machine.execWorulmonWarmReset payload f s
  | .setEndpointId n => Sys2Proof.Machine.execSetEndpointId n s
  | .getEndpointId => Sys2Proof.Machine.execGetEndpointId s
  | .getMctpVersionSupport => Sys2Proof.Machine.execGetMctpVersionSupport s
  | .getMessageTypeSupport => Sys2Proof.Machine.execGetMessageTypeSupport s
  | .getVendorDefinedMessageSupport => Sys2Proof.Machine.execGetVendorDefinedMessageSupport s
  | .mctpOtherType t => Sys2Proof.Machine.execMctpOtherType t s
  | .resumption task => Sys2Proof.Machine.execResumption task s
  | .retryAfterCancel d => Sys2Proof.Machine.execRetryAfterCancel d s
  | .powerCapReached d => Sys2Proof.Machine.execPowerCapReached d s
  | .powerRemoved => Sys2Proof.Machine.execPowerRemoved s
  | .cxlLinkTrained lanes => Sys2Proof.Machine.execCxlLinkTrained lanes s
  | .unknownCommand msg => Sys2Proof.Machine.execUnknownCommand msg s

end Sys2Proof.Machine
end

