-- ==== Sys2Proof/Machine/Issue.lean ====
section
/-! DEFINITION. The issue of a bundle: its operations in slot order, the end of its context cycle, its commit (R34 to R46, R60,
R306, R307, R354, R360 to R364, R395 to R398). -/

namespace Sys2Proof.Machine

/-! ### Images (R36, R37) -/

def rowOr (r : Except Trap (Nat × Nat × Nat)) : Nat :=
  match r with
  | .ok r => rowAddr r
  | .error _ => 0

def accOr (r : Except Trap (Nat × Bool)) : Nat :=
  match r with
  | .ok r => r.1
  | .error _ => 0

/-- The address that an image records of an operation with a memory operand. -/
def State.opAddr (s : State) : Instr → Nat
  | .ldg _ _ a i w | .stg _ _ a i w | .ldl _ _ a i w | .stl _ _ a i w => s.scalarEa a i w
  | .barinit _ a | .bararr _ a _ | .barwait _ a _ | .tkopen _ a _ _ | .tkskip _ a _ _ | .tkdrain _ a _ | .tkstat _ a _ _
  | .tkclose _ a _ _ | .tkadd a _ _ _ | .tkmin a _ _ _ | .tkmax a _ _ _ | .aadd _ a _ _ | .amin _ a _ _ | .amax _ a _ _
  | .axchg _ a _ _ | .acas _ a _ _ _ => s.effAddr (s.rx a).toNat
  | .vld _ a k _ w | .vst _ a k _ w => rowOr (s.vmRow false a k w)
  | .vlda _ a k _ w | .vsta _ a k _ w | .vstaAdd _ a k _ w => rowOr (s.vmRow true a k w)
  | .vtkadd _ a k _ _ _ | .vtkmin _ a k _ _ _ | .vtkmax _ a k _ _ _ | .vaadd _ a k _ _ _ _ | .vamin _ a k _ _ _ _
  | .vamax _ a k _ _ _ _ | .vaxchg _ a k _ _ _ _ => accOr (s.accRow a k)
  | .mma a b _ _ | .mmap a b _ _ => (s.matBases a b).1 + (s.matBases a b).2 * 2 ^ 32
  | _ => 0

/-- The staging set that an image records of a command. -/
def State.opSet (s : State) (i : Instr) : List Nat :=
  match i.cmdOf with
  | some (k, op, h) => s.captureStg k op h.set
  | none => []

/-- The image of an operation as it issues. -/
def State.imageOf (s : State) (x : SlotInst) : Image := ⟨x.w, x.w2, x.i, s.opAddr x.i, s.opSet x.i⟩

/-! ### Slots -/

/-- Operations that act once their bundle has committed (R392, R408, R409). -/
def Instr.actsAfter : Instr → Bool
  | .endt | .yield | .trap _ | .brk _ | .rett => true
  | _ => false

/-- The next state of an outcome. -/
def nextOr (s : State) : Host.Outcome State Fault Refusal → State
  | .next t => t
  | _ => s

/-- An operation of the bundle issues, and its image is recorded. -/
def State.issueSlot (s : State) (x : SlotInst) : State :=
  let v := s.atSlot x
  let im := v.imageOf x
  let t := if Instr.actsAfter x.i then v.modBun (fun b => { b with after := some x.i }) else nextOr v (exec x.i v)
  t.modAr (fun a => { a with images := Tbl.put a.images x.slot im })

/-- Whether the bundle commits as if CK were set (R398). One that holds a strong access behind a strong store of its own takes the implicit
checkpoint that lies between the two at its end (R119, R347, log 66). -/
def State.asIf (s : State) (o : Offer) : Bool :=
  strongPair o.ops || o.ops.any (fun x => x.i.commits || (match x.i with
    | .qsync n => match s.stream n with
      | some st => st.dir == 1
      | none => false
    | _ => false))

/-! ### Loop ends (R362, R363) -/

/-- Level n ends: its registers stay (R361, R362). -/
def Arch.endLevel (a : Arch) (n : Nat) : Arch :=
  { a.setSr (0x020 + n) (BitVec.ofNat 64 ((a.getSr (0x020 + n)).toNat % 2 ^ 32)) with
    loops := Tbl.del a.loops n
    ended := match a.loops.find? (fun t => t.1 == n) with
      | some (_, l) => Tbl.put a.ended n l
      | none => a.ended }

/-- The writes of end processing, in a position after C1 (R362). -/
def Arch.applyEnd (a : Arch) (pc : Nat) (e : LoopEnd) : Arch :=
  let a := e.idx.foldl (fun a t => a.setSr (0x026 + t.1) (BitVec.ofNat 64 t.2)) a
  let a := e.off.foldl (fun a n => a.endLevel n) a
  match e.ind with
  | none => a
  | some (r, v) => a.landReg ⟨a.scyc, a.scyc, 9, pc, .x, r, v, none⟩

/-- Levels whose body does not contain a target (R363). -/
def Arch.leftBy (a : Arch) (x : Nat) : List Nat := (a.loops.filter (fun t => !t.2.contains x)).map (fun t => t.1)

/-- A binding ends with its bundle's context cycle: results of the bundle's own slots belong to it yet (R160), lines that it was brought go. -/
def State.leave (s : State) (n : Nat) : State :=
  (s.dropGot (fun r => r == streamKey s.cur s.ctx n)).modAr (fun a => { a with old := match a.streams.find? (fun t => t.1 == n) with
    | some (_, st) => if a.flightTo n != 0 then Tbl.put a.old n (a.scyc, st) else a.old
    | none => a.old })

/-- A write that lands at the end of the bundle's own context cycle (R158, R163, R241, R361). -/
def State.endOp (s : State) : EndOp → State
  | .bind n none => (s.leave n).modCx (fun k => { k with arch := { k.arch with streams := Tbl.del k.arch.streams n }, win := Tbl.del k.win n, swait := Tbl.del k.swait n })
  | .bind n (some st) =>
    (s.leave n).modCx (fun k => { k with arch := { k.arch with streams := Tbl.put k.arch.streams n st }, win := Tbl.del k.win n, swait := Tbl.del k.swait n })
  | .loopSet l trip start last ind act => s.modAr (fun a =>
      let a := (a.setSr (0x020 + l) (BitVec.ofNat 64 (b2n act * 2 ^ 63 + trip))).setSr (0x026 + l) 0
      { a with loops := if act then Tbl.put a.loops l ⟨start, last, ind⟩ else Tbl.del a.loops l
               ended := if act then Tbl.del a.ended l else Tbl.put a.ended l ⟨start, last, ind⟩ })
  | .rng => s
  | .sync n => (s.dropGot (fun r => r == streamKey s.cur s.ctx n)).modCx (fun k => { k with win := Tbl.del k.win n, swait := Tbl.del k.swait n })

/-- The bundle's consuming operations (R241). -/
def Bun.draws (b : Bun) : Nat := (b.ends.filter (fun e => e == .rng)).length

/-- The streams that the bundle read advance by one element, once (R46). -/
def State.consume (s : State) : State :=
  s.bun.reads.foldl (fun s q => s.modCx (fun k => { k with
    win := Tbl.put k.win q ((Tbl.get [] k.win q).drop 1)
    arch := { k.arch with streams := k.arch.streams.map (fun t => if t.1 = q then (t.1, { t.2 with pos := t.2.pos + 1 }) else t) } })) s

/-! ### Snapshots of the conflict matrix (R485) -/

/-- A level-0 loop of a context on a core with SNAP has ended. -/
def State.snapshot (s : State) (pc : Nat) : State :=
  let d := dieOf s.cur
  let cl := s.cluster (clusterOf s.cur)
  let head := [s.cur % 96 * 2 ^ 56 + s.ctx * 2 ^ 48 + clusterOf s.cur % 4 * 2 ^ 40, pc, s.ar.scyc, (s.die d).elw.gtime, 0, 0, 0, 0]
  if (s.core s.cur).snap then
    s.ringPut d 2 3392 (joinEl 64 head + 2 ^ 512 * joinEl 32 ((List.range 832).map (fun i => Tbl.get 0 cl.cells i)))
  else s

/-! ### A bundle up to the end of its context cycle -/

/-- The bundle's operations, in slot order, as one issue (R42, R43). -/
def State.issueOps (s : State) (o : Offer) : State :=
  let t := ((s.fetchTo o.a).openBun o).modBun (fun b => { b with checked := true, asif := s.asIf o })
  let t := o.ops.foldl (fun s x => s.issueSlot x) t
  { t with kept := none, slot := 0 }

/-- The end of the context cycle: results land, loops end, the pc moves (R8, R60, R354, R362, R363). -/
def State.endBundle (s : State) (o : Offer) : State :=
  let seen := s.ar
  let b := s.bun
  let e := if b.noEnd then {} else seen.endTest (seen.endsAt o.a)
  let ctr := (seen.getSr 0x007).toNat
  let s := s.consume.modAr (fun a => { a with scyc := a.scyc + 1 })
  let s := s.endCycle
  let s := if b.draws = 0 then s else s.modAr (fun a => a.setSr 0x007 (BitVec.ofNat 64 (ctr + b.draws)))
  let left := if b.outAll then seen.loops.map (fun t => t.1) else (b.out.map (fun x => seen.leftBy x)).getD []
  let s := s.modAr (fun a => (left.foldl (fun a n => a.endLevel n) a))
  let s := b.ends.foldl (fun s x => s.endOp x) s
  let s := s.modAr (fun a => { a.applyEnd o.a e with pc := (b.target.or e.back).getD (s.fallOf o.a b.words) })
  let s := if (e.off ++ left).contains 0 then s.modBun (fun b => { b with snap := some (((seen.loops.find? (fun t => t.1 == 0)).map (fun t => t.2.last)).getD o.a) }) else s
  let s := match b.target with
    | some t => s.traceRec 1 o.a s.ar.scyc t
    | none => s
  let dup := (s.core s.cur).dup && o.ops.any (fun x => inRange 2 4 x.slot)
  s.modCx (fun k => { k with offer := (s.core s.cur).cyc + b.cost + b2n dup, nb := k.nb + 1, waited := 0, drainOn := none, drainGo := none, bnd := false, chain := false })

/-- The bundle issues, up to its commit. -/
def State.issueRun (s : State) (o : Offer) : State :=
  let t := (s.issueOps o).endBundle o
  { t with free := t.free + 1024 }

/-! ### The bundle's commit -/

/-- Whether the issued bundle commits (R35, R398). -/
def Bun.commits (b : Bun) : Bool := b.ck || b.asif

/-- A fetched packet that the lot names is fetched anew when it is next asked for (R151). -/
def Ctx.lapse (n : Nat) (k : Ctx) : Ctx :=
  match k.pkts[(n + k.pkts.length) % (k.pkts.length + 1)]? with
  | none => k
  | some t => { k with pkts := Tbl.del k.pkts t.1, pktPois := NatSet.erase k.pktPois t.1 }

/-- After a bundle of context `c` of core `p`, the TLBs keep the pages `vas` that it has used, and the lot is drawn anew (R81, R151). -/
def State.settleCaches (s : State) (p c asid : Nat) (vas : List Nat) : State :=
  ((vas.foldl (fun s va => s.tlbFill p asid va) s).modCtxAt p c (Ctx.lapse (s.lot / 2 ^ 8))).draw

/-- What ends the issue of a bundle: its commit and what follows it, or its captures. An ENDT's commit performs the elements in flight (R392). -/
def State.issueEnd (s : State) : State :=
  let b := s.bun
  let s := if b.after = some .endt then s.flushStreams else s
  let t := if b.commits && !s.elemFailed then (s.commit b.ops b.ck).runAfter
    else ({ s with bun := {}, kept := none } : State).modCx (fun k => { k with held := k.held ++ b.ops })
  t.settleCaches s.cur s.ctx s.asid b.pages

/-! ### Whether it fits (R138, R396, R397, R410) -/

/-- Entries whose bytes are on their way to their home (R397). -/
def State.unanswered (t : State) : Nat :=
  (t.dies.map (fun d => (d.2.copies.filter (fun k => k.m.kind == 3 && k.req == 0 && k.task == t.tid)).length)).foldl (fun a b => a + b) 0

/-- Whether the state after a bundle keeps to the buffers of its context. -/
def State.fits (t : State) : Bool :=
  decide ((t.cx.wbuf.filter (fun e => e.own)).length + 4 * t.ar.appends + t.unanswered ≤ 64) && decide (t.cx.wrote.length ≤ 16)
    && decide ((heldCmds (t.cx.held ++ t.bun.ops)).length ≤ 16)

/-- The boundary before a bundle that does not fit takes an implicit checkpoint, once (R138, R396, R397). -/
def State.makeRoom (s : State) (o : Offer) : State :=
  if !s.cx.bnd && !(s.issueRun o).fits && s.canCommit [] then (s.implicitCommit).modCx (fun k => { k with bnd := true }) else s

/-- Whether the issued bundle may stand: it fits, no more than 32 loads are open, and its commit can be made (R138, R397, R410). -/
def State.stands (t : State) : Bool := t.fits && decide (t.ar.loads.length ≤ 32) && (!t.bun.commits || t.canCommit t.bun.ops)

/-- The snapshot that an issued bundle has due, if any. -/
def State.snapOut (s : State) : State :=
  match s.bun.snap with
  | none => s
  | some pc => s.snapshot pc

/-- The bundle that a context offers issues, unless its buffers, its commit or its loads hold it back. -/
def State.issue (s : State) (o : Offer) : Option State :=
  let t := s.issueRun o
  if t.stands then some t.snapOut.issueEnd else none

/-! ### Driving the selector from the log (R484) -/

/-- The entry at an offset of ring 1. -/
def State.logEntry (s : State) (d o : Nat) : Nat := s.readPAn (Tbl.get 0 (s.die d).dbg.rbase 1 + o) 4

/-- The next entry for a core at or after offset `o`: its offset, context and run. -/
def State.nextEntry (s : State) (p : Nat) : Nat → Nat → Option (Nat × Nat × Nat)
  | 0, _ => none
  | f + 1, o =>
    if Tbl.get 0 (s.die (dieOf p)).dbg.rhead 1 ≤ o then none
    else
      let w := s.logEntry (dieOf p) o
      if fld w 31 25 = p % 96 && fld w 24 22 < 4 && fld w 21 0 != 0 then some (o, fld w 24 22, fld w 21 0) else s.nextEntry p f (o + 4)

/-- The entry that drives a core now: its offset, context, and the bundles it still has to issue. -/
def State.driving (s : State) (p : Nat) : Option (Nat × Nat × Nat) :=
  let c := s.core p
  match s.nextEntry p (Tbl.get 0 (s.die (dieOf p)).dbg.rhead 1 / 4 + 1) c.replayAt with
  | none => none
  | some (o, k, n) => some (o, k, if c.replayRun = 0 then n else c.replayRun)

/-! ### Joint issue (R307) -/

/-- The MMAP of a bundle. -/
def Offer.pair (o : Offer) : Option MmaW :=
  o.ops.findSome? (fun x => match x.i with
    | .mmap _ _ _ w => some w
    | _ => none)

/-- Where the partner of the issuing context is presented, and what it offers. -/
def State.partnerOffer (s : State) (w : MmaW) : Option (Nat × Nat × Prep) :=
  match s.partner w.gid with
  | none => none
  | some (gid, t) =>
    (s.presentedAt t gid).map (fun k => (k.1, k.2, ({ s with cur := k.1, ctx := k.2, bun := {} } : State).prep))

/-- Runs `f` for a context and returns what it leaves of the bundle too. -/
def State.halfRun (s : State) (p c : Nat) (o : Offer) : State × Bun :=
  let t := ({ s with bun := {} } : State).within p c (fun s => s.issueRun o)
  (t, t.bun)

/-- Ends the issue of a half. -/
def State.halfEnd (s : State) (p c : Nat) (b : Bun) : State :=
  ({ s with bun := b } : State).within p c (fun s => s.issueEnd)

/-- Whether a half may stand. -/
def State.halfStands (s : State) (p c : Nat) (b : Bun) : Bool := ({ s with bun := b, cur := p, ctx := c } : State).stands

/-- The snapshot that a half has due, if any. -/
def State.halfSnap (s : State) (p c : Nat) (b : Bun) : State := ({ s with bun := b } : State).within p c (fun s => s.snapOut)

/-- Whether the log that drives another core, if any, lets its context `c` issue (R484). -/
def State.mayJoin (s : State) (p c : Nat) : Bool :=
  p == s.cur || !(s.core p).replay || (match s.driving p with
    | none => true
    | some (_, k, _) => k == c || (s.ctxAt p k).task.isNone)

/-- Both bundles of a pair issue, the follower's operations first, since they read the leader's as presented (R307), snapshots in the order of the
cores (R485). Neither presentation outlasts the issue. The partner's core has its choice for the cycle that it comes to with it. -/
def State.jointIssue (s : State) (o : Offer) (p c : Nat) (q : Offer) (leads : Bool) : Option State :=
  let me := (s.cur, s.ctx)
  let (f, fo, l, lo) := if leads then ((p, c), q, me, o) else (me, o, (p, c), q)
  let (s, fb) := s.halfRun f.1 f.2 fo
  let (s, lb) := s.halfRun l.1 l.2 lo
  if s.halfStands f.1 f.2 fb && s.halfStands l.1 l.2 lb then
    let s := if f.1 ≤ l.1 then (s.halfSnap f.1 f.2 fb).halfSnap l.1 l.2 lb else (s.halfSnap l.1 l.2 lb).halfSnap f.1 f.2 fb
    let s := (s.modCtxAt p c (fun k => { k with presented := none, offer := k.offer + b2n (p != s.cur) })).modCx (fun k => { k with presented := none })
    some (((s.halfEnd f.1 f.2 fb).halfEnd l.1 l.2 lb).modCore p (fun q => { q with joint := some c }))
  else none

/-- A bundle with an MMAP whose partner is presented: both issue, or the partner's trap is taken, or it waits presented; whether it issues. -/
def State.issuePair (s : State) (o : Offer) (w : MmaW) : Option (State × Bool) :=
  let s := s.presentPair w
  match s.partnerOffer w, s.partner w.gid with
  | some (p, c, .go q), some (_, t) => if s.mayJoin p c then (s.jointIssue o p c q (s.leads t)).map (fun t => (t, true)) else none
  | some (p, c, .trap q x t), _ => some (s.within p c (fun s => s.trapOffer q x t), false)
  | _, _ => none

end Sys2Proof.Machine
end

