-- ==== Sys2Proof/Machine/Select.lean ====
section
/-! DEFINITION. A core cycle of a physical core: its contexts wait or replay, the selector chooses one, and the chosen one issues
or traps (R25, R222, R384, R385, R481, R483, R484). -/

namespace Sys2Proof.Machine

/-! ### The contexts of a core -/

/-- A load of a stopped context: its window does not advance (R481). -/
def PendLoad.shift (q : PendLoad) : PendLoad := { q with dueAt := q.dueAt.map (fun n => n + 1) }

/-- A core cycle of a stopped context (R481). -/
def Ctx.stoppedCycle (k : Ctx) : Ctx :=
  { k with presented := k.presented.map (fun t => (t.1, t.2.1 + 1, t.2.2)), arch := { k.arch with loads := k.arch.loads.map PendLoad.shift }
           image := { k.image with loads := k.image.loads.map PendLoad.shift }, frameLoads := k.frameLoads.map PendLoad.shift }

/-- A core cycle of a context whose bundle's checks pass: where its buffers, its commit or its loads hold it back, a result that waits only for a
commit has its checkpoint (R298); else an MMAP is presented (R307). -/
def State.readyCycle (s : State) (o : Offer) : State :=
  match o.pair with
  | some w => if (s.issueRun o).stands then s.presentPair w else s.boundary []
  | none => if s.matUncommitted && !(s.issueRun o).stands then s.boundary [] else s

/-- A core cycle of a context before the selection: a replay lands, a waiting bundle is presented (R25, R222, R307, R387). -/
def State.ctxCycle (s : State) : State :=
  if s.cx.stopped then s.modCx Ctx.stoppedCycle
  else
    let s := s.landReplay
    match s.prep with
    | .hold o l =>
      let t := s.waitCycle o l
      if t.cx.chain && t.cx.replay.isNone then t.stepReplay o l else t
    | .go o => (s.makeRoom o).readyCycle o
    | .refused => s.refusedCycle
    | _ => s

/-- Whether a held bundle waits only to be selected, so that its first replay starts (R222). -/
def State.startsChain (s : State) (l : List (SlotInst × Wait)) : Bool :=
  l.all (fun w => w.2 == .replay) && !s.cx.chain && s.cx.replay.isNone

/-- What the issuing context does where it is chosen: the next state, and whether a bundle issues; none where it is not eligible. -/
def State.act (s : State) : Option (State × Bool) :=
  match s.prep with
  | .none => none
  | .stop t => some (s.takeStop t, false)
  | .post =>
    let ops := if s.cx.trpend.isSome then s.cx.post.filter CommitOp.queued else s.cx.post
    let left := if s.cx.trpend.isSome then s.cx.post.filter (fun o => !o.queued) else []
    let s : State := { s with bun := { pc := s.cx.postPc, checked := true } }
    if s.roomFor (entering ops) then
      let t := (s.modCx (fun k => { k with post := left })).runOps ops
      some ({ t with bun := {} }, false)
    else none
  | .refused => none
  | .hold o l => if s.startsChain l then some (s.stepReplay o l, false) else none
  | .trap o x t => some (s.trapOffer o x t, false)
  | .go o => match o.pair with
    | some w => s.issuePair o w
    | none => (s.issue o).map (fun t => (t, true))

/-- What context c of core p would do now. -/
def State.actOf (s : State) (p c : Nat) : Option (State × Bool) :=
  let t : State := { s with cur := p, ctx := c }
  t.act.map (fun r => ({ r.1 with cur := s.cur, ctx := s.ctx }, r.2))

/-- Whether a context offers a bundle of a pair. -/
def State.offersPair (s : State) (p c : Nat) : Bool :=
  match ({ s with cur := p, ctx := c } : State).prep with
  | .go o => o.pair.isSome
  | _ => false

/-! ### The selector (R384) -/

/-- The first of a list with the least key. -/
def leastBy (f : Nat → Nat) : List Nat → Option Nat
  | [] => none
  | c :: l => match leastBy f l with
    | none => some c
    | some d => if f d < f c then some d else some c

/-- The choice among the eligible contexts `e`. -/
def State.choose (s : State) (p : Nat) (e : List Nat) : Option Nat :=
  let from_ := ((List.range 4).map (fun i => ((s.core p).rr + i) % 4)).filter (fun c => e.contains c)
  match from_.find? (fun c => s.offersPair p c) with
  | some c => some c
  | none =>
    match from_.filter (fun c => (s.ctxAt p c).prom) with
    | [] => leastBy (fun c => 3 - (s.task ((s.ctxAt p c).tid)).prio) from_
    | l => leastBy (fun c => (s.ctxAt p c).promCyc) l

/-- The counts of the contexts that were not chosen. -/
def Ctx.passed (k : Ctx) (cyc : Nat) (elig : Bool) : Ctx :=
  if !elig then { k with wait := 0, prom := false }
  else if k.wait = 63 then { k with wait := 64, prom := true, promCyc := cyc }
  else { k with wait := k.wait + 1 }

/-- The counts of a core after a choice; the other half of a pair on the same core counts as chosen too (R307). -/
def State.countWaits (s : State) (p : Nat) (e : List Nat) (c : Option Nat) : State :=
  s.modCore p (fun q => { q with
    joint := none
    rr := match c with
      | some n => (n + 1) % 4
      | none => q.rr
    ctxs := q.ctxs.map (fun t => if some t.1 = c || some t.1 = q.joint then (t.1, { t.2 with wait := 0, prom := false }) else (t.1, t.2.passed q.cyc (e.contains t.1))) })

/-! ### The selector's log (R483) -/

/-- The outcome of a core cycle is logged: a context, or 4. -/
def State.logCycle (s : State) (p o : Nat) : State :=
  if !(s.core p).slog then s
  else
    let s := if (s.core p).logRun != 0 && (s.core p).logCtx != o then s.logFlush p else s
    if !(s.core p).slog then s
    else
      let s := s.modCore p (fun c => { c with logCtx := o, logRun := c.logRun + 1 })
      if (s.core p).logRun = 2 ^ 22 - 1 then s.logFlush p else s

/-! ### Driving the selector from the log (R484) -/

/-- The replay of a core's choices ends. -/
def State.endDriving (s : State) (p o : Nat) : State :=
  (s.modCore p (fun c => { c with replay := false, replayAt := 0, replayRun := 0 })).blackBox (dieOf p) 8 (unitWord p 0) o

/-- A bundle of the entry at offset `o`, with `n` left, has issued. -/
def State.driven (s : State) (p o n : Nat) : State :=
  s.modCore p (fun c => if n = 1 then { c with replayAt := o + 4, replayRun := 0 } else { c with replayAt := o, replayRun := n - 1 })

/-- A core cycle under replay: the log's choice, where it is eligible. -/
def State.drive (s : State) (p o k n : Nat) : State :=
  match s.actOf p k with
  | none => s.logCycle p 4
  | some (t, issued) => ((if issued then t.driven p o n else t).modCore p (fun c => { c with joint := none })).logCycle p (if issued then k else 4)

/-! ### A core cycle -/

/-- Contexts of a core that hold tasks. -/
def State.busyCtxs (s : State) (p : Nat) : List Nat := ((s.core p).ctxs.filter (fun c => c.2.task.isSome)).map (fun c => c.1)

/-- The contexts of a core that may issue now. -/
def State.eligible (s : State) (p : Nat) : List Nat := (s.busyCtxs p).filter (fun c => (s.actOf p c).isSome)

/-- The selector of a core chooses, and the chosen context issues (R384). -/
def State.select (s : State) (p : Nat) : State :=
  let e := s.eligible p
  match s.choose p e with
  | none => (s.countWaits p e none).logCycle p 4
  | some c =>
    match s.actOf p c with
    | none => s
    | some (t, issued) => (t.countWaits p e (some c)).logCycle p (if issued then c else 4)

/-- A gap timer after one more core cycle (R322); that of a domain that is SAVING or SAVED stands still (R338). -/
def Dom.timerNext (d : Dom) (waited : Bool) : Nat :=
  if d.timed waited then d.timer + 1 else if d.state = 2 || d.state = 3 then d.timer else 0

/-- The gap timers of the domains of the logical cores that a core hosts (R322). -/
def State.gapTimers (s : State) (p : Nat) : State :=
  { s with lcores := s.lcores.map (fun (t : Nat × LCore) =>
      if s.hostOf t.1 = p then
        (t.1, { t.2 with doms := t.2.doms.map (fun d => (d.1, { d.2 with timer := d.2.timerNext (s.waitedOn t.1 d.1) })) })
      else t) }

/-- A core cycle begins. The package's time runs with its lowest working core (log 3). -/
def State.cycleOpen (s : State) (p : Nat) : State :=
  let s : State := { s with cur := p, ctx := 0, slot := 0, bun := {}, kept := none }
  if s.order.all (fun q => p ≤ q) then s.clockDie (dieOf p) else s

/-- The part of a core cycle before the selection: the cycle counts, timers run, contexts wait or replay. -/
def State.cycleStart (s : State) (p : Nat) : State :=
  let s := (s.tick).gapTimers p
  (s.busyCtxs p).foldl (fun s c => s.within p c (fun s => s.ctxCycle)) s

/-- The cycle in which context `c` of a core has issued its half of a pair (R307, R384). -/
def State.pairCycle (s : State) (p c : Nat) : State :=
  let t := (s.countWaits p (s.eligible p) (some c)).logCycle p c
  if (s.core p).replay then
    match s.driving p with
    | some (o, k, n) => if k = c then t.driven p o n else t
    | none => t
  else t

/-- The rest of a core cycle: the selector chooses, or its log does (R384, R484), or the other core of a pair has (R307). -/
def State.cycleEnd (s : State) (p : Nat) : State :=
  match (s.core p).joint with
  | some c => s.pairCycle p c
  | none =>
  if (s.core p).replay then
    match s.driving p with
    | none => (s.endDriving p (s.core p).replayAt).select p
    | some (o, k, n) => if (s.ctxAt p k).task.isNone then (s.endDriving p o).select p else s.drive p o k n
  else s.select p

/-- One core cycle of a physical core. An Elwiset halt stops it all (R452). -/
def State.coreCycle (s : State) (p : Nat) : State :=
  let s := s.cycleOpen p
  if (s.die (dieOf p)).elw.halted then s else (s.cycleStart p).cycleEnd p

end Sys2Proof.Machine
end

