-- ==== Sys2Proof/Machine/Agenda.lean ====
section
/-! DEFINITION. Events inside the machine: what may happen now, and the order in which this model lets it happen (log 3). -/

namespace Sys2Proof.Machine

/-- A core and a number within it. -/
abbrev Spot := Nat × Nat

/-- Every context that a core in turn could hold. -/
def State.spots (s : State) : List Spot := (s.order.map (fun p => (List.range 4).map (fun c => (p, c)))).flatten

/-- A context as the issuing one. -/
def State.as (s : State) (t : Spot) : State := { s with cur := t.1, ctx := t.2, bun := {}, kept := none, slot := 0 }

/-- The first element that `f` accepts, with what `g` makes of it. -/
def firstOf {α : Type} (l : List α) (f : α → Bool) (g : α → State) : Option State := (l.find? f).map g

/-- Runs `f` for the first context that holds a task and meets `f`'s condition. -/
def State.firstCtx (s : State) (ok : State → Bool) (f : State → State) : Option State :=
  firstOf s.taken (fun t => !s.asleep t.1 && ok (s.as t)) (fun t => s.within t.1 t.2 (fun s => f { s with bun := {}, kept := none, slot := 0 }))

/-- Every place of an engine queue. -/
def State.queueRefs (s : State) : List QRef :=
  let pos (k u n : Nat) : List QRef := (List.range n).map (fun i => (⟨k, u, i⟩ : QRef))
  (s.cores.map (fun (p : Nat × PCore) => pos 0 p.1 p.2.copyQ.length ++ pos 2 p.1 p.2.sieveQ.length)).flatten
    ++ (s.clusters.map (fun (c : Nat × Cluster) => pos 1 c.1 c.2.gq.length)).flatten
    ++ (s.dies.map (fun (d : Nat × Die) => pos 3 d.1 d.2.fillQ.length ++ pos 4 d.1 d.2.collQ.length ++ pos 5 d.1 d.2.noteQ.length)).flatten

/-- A load whose data arrives now: its time has come, and neither a bank nor another package holds it (log 5). -/
def PendLoad.arrives (cy : Nat) (q : PendLoad) : Bool :=
  !q.waits && (match q.dueAt with
    | some d => d + q.lag ≤ cy
    | none => false)

/-- The first load whose data arrives now, in a context or in a frame. -/
def State.dueLoad (s : State) : Option Nat :=
  (s.taken.findSome? (fun t =>
    let k := s.ctxAt t.1 t.2
    ((k.arch.loads ++ k.frameLoads).find? (fun q => q.arrives (s.core t.1).cyc)).map (fun q => q.id))).or
  ((s.saved ++ s.savedH).findSome? (fun t => (t.2.find? (fun q => !q.waits)).map (fun q => q.id)))

/-- The first stream that has something to fetch. -/
def State.nextFetch (s : State) : Option (Spot × Nat) :=
  s.taken.findSome? (fun t => if (s.ctxAt t.1 t.2).stopped then none else
    ((List.range 8).find? (fun q => (s.as t).wantsFetch q)).map (fun q => (t, q)))

/-- The first matrix result that may be written. -/
def State.nextResult (s : State) : Option (Nat × Nat) :=
  s.cores.findSome? (fun p => ((List.range p.2.matPend.length).find? (fun n => s.canWrite p.1 n)).map (fun n => (p.1, n)))

/-- The first domain whose gap timer has run out. -/
def State.nextGap (s : State) : Option (Nat × Nat) :=
  s.lcores.findSome? (fun l => (l.2.doms.find? (fun d => s.gapDue l.1 d.1)).map (fun d => (l.1, d.1)))

/-- A held transfer that may go on. -/
def State.heldReady (s : State) : Bool := s.cx.hold.isSome && s.canTransfer

/-- A frame access that found no room in the fault queue, and now may (R412). -/
def State.jobReady (s : State) : Bool := s.cx.job.isSome && s.cx.jobIdx.isNone && s.fqRoom (dieOf s.lc)

/-- A wait yield of the issuing context is due (R388). -/
def State.yields (s : State) : Bool :=
  s.yieldDue && (match s.prep with
    | .hold _ l => l.any yieldable
    | .refused => true
    | _ => false)

/-- The list after the last one stepped that has something to do (R367). -/
def State.nextList (s : State) : Option (Nat × Nat) :=
  let l := (s.dies.map (fun (d : Nat × Die) => (d.2.subs.filter (fun u => s.listReady d.1 u.1)).map (fun u => (d.1, u.1)))).flatten
  (l.find? (fun t => s.lastList < 64 * t.1 + t.2 + 1)).or l.head?

/-- A hop that has failed and is not yet down (R420). -/
def State.nextHop (s : State) : Option (Nat × Nat) :=
  s.dies.findSome? (fun d => (d.2.hopErr.find? (fun h => 32 ≤ h.2 && !NatSet.mem d.2.hopDown h.1)).map (fun h => (d.1, h.1)))

/-- A die whose carve-out changes, whose invalidation runs. -/
def State.dieWith (s : State) (f : Die → Bool) : Option Nat := (s.dies.find? (fun d => f d.2)).map (fun d => d.1)

/-- Whether a core's domain save may complete. -/
def State.saveDue (s : State) (p : Nat × PCore) : Bool :=
  p.2.accsvGo && p.2.accsvAct == 1 && ((s.lcore (s.blockCore p.1)).dom p.2.accsvTd).state == 2

/-- Number of kinds of event. -/
def eventKinds : Nat := 27

/-- The first event of a kind that may happen now. -/
def State.eventOf (s : State) (kind : Nat) : Option State :=
  match kind with
  | 0 => firstOf s.spots (fun t => s.canDispatch t.1 t.2) (fun t => s.dispatch t.1 t.2)
  | 1 => firstOf s.queueRefs (fun q => s.canStart q) (fun q => s.startCmd q)
  | 2 => firstOf s.queueRefs (fun q => s.canComplete q) (fun q => s.completeCmd q)
  | 3 => firstOf s.queueRefs (fun q => s.canPark q) (fun q => s.faultCmd q)
  | 4 => firstOf dieNums (fun d => s.canDemand d) (fun d => s.serveDemand d)
  | 5 => s.dueLoad.map (fun n => s.giveLoad n id)
  | 6 => s.lcores.findSome? (fun l => (s.fullWait l.1).map (fun w => s.satisfy l.1 w))
  | 7 => s.nextFetch.map (fun t => s.within t.1.1 t.1.2 (fun s => s.fetchOne t.2))
  | 8 => s.nextResult.map (fun t => s.writeResAt t.1 t.2)
  | 9 => s.firstCtx (fun s => !s.cx.stopped && s.pairExpired && s.presentedOffer.isSome) (fun s => s.timeoutPair)
  | 10 => (s.parts.find? (fun p => !p.refused)).map (fun p => s.bringPart p.id false)
  | 11 => (s.parts.find? (fun p => p.refused)).map (fun p => s.bringPart p.id true)
  | 12 => s.nextGap.map (fun t => s.gapEvent t.1 t.2)
  | 13 => (s.taken.find? (fun t => (s.ctxAt t.1 t.2).preempt && (s.as t).canSave)).map (fun t => s.savePreempted t.1 t.2)
  | 14 => s.firstCtx (fun s => !s.cx.stopped && s.yields) (fun s => s.saveCtx true)
  | 15 => s.firstCtx (fun s => s.heldReady) (fun s => s.finishHold)
  | 16 => s.firstCtx (fun s => s.jobReady) (fun s => s.resumeJob)
  | 17 => s.nextHop.map (fun t => s.hopFail t.1 t.2)
  | 18 => (s.dieWith (fun d => d.xlGo)).map (fun d => s.xlinvEnd d)
  | 19 => (s.dieWith (fun d => d.nmBusy)).map (fun d => s.carveout d)
  | 20 => firstOf s.cores (fun p => s.saveDue p) (fun p => s.domSaved p.1)
  | 21 => firstOf s.launches (fun l => s.launchOver l) (fun l => s.endLaunch l)
  | 22 => s.nextOut.map (fun t => s.sendOut t.1 t.2.1 t.2.2)
  | 23 => s.nextReturn.map (fun t => s.endRecall t.1 t.2)
  | 24 => s.nextList.map (fun t => { s.stepList t.1 t.2 with lastList := 64 * t.1 + t.2 + 1 })
  | 25 => if s.host.booting.isSome then some s.bootStep else none
  | _ => if s.host.pending.isSome then some s.sendPending else none

/-- The next event inside the machine, from the kind whose turn it is onward, with that kind. -/
def State.nextEvent (s : State) : Nat → Nat → Option (State × Nat)
  | 0, _ => none
  | n + 1, k =>
    match s.eventOf (k % eventKinds) with
    | some t => some (t, k % eventKinds)
    | none => s.nextEvent n (k + 1)

/-- An event inside the machine happens, or nothing can. -/
def State.inner (s : State) : State :=
  match s.nextEvent eventKinds s.nextKind with
  | none => s
  | some (t, k) => { t with nextKind := (k + 1) % eventKinds }

/-- The core whose turn it is has its core cycle. -/
def State.outer (s : State) : State :=
  match s.order with
  | [] => s
  | p :: l => ({ s with order := l ++ [p] } : State).coreCycle p

/-- One step without an event due: core cycles and events inside the machine alternate. -/
def State.advance (s : State) : State :=
  if s.turn then { s.inner with turn := false } else { s.outer with turn := true }

end Sys2Proof.Machine
end

