-- ==== Sys2Proof/Machine/Place.lean ====
section
/-! DEFINITION. A program of one bundle, placed where a context of physical core 0 fetches (log 7). -/

namespace Sys2Proof.Machine

/-- The class in which the decoder reads a table word. -/
def tableClass (w w2 : Nat) : Option Cls :=
  ([.s, .v, .x, .m, .c] : List Cls).find? (fun c => match decodeSlot c false 2 w w2 with
    | .ok _ => true
    | .error _ => false)

/-- PRES of the lowest slot of a class (R30, R41). -/
def classPres : Cls → Nat
  | .s => 2 ^ 30
  | .v => 2 ^ 28
  | .x => 2 ^ 26
  | .m => 2 ^ 25
  | .c => 2 ^ 24

/-- The words of a bundle that holds one table word: with its header, and CK set where the operation asks for it (R35). -/
def tableBundle (nbits w : Nat) : List Nat :=
  let w1 := fld w 31 0
  let w2 := if nbits ≤ 32 then 0 else fld w 63 32
  if fld w1 31 31 = 1 then [w1]
  else
    let ck := match decodeTableWord nbits w with
      | some i => b2n i.irrevocable * 2 ^ 12
      | none => 0
    let h := 2 ^ 31 + classPres ((tableClass w1 w2).getD .s) + ck
    if bit w1 30 then [h, w1, w2] else [h, w1]

/-- The task that runs it: identifier, generation 1, die 0, slot 0. -/
def placedTask : Nat := 2 ^ 19

/-- Bytes of words in memory order. -/
def wordBytes (a : Nat) (ws : List Nat) : List (Nat × Nat) := spread a (4 * ws.length) (joinEl 32 ws)

/-- A running task in context 0 of physical core 0, unless it holds one. -/
def State.withTask (s : State) : State :=
  if (s.ctxAt 0 0).task.isSome then s
  else
    (s.modDie 0 (fun d => { d with tasks := Tbl.put d.tasks 0 { id := placedTask, state := 3, ran := true } })).modCtxAt 0 0
      (fun k => { k with task := some placedTask })

/-- The words at the pc of context 0 of core 0, and nothing that keeps the context from offering them in the next core cycle, which
is this core's. -/
def State.placeWords (s : State) (ws : List Nat) : State :=
  let s := s.withTask
  let k := s.ctxAt 0 0
  let l := (s.task k.tid).lcore
  let s := s.modLcore l (fun c => { c with code := c.code.store (wordBytes k.arch.pc ws) })
  let s := s.modCtxAt 0 0 (fun k => { k with pkts := [], pktPois := [], offer := 0, stopped := false, preempt := false
                                             hold := none, job := none, trpend := none, post := [] })
  { s with agenda := [], turn := false, order := 0 :: s.order.filter (fun p => p != 0) }

end Sys2Proof.Machine
end

