-- ==== Sys2Proof/Machine/Step.lean ====
section
/-! DEFINITION. One step of the machine (log 3): an event that is due, else the next core cycle or event inside. -/

namespace Sys2Proof.Machine

/-- A step: the first event due is carried out; else core cycles and events inside the machine alternate. -/
def step (s : State) : Host.Outcome State Fault Refusal :=
  match s.agenda with
  | i :: l => exec i { s with agenda := l }
  | [] => .next s.advance

/-- A table word as the next bundle that context 0 of core 0 issues (log 7). -/
def State.withFetchWord (s : State) (nbits w : Nat) : State := s.placeWords (tableBundle nbits w)

end Sys2Proof.Machine
end

