-- ==== Sys2Proof/Safety.lean ====
section
/-! DEFINITION. The terms in which claims speak of runs: steps that answer a next state, and memories in canonical form. -/

namespace Sys2Proof.Machine

/-- A step answers a next state. -/
def State.goesOn (s : State) : Prop := ∃ t, step s = .next t

/-- States that some run of steps reaches from `s`. -/
inductive Reach (s : State) : State → Prop where
  | refl : Reach s s
  | step {t u : State} : Reach s t → Machine.step t = .next u → Reach s u

/-- A property that every step keeps. -/
def Kept (inv : State → Prop) : Prop := ∀ s t, inv s → step s = .next t → inv t

/-- The memories of a logical core are in canonical form. -/
def LCore.memOk (c : LCore) : Bool := Memory.wf c.sp.mem && Memory.wf c.acc.mem && Memory.wf c.code.mem

/-- Every memory of the machine is in canonical form, so that equal memories are equal data. -/
def State.memOk (s : State) : Bool := Memory.wf s.mem.mem && s.lcores.all (fun t => t.2.memOk)

/-! ### When an operation's registers can be read -/

/-- Scalar registers whose loads have arrived and that carry no poison mark (R95, R121). -/
def State.xReady (s : State) (l : List Nat) : Prop := ∀ n ∈ l, s.ar.awaited .x n = none ∧ Tbl.has s.ar.xpois n = false

/-- Vector sources that can be read: registers arrived, clean and not dropped; streams whose head element can be read (R95, R121,
R159, R222). -/
def State.vReady (s : State) (l : List Nat) : Prop :=
  ∀ n ∈ l, if 56 ≤ n then s.chkStreamRead (n - 56) = .ok
    else s.ar.awaited .v n = none ∧ Tbl.has s.ar.vpois n = false ∧ Tbl.get 0 s.ar.vst n < 2

/-- Predicate registers that carry no poison mark (R490). -/
def State.pReady (s : State) (l : List Nat) : Prop := ∀ n ∈ l, Tbl.has s.ar.ppois n = false

/-- Streams among the destinations that take one more element (R165). -/
def State.dReady (s : State) (l : List Nat) : Prop := ∀ n ∈ l, 56 ≤ n → s.chkAppend (n - 56) = .ok

/-- No earlier acquire of the context is still to be performed, and its list of loads has room (R347, R410). -/
def State.loadReady (s : State) : Prop := s.acquires = [] ∧ s.ar.loads.length < 32

/-- No access of scratchpad or accumulator memory that a release would follow is unperformed (R347): none of a load whose data is late or
waits, none of an interrupted task, no ticketed part on its way, none in the fabric. -/
structure State.releaseReady (s : State) : Prop where
  loads : ∀ q ∈ s.ar.loads, q.area % 2 = 1 → q.waits = false ∧ s.ar.scyc < q.cyc
  frames : ∀ q ∈ s.cx.frameLoads, q.area % 2 = 0
  fabric : s.farAcc = false
  tickets : s.farOpen (fun k => k.m.kind == 5) = false
  parts : ∀ p ∈ s.parts, p.task ≠ s.tid ∨ p.cmd ≠ 0

/-- Registers that an operation reads and writes are ready, no acquire holds its access back, and the engine that it names is free. -/
structure State.ReadyFor (s : State) (i : Instr) : Prop where
  x : s.xReady i.xsrcs
  v : s.vReady i.vsrcs
  p : s.pReady i.psrcs
  d : s.dReady i.vdests
  acq : i.accesses = true → s.acquires = []
  mat : i.needsMatrix = true → s.matFree = true

/-! ### What an operation leaves alone -/

/-- `t` and `s` agree on everything but the issuing context, its bundle, and the model's own counters. -/
structure State.KeepsOutside (s t : State) : Prop where
  mem : t.mem = s.mem
  memGen : t.memGen = s.memGen
  nearGen : t.nearGen = s.nearGen
  rlines : t.rlines = s.rlines
  got : t.got = s.got
  station : t.station = s.station
  away : t.away = s.away
  regions : t.regions = s.regions
  lcores : t.lcores = s.lcores
  clusters : t.clusters = s.clusters
  dies : t.dies = s.dies
  parts : t.parts = s.parts
  fabric : t.fabric = s.fabric
  launches : t.launches = s.launches
  saved : t.saved = s.saved
  savedH : t.savedH = s.savedH
  shadow : t.shadow = s.shadow
  rows : t.rows = s.rows
  cmds : t.cmds = s.cmds
  cfg : t.cfg = s.cfg
  host : t.host = s.host
  cores : ∀ q, q ≠ s.cur → t.core q = s.core q
  ctxs : ∀ c, c ≠ s.ctx → t.ctxAt s.cur c = s.ctxAt s.cur c

/-- Every register as visible stays as it is. -/
structure Arch.KeepsVisible (a b : Arch) : Prop where
  pc : b.pc = a.pc
  scyc : b.scyc = a.scyc
  x : b.x = a.x
  v : b.v = a.v
  p : b.p = a.p
  sr : b.sr = a.sr
  xpois : b.xpois = a.xpois
  vpois : b.vpois = a.vpois
  ppois : b.ppois = a.ppois
  stg : b.stg = a.stg
  tiles : b.tiles = a.tiles
  latches : b.latches = a.latches
  loops : b.loops = a.loops
  ended : b.ended = a.ended
  streams : b.streams = a.streams

end Sys2Proof.Machine

namespace Sys2Proof

open Machine

/-- The registers, streams among them, in which results of an instruction land, by kind and number; 63 is the link register. -/
def Instr.lands : Instr → List (RKind × Nat)
  | .add d .. | .sub d .. | .mul d .. | .mulh d .. | .div d .. | .divn d .. | .rem d .. | .remn d .. | .and d .. | .or d ..
  | .xor d .. | .shl d .. | .shrl d .. | .shra d .. | .min d .. | .max d .. | .minn d .. | .maxn d .. | .cmp d .. | .sel d ..
  | .clz d .. | .popc d .. | .bfx d .. | .bfi d .. | .addi d .. | .andi d .. | .ori d .. | .xori d .. | .shli d .. | .shrli d ..
  | .shrai d .. | .li d .. | .lih d .. | .fadd d .. | .fmul d .. | .ffma d .. | .fcmp d .. | .fcvt d .. | .movs d _ | .barwait d ..
  | .callr d _ | .qstat d _ | .pcnt d .. | .rcpstat d _ => [(.x, d)]
  | .call _ => [(.x, 63)]
  | .movd _ n => [(.sr, n)]
  | .sete _ k st i => [(.stg, stgNum k st i)]
  | .vadd _ d .. | .vsub _ d .. | .vmul _ d .. | .vfma _ d .. | .vmin _ d .. | .vmax _ d .. | .vabs _ d .. | .vneg _ d ..
  | .vred _ d .. | .vscan _ d .. | .vshl _ d .. | .vshrI _ d .. | .vshrN _ d .. | .vand d .. | .vor d .. | .vxor d .. | .vnot d ..
  | .vsel _ d .. | .vmov _ d .. | .vbcast _ d .. | .vrot _ d .. | .vperm _ d .. | .vshuf _ d .. | .vcompr _ d .. | .vexpd _ d ..
  | .vbcmp d .. | .vbfind d .. | .vhash d .. | .vcrc d .. | .vexp2 _ d .. | .vlog2 _ d .. | .vrcp _ d .. | .vrsq _ d ..
  | .vtanh _ d .. | .vsigm _ d .. | .vrng d .. | .rcwupd d .. | .rcwadv d .. | .rcpdefEmbedded d .. | .ttr d _ => [(.v, d)]
  | .vcvt d _ pv _ w => if w.td = 5 then [(.v, d), (.v, pv)] else [(.v, d)]
  | .vcmp _ d .. | .pand d .. | .por d .. | .pxor d .. | .pnot d _ | .rowpred d .. | .rcwld d .. => [(.p, d)]
  | .mscl n _ => [(.latch, n)]
  | .mtile n _ | .mtileImm n _ => [(.tile, n)]
  | _ => []

/-- The instructions that read memory at most, and whose effect before their bundle's end is results in flight: arithmetic, moves,
predicates, row words, recipes, transfers, and the operations that act at the end of their bundle or at its commit. -/
def Instr.resultOnly : Instr → Bool
  | .nop .. | .waitcc .. | .fenceL | .fenceE | .ifence | .qbind .. | .qunbind _ | .qsync _ | .bararr .. | .gleave _ | .tdec ..
  | .aadd .. | .amin .. | .amax .. | .axchg .. | .acas .. | .vaadd .. | .vamin .. | .vamax .. | .vaxchg ..
  | .xferOwned .. | .xferShared .. | .xferEngine .. | .tokacq .. | .tokrel ..
  | .br .. | .j _ | .jr _ | .ret _ | .brt .. | .loop .. | .bsw ..
  | .rcpdef .. | .drop _ | .rcpclr _ | .rcpclrAll => true
  | i => !i.lands.isEmpty

/-- Destination and latency of the operations on vector registers that leave one vector (R263, R281). -/
def Instr.vecForm : Instr → Option (Nat × Nat)
  | .vadd _ d .. | .vsub _ d .. | .vmul _ d .. | .vfma _ d .. | .vmin _ d .. | .vmax _ d .. | .vabs _ d .. | .vneg _ d ..
  | .vshl _ d .. | .vshrI _ d .. | .vshrN _ d .. | .vand d .. | .vor d .. | .vxor d .. | .vnot d .. | .vsel _ d .. | .vmov _ d ..
  | .vbcast _ d .. | .vhash d .. => some (d, 4)
  | .vred _ d .. | .vscan _ d .. | .vrot _ d .. | .vperm _ d .. | .vshuf _ d .. | .vcompr _ d .. | .vexpd _ d .. | .vbcmp d ..
  | .vbfind d .. | .vcrc d .. => some (d, 6)
  | .vexp2 _ d .. | .vlog2 _ d .. | .vrcp _ d .. | .vrsq _ d .. | .vtanh _ d .. | .vsigm _ d .. => some (d, 12)
  | _ => none

/-- Element width, vd and PN of the merge-class operations, whose inactive elements keep what vd holds (R264). -/
def Instr.mergeForm : Instr → Option (Nat × Nat × Nat)
  | .vadd t d _ _ p _ | .vsub t d _ _ p _ | .vmul t d _ _ p _ | .vfma t d _ _ p _ | .vmin t d _ _ p | .vmax t d _ _ p
  | .vabs t d _ p _ | .vneg t d _ p _ | .vexp2 t d _ p | .vlog2 t d _ p | .vrcp t d _ p | .vrsq t d _ p | .vtanh t d _ p
  | .vsigm t d _ p => some (typeWidth t, d, p)
  | .vshl w d _ _ p | .vshrI w d _ _ p | .vshrN w d _ _ p | .vmov w d _ p | .vbcast w d _ p => some (8 * 2 ^ w, d, p)
  | .vand d _ _ p | .vor d _ _ p | .vxor d _ _ p | .vnot d _ p => some (8, d, p)
  | .vhash d _ _ p _ | .vcrc d _ _ p _ => some (32, d, p)
  | _ => none

end Sys2Proof
end

