-- ==== Sys2Proof/WellFormed.lean ====
section
/-! DEFINITION. Which terms of Instr stand for an encoding: every field in the range of its place and legal there (R44 code 7, and
the layouts of each instruction's own entry); for an event, every unit one that the part has (R20). -/

namespace Sys2Proof

/-! ### Fields -/

/-- A register field of 6 bits. -/
def r6 (n : Nat) : Bool := n < 64
/-- A predicate field, or the 4-bit field in its place. -/
def r4 (n : Nat) : Bool := n < 16
/-- A 10-bit immediate. -/
def i10 (n : Nat) : Bool := n < 1024
/-- The fields xd, xa, xb. -/
def r666 (d a b : Nat) : Bool := r6 d && r6 a && r6 b
/-- The fields vd, va, vb and PN. -/
def r6664 (d a b p : Nat) : Bool := r6 d && r6 a && r6 b && r4 p

def optBlkOk : Option Nat → Bool
  | none => true
  | some b => b < 256

def optVwFits (t : Nat) (rmOk : Bool) : Option VW → Bool
  | none => true
  | some w => vwOk t false rmOk w

/-- String words of VBCMP: SEGL, ZT and TB alone (R275). -/
def bcmpFits : Option SW → Bool
  | none => true
  | some w => w.segl ≤ 6 && w.zt < 2 && w.tb < 256 && w.nlen == 0

/-- String words of VBFIND: SEGL and NLEN alone (R275). -/
def bfindFits : Option SW → Bool
  | none => true
  | some w => w.segl ≤ 6 && w.zt == 0 && w.tb == 0 && w.nlen < 8

/-- The descriptor pair, row, predicate and MW of a vector memory operation (R50, R115). -/
def vmFits (maxQ v a k p : Nat) (w : Option MW) : Bool := r6664 v a k p && a % 2 == 0 && mwOk maxQ w

/-- A vector ticketed update (R333). -/
def vtkFits (v a k p xt td : Nat) : Bool := r6664 v a k p && a % 2 == 0 && r6 xt && r6 td

/-- A vector atomic (R335). -/
def vatFits (v a k p vr rr uns : Nat) : Bool :=
  r6664 v a k p && a % 2 == 0 && vr ≤ 55 && rr < 2 && uns < 2 && (rr == 1 || vr == 0)

/-- A special function (R281). -/
def xfFits (t d a p : Nat) : Bool := t < 3 && r6 d && r6 a && r4 p

/-- FCVT's word (R261). -/
def fcvtFits (w : CW) : Bool :=
  w.ts ≤ 12 && w.td ≤ 12 && w.ts != 5 && w.td != 5 && w.rm ≤ 4 && w.sat < 2 && w.ftz < 2

/-! ### Units of an event (R20) -/

def coreOk (p : Nat) : Bool := p < 768
def ctxOk (p c : Nat) : Bool := p < 768 && c < 4
def dieOk (d : Nat) : Bool := d < 8
def slotOk (d n : Nat) : Bool := d < 8 && n < 64
def elwFits (d : Nat) (m : ElwMsg) : Bool := d < 8 && m.src < 2048
def msgFits (m : Msg) : Bool := m.sdie < 8 && m.ddie < 8 && m.spkg < 256 && m.dpkg < 256 && m.tag < 4096 && m.addr < 2 ^ 44
/-- Unit numbers by kind: a physical core, a cluster, a die (R54). -/
def queueOk (q : QRef) : Bool := q.kind ≤ 5 && q.unit < (if q.kind == 0 || q.kind == 2 then 768 else if q.kind == 1 then 32 else 8)

/-! ### Instructions -/

/-- A term that stands for an encoding or for an event of this part. -/
def Instr.wf : Instr → Bool
  | .nop bh ck ic ilv => bh < 3 && ck < 2 && ic < 3 && ilv ≤ 5 && (ic != 0 || ilv == 0)
  | .add d a b | .sub d a b | .mul d a b | .mulh d a b | .div d a b | .divn d a b | .rem d a b | .remn d a b
  | .and d a b | .or d a b | .xor d a b | .shl d a b | .shrl d a b | .shra d a b
  | .min d a b | .max d a b | .minn d a b | .maxn d a b
  | .lock d a b | .unlock d a b | .tokacq d a b | .tokrel d a b => r666 d a b
  | .cmp d a b c => r666 d a b && c ≤ 9
  | .sel d a b xc => r666 d a b && r6 xc
  | .clz d a | .popc d a | .callr d a => r6 d && r6 a
  | .bfx d a pos lm1 sx => r6 d && r6 a && pos + lm1 < 64 && sx < 2
  | .bfi d a b pos lm1 => r666 d a b && pos + lm1 < 64
  | .addi d a i | .andi d a i | .ori d a i | .xori d a i | .bararr d a i => r6 d && r6 a && i10 i
  | .shli d a n | .shrli d a n | .shrai d a n => r6 d && r6 a && n < 64
  | .li d i w => r6 d && i < 2 ^ 16 && (match w with
      | none => true
      | some h => h < 2 ^ 30)
  | .lih d i => r6 d && i < 2 ^ 16
  | .fadd d a b r | .fmul d a b r => r666 d a b && r ≤ 3
  | .ffma d a b xc r => r666 d a b && r6 xc && r ≤ 3
  | .fcmp d a b c => r666 d a b && c ≤ 7
  | .fcvt d a w => r6 d && r6 a && fcvtFits w
  | .movs d n => r6 d && srAssigned n
  | .movd a n => r6 a && srAssigned n
  | .sete a k s i => r6 a && k ≤ 5 && s < 2 && i ≤ 15
  | .ldg z d a i w => z < 7 && r6 d && r6 a && i10 i && mwOk 0 w
  | .stg z x a i w => z < 4 && r6 x && r6 a && i10 i && mwOk 0 w
  | .ldl z d a i w => z < 7 && r6 d && r6 a && i10 i && mwOk 3 w
  | .stl z x a i w => z < 4 && r6 x && r6 a && i10 i && mwOk 2 w
  | .br a b c off => r6 a && r6 b && c ≤ 9 && off < 2 ^ 30
  | .j o | .call o => o < 2 ^ 22
  | .jr a | .ret a => r6 a
  | .brt ca cb cc neg cd off => r6664 ca cb cc neg && r6 cd && off < 2 ^ 24
  | .loop d a lvl src tripi last =>
      r6 d && r6 a && lvl ≤ 5 && src < 4 && (src == 1 || a == 0) && tripi < 2 ^ 16 && (src == 0 || tripi == 0) && last < 2 ^ 14
  | .bsw a i => r6 a && i10 i
  | .ifence | .fenceL | .fenceE | .endt | .yield | .rett | .rcpclrAll => true
  | .barinit x a => r6 x && r6 a
  | .barwait d a p => r6 d && r6 a && p ≤ 1
  | .waitcc c n => c ≤ 7 && i10 n
  | .gbar d g => r6 d && g ≤ 3
  | .gleave g => g ≤ 3
  | .tdec d a n => r6 d && r6 a && i10 n && n != 0
  | .tkopen d a b td | .tkskip d a b td => r666 d a b && r6 td
  | .tkadd a b xt td | .tkmin a b xt td | .tkmax a b xt td => r666 a b xt && r6 td
  | .tkdrain d a td => r666 d a td
  | .tkstat d a what td => r666 d a td && what ≤ 4
  | .tkclose d a f td => r666 d a td && f < 2
  | .aadd d a b typ | .amin d a b typ | .amax d a b typ | .axchg d a b typ => r666 d a b && typ < 4
  | .acas d a b xc typ => r666 d a b && r6 xc && typ < 4
  | .xferOwned a b n1 | .xferShared a b n1 | .xferEngine a b n1 => r6 a && r6 b && n1 < 2 ^ 11
  | .qbind n a dir fek da ai depth => n ≤ 7 && r6 a && a % 4 == 0 && qbindOk dir fek da ai && (match depth with
      | none => true
      | some k => 1 ≤ k && k ≤ 8)
  | .qunbind n | .qsync n => n ≤ 7
  | .qstat d n => r6 d && n ≤ 7
  | .trap n | .brk n => i10 n
  | .vadd t d a b p w | .vsub t d a b p w | .vmul t d a b p w => typedOk t && r6664 d a b p && optVwFits t true w
  | .vfma t d a b p w => typedOk t && r6664 d a b p && vwOk t true true w
  | .vmin t d a b p | .vmax t d a b p => typedOk t && r6664 d a b p
  | .vabs t d a p w | .vneg t d a p w => typedOk t && t < 10 && r6664 d a 0 p && optVwFits t false w
  | .vcmp t d a b p cond => typedOk t && d ≤ 15 && r6664 d a b p && cond < 16 && condOk t cond
  | .vred t d a o p | .vscan t d a o p => typedOk t && r6664 d a o p && o ≤ 2
  | .vshl w d a b p | .vshrI w d a b p | .vshrN w d a b p | .vsel w d a b p | .vperm w d a b p
  | .vcompr w d a b p | .vexpd w d a b p | .vrot w d a b p => w < 3 && r6664 d a b p
  | .vshuf w d a b p => w < 3 && r6664 d a b p && d ≤ 55
  | .vand d a b p | .vor d a b p | .vxor d a b p => r6664 d a b p
  | .vnot d a p => r6664 d a 0 p
  | .vmov w d a p | .vbcast w d a p => w < 3 && r6664 d a 0 p
  | .vbcmp d a b p w => r6664 d a b p && bcmpFits w
  | .vbfind d a b p w => r6664 d a b p && bfindFits w
  | .vhash d a b p f => r6664 d a b p && (match f with
      | none => true
      | some n => n < 2)
  | .vcrc d a b p f => r6664 d a b p && (match f with
      | none => true
      | some n => n ≤ 2)
  | .vld v a k p w | .vlda v a k p w => vmFits 3 v a k p w
  | .vst v a k p w | .vsta v a k p w => vmFits 2 v a k p w
  | .vstaAdd v a k p w => vmFits 0 v a k p w
  | .vtkadd v a k p xt td | .vtkmin v a k p xt td | .vtkmax v a k p xt td => vtkFits v a k p xt td
  | .vaadd v a k p vr rr uns | .vamin v a k p vr rr uns | .vamax v a k p vr rr uns | .vaxchg v a k p vr rr uns =>
      vatFits v a k p vr rr uns
  | .vexp2 t d a p | .vlog2 t d a p | .vrcp t d a p | .vrsq t d a p | .vtanh t d a p | .vsigm t d a p => xfFits t d a p
  | .vcvt d a pv pq w => r6664 d a pv pq && cvtFieldsOk d pv pq w
  | .vrng d m p => r6 d && m ≤ 2 && r4 p
  | .pand d a b | .por d a b | .pxor d a b => r4 d && r4 a && r4 b
  | .pnot d a => r4 d && r4 a
  | .pcnt d a w p => r6 d && r4 a && w ≤ 2 && r4 p
  | .rowpred d a b p w => r4 d && r6664 0 a b p && w.seg < 4 && rowWOk w
  | .rcwupd d a b c blk => r6 d && r6 a && r4 b && r4 c && optBlkOk blk
  | .rcwadv d a p blk => r6 d && r6 a && r4 p && optBlkOk blk
  | .rcwld d a t p blk => r4 d && r6 a && t ≤ 3 && r4 p && optBlkOk blk
  | .rcpdef d s => d ≤ 55 && s ≤ 1
  | .rcpdefEmbedded d a w => d ≤ 55 && a ≤ 55 && rcpWOk w
  | .drop d | .rcpclr d => d ≤ 55
  | .rcpstat d a => r6 d && a ≤ 55
  | .ttw a w => r6 a && tileWOk w
  | .ttr d w => r6 d && tileWOk w
  | .mma s b n w => mmaOk false s b n w
  | .mmap s b n w => mmaOk true s b n w
  | .mscl n a => n ≤ 3 && r6 a
  | .mzero n => n < 8
  | .mtile n a => n < 8 && r6 a
  | .mtileImm n w => n < 8 && tileWordOk w
  | .copy h | .gath h | .exsave h | .trunc h | .sieve h | .resto h | .fillGap h | .fillSeal h | .fillRequant h
  | .fillUnseal h | .coll h | .noteSend h | .noteRegister h | .noteDeregister h | .notePurge h => chdrOk h
  | .engctlResume p c k | .engctlCancel p c k => ctxOk p c && k ≤ 5
  | .xferComplete p c | .implicitCheckpoint p c | .pairTimeout p c | .asyncTrap p c | .selectorPromotion p c
  | .waitYield p c | .taskDispatch p c | .preempt p c | .taskTerminate p c | .dbgStop p c | .dbgUnstop p c => ctxOk p c
  | .loadDataArrive p c _ | .lateData p c _ | .feWaitSatisfy p c _ => ctxOk p c
  | .streamFetch p c q => ctxOk p c && q < 8
  | .recipeReplay p c r => ctxOk p c && r < 56
  | .commandStart q | .engineCompletion q | .engineFault q => queueOk q
  | .matrixResultWrite p _ | .domainSaveDone p => coreOk p
  | .accsvSave p td | .accsvRestore p td => coreOk p && td < 64
  | .ticketGap l td => coreOk l && td < 64
  | .ticketPartArrive _ | .ticketPartRetry _ | .resumption _ => true
  | .flowstoneDemand d | .blackboxMirror d | .ceilingChangeApply d | .hbSend d | .silenceTest d | .evictTimeout d
  | .raiseDeadline d | .joinDeadline d | .carveoutComplete d | .xlinvAll d | .xlinvDone d | .elwctlJoin d | .elwctlLeave d
  | .elwevtPop d | .hevtPop d | .dbgdataRead d | .retryAfterCancel d | .powerCapReached d => dieOk d
  | .launchComplete d _ | .thermalSample d _ _ | .nmcfgWrite d _ | .registerWrite (.fw d) _ _ => dieOk d
  | .xlinvAsid d asid | .xlinvPage d asid _ => dieOk d && asid < 4096
  | .xlresume d n => dieOk d && n < 256
  | .elwctlCap d mhz => dieOk d && mhz < 1024
  | .rbaseWrite d r _ => dieOk d && r < 3
  | .flitCrcRetry d hop | .hopDown d hop => dieOk d && hop < 4
  | .memoryError code _ _ _ _ => code.code < 16
  | .hb d m | .lower d m | .raise d m | .ack d m | .commit d m | .cancel d m | .join d m | .joinack d m | .joinabort d m
  | .leave d m | .evict d m | .elwBadOp d m => elwFits d m
  | .rdreq m | .rdrsp m | .wrreq m | .wrack m | .tkpart m | .tkack m | .aareq m | .aarsp m | .nack m | .tkconf m
  | .notice m | .noteack m | .tokreq m | .tokgrant m | .tokrecall m | .tokreturn m | .collrdy m | .flitUnknownKind m => msgFits m
  | .launch d n | .launchi d n | .waitc d n | .waitcObserved d n | .signalAdd d n | .signalSet d n | .signalTdec d n
  | .skipif d n | .listJump d n | .listCall d n | .listRet d n | .listLoop d n | .listXfer d n | .listFlush d n
  | .listFence d n | .submitGo d n => slotOk d n
  | .hdmWrite _ bytes => bytes.all (fun b => b < 256)
  | .setEndpointId n => n < 256
  | .mctpOtherType t => t != 0 && t != 0x7F && t < 256
  | .resetRelease _ | .warmReset _ | .hdmRead .. | .configRequest | .readSensors .. | .setPowerCap .. | .attest ..
  | .readIdentity .. | .registerWrite .host _ _ | .worulmonWarmReset .. | .getEndpointId | .getMctpVersionSupport | .getMessageTypeSupport
  | .getVendorDefinedMessageSupport | .powerRemoved | .cxlLinkTrained _ | .unknownCommand _ => true

/-! ### Classes and first rows -/

/-- The slot class of an instruction (R41); none for a header or an event. -/
def Instr.cls : Instr → Option Cls
  | .nop .. => none
  | .add .. | .sub .. | .mul .. | .mulh .. | .div .. | .divn .. | .rem .. | .remn .. | .and .. | .or .. | .xor .. | .shl .. |
    .shrl .. | .shra .. | .min .. | .max .. | .minn .. | .maxn .. | .cmp .. | .sel .. | .clz .. | .popc .. | .bfx .. |
    .bfi .. | .addi .. | .andi .. | .ori .. | .xori .. | .shli .. | .shrli .. | .shrai .. | .li .. | .lih .. | .fadd .. |
    .fmul .. | .ffma .. | .fcmp .. | .fcvt .. | .movs .. | .movd .. | .sete .. | .ldg .. | .stg .. | .ldl .. | .stl .. |
    .br .. | .j .. | .call .. | .jr .. | .callr .. | .ret .. | .brt .. | .loop .. | .bsw .. | .ifence | .barinit .. |
    .bararr .. | .barwait .. | .waitcc .. | .fenceL | .fenceE | .gbar .. | .gleave .. | .tdec .. | .endt | .yield |
    .tkopen .. | .tkadd .. | .tkmin .. | .tkmax .. | .tkskip .. | .tkdrain .. | .tkstat .. | .tkclose .. | .aadd .. |
    .amin .. | .amax .. | .axchg .. | .acas .. | .xferOwned .. | .xferShared .. | .xferEngine .. | .lock .. | .unlock .. |
    .tokacq .. | .tokrel .. | .qbind .. | .qunbind .. | .qsync .. | .qstat .. | .trap .. | .rett | .brk .. => some .s
  | .vadd .. | .vsub .. | .vmul .. | .vfma .. | .vmin .. | .vmax .. | .vabs .. | .vneg .. | .vcmp .. | .vred .. | .vscan .. |
    .vshl .. | .vshrI .. | .vshrN .. | .vand .. | .vor .. | .vxor .. | .vnot .. | .vsel .. | .vmov .. | .vbcast .. |
    .vrot .. | .vperm .. | .vshuf .. | .vcompr .. | .vexpd .. | .vbcmp .. | .vbfind .. | .vhash .. | .vcrc .. | .vld .. |
    .vst .. | .vlda .. | .vsta .. | .vstaAdd .. | .vtkadd .. | .vtkmin .. | .vtkmax .. | .vaadd .. | .vamin .. | .vamax .. |
    .vaxchg .. => some .v
  | .vexp2 .. | .vlog2 .. | .vrcp .. | .vrsq .. | .vtanh .. | .vsigm .. | .vcvt .. | .vrng .. | .pand .. | .por .. |
    .pxor .. | .pnot .. | .pcnt .. | .rowpred .. | .rcwupd .. | .rcwadv .. | .rcwld .. | .rcpdef .. | .rcpdefEmbedded .. |
    .drop .. | .rcpclr .. | .rcpclrAll | .rcpstat .. | .ttw .. | .ttr .. => some .x
  | .mma .. | .mmap .. | .mscl .. | .mzero .. | .mtile .. | .mtileImm .. => some .m
  | .copy .. | .gath .. | .exsave .. | .trunc .. | .sieve .. | .resto .. | .fillGap .. | .fillSeal .. | .fillRequant .. |
    .fillUnseal .. | .coll .. | .noteSend .. | .noteRegister .. | .noteDeregister .. | .notePurge .. => some .c
  | .engctlResume .. | .engctlCancel .. | .xferComplete .. | .implicitCheckpoint .. | .commandStart .. |
    .engineCompletion .. | .engineFault .. | .loadDataArrive .. | .lateData .. | .feWaitSatisfy .. | .streamFetch .. |
    .recipeReplay .. | .matrixResultWrite .. | .pairTimeout .. | .flowstoneDemand .. | .ticketPartArrive .. |
    .ticketPartRetry .. | .ticketGap .. | .asyncTrap .. | .selectorPromotion .. | .waitYield .. | .taskDispatch .. |
    .launchComplete .. | .preempt .. | .taskTerminate .. | .memoryError .. | .thermalSample .. | .blackboxMirror .. |
    .ceilingChangeApply .. | .hbSend .. | .silenceTest .. | .evictTimeout .. | .raiseDeadline .. | .joinDeadline .. |
    .hb .. | .lower .. | .raise .. | .ack .. | .commit .. | .cancel .. | .join .. | .joinack .. | .joinabort .. | .leave .. |
    .evict .. | .elwBadOp .. | .rdreq .. | .rdrsp .. | .wrreq .. | .wrack .. | .tkpart .. | .tkack .. | .aareq .. |
    .aarsp .. | .nack .. | .tkconf .. | .notice .. | .noteack .. | .tokreq .. | .tokgrant .. | .tokrecall .. |
    .tokreturn .. | .collrdy .. | .flitCrcRetry .. | .hopDown .. | .flitUnknownKind .. | .launch .. | .launchi .. |
    .waitc .. | .waitcObserved .. | .signalAdd .. | .signalSet .. | .signalTdec .. | .skipif .. | .listJump .. |
    .listCall .. | .listRet .. | .listLoop .. | .listXfer .. | .listFlush .. | .listFence .. | .submitGo .. |
    .nmcfgWrite .. | .carveoutComplete .. | .xlinvAll .. | .xlinvAsid .. | .xlinvPage .. | .xlinvDone .. | .xlresume .. |
    .accsvSave .. | .domainSaveDone .. | .accsvRestore .. | .elwctlJoin .. | .elwctlLeave .. | .elwctlCap .. |
    .elwevtPop .. | .hevtPop .. | .dbgStop .. | .dbgUnstop .. | .dbgdataRead .. | .rbaseWrite .. | .registerWrite .. |
    .resetRelease .. | .warmReset .. | .hdmWrite .. | .hdmRead .. | .configRequest | .readSensors .. | .setPowerCap .. |
    .attest .. | .readIdentity .. | .worulmonWarmReset .. | .setEndpointId .. | .getEndpointId | .getMctpVersionSupport |
    .getMessageTypeSupport | .getVendorDefinedMessageSupport | .mctpOtherType .. | .resumption .. | .retryAfterCancel .. |
    .powerCapReached .. | .powerRemoved | .cxlLinkTrained .. | .unknownCommand .. => none

/-- The first row of the word that an instruction's encoding is: FILL and NOTE have one word each, whose staged MODE selects the
row (R186, R436). -/
def Instr.firstRow : Instr → Instr
  | .fillSeal h | .fillRequant h | .fillUnseal h => .fillGap h
  | .noteRegister h | .noteDeregister h | .notePurge h => .noteSend h
  | i => i

/-- Whether an instruction may stand in a bundle of `bw` words: a LOOP's end lies behind its bundle (R361). -/
def Instr.fitsBundle (bw : Nat) : Instr → Bool
  | .loop _ _ _ _ _ last => bw ≤ last
  | _ => true

end Sys2Proof
end

