-- ==== Sys2Proof/Certificates/Slice0/Obligations.lean ====
section
/-! DEFINITION. What is claimed of the model: encodings, steps, what each instruction computes and where it completes, frames,
landings, memory, traps, commits, tasks, events. A claim names the rules of the manual that it rests on. -/

open Sys2Proof Sys2Proof.Machine

/-! ### Encodings -/

/-- R26 to R59: the words of a well-formed S-class instruction decode to it, in either S slot where it may stand there. -/
def Obligations.EncodeDecodeScalarClass : Prop :=
  ∀ (i : Instr) (bw : Nat), i.wf = true → i.cls = some .s → i.fitsBundle bw = true →
    decodeSlot .s false bw ((encode i).headD 0) ((encode i).getD 1 0) = .ok i ∧
    (s0Only (fld ((encode i).headD 0) 29 22) = false →
      decodeSlot .s true bw ((encode i).headD 0) ((encode i).getD 1 0) = .ok i)

/-- The same of the V class. -/
def Obligations.EncodeDecodeVectorClass : Prop :=
  ∀ (i : Instr) (s1 : Bool) (bw : Nat), i.wf = true → i.cls = some .v →
    decodeSlot .v s1 bw ((encode i).headD 0) ((encode i).getD 1 0) = .ok i

/-- The same of the X class. -/
def Obligations.EncodeDecodeSpecialClass : Prop :=
  ∀ (i : Instr) (s1 : Bool) (bw : Nat), i.wf = true → i.cls = some .x →
    decodeSlot .x s1 bw ((encode i).headD 0) ((encode i).getD 1 0) = .ok i

/-- The same of the M and C classes. The words of FILL and NOTE name one instruction of four, and the staging set the mode. -/
def Obligations.EncodeDecodeMatrixAndCommandClasses : Prop :=
  ∀ (i : Instr) (s1 : Bool) (bw : Nat), i.wf = true →
    (i.cls = some .m → decodeSlot .m s1 bw ((encode i).headD 0) ((encode i).getD 1 0) = .ok i) ∧
    (i.cls = some .c → decodeSlot .c s1 bw ((encode i).headD 0) ((encode i).getD 1 0) = .ok i.firstRow)

/-- R31: the header values that are illegal, and the reason codes that they raise. -/
def Obligations.HeaderLegality : Prop :=
  ∀ w : Nat, w < 2 ^ 32 →
    let h := decodeHdr w
    (hdrFault w = some 1 ↔ fld w 14 13 = 3 ∨ fld w 11 10 = 3 ∨ fld w 9 7 = 6 ∨ fld w 9 7 = 7 ∨ (fld w 11 10 = 0 ∧ fld w 9 7 ≠ 0) ∨ fld w 6 0 ≠ 0) ∧
    (hdrFault w = some 2 ↔ hdrFault w ≠ some 1 ∧ ∃ k, k < 8 ∧ slotSet h.pres k = true ∧ slotSet h.keep k = true) ∧
    (hdrFault w = none → (decodeHdr w).bh ≤ 2 ∧ (decodeHdr w).ic ≤ 2 ∧ (decodeHdr w).ilv ≤ 5) ∧
    (∀ r ws img, hdrFault w = some r → decodeBundle (w :: ws) img = .error (8, r))

/-- R38: a KEEP bit raises reason code 10 where the slot's image is empty or holds control flow, a system operation, ENDT or YIELD; a
kept irrevocable operation needs CK as R35 has it; any other image is the slot's operation, an RCPDEF where what it names is fit. -/
def Obligations.KeepNeedsFitImage : Prop :=
  ∀ (h : Hdr) (bw : Nat) (pr : List (Nat × Nat × Nat)) (img : List (Nat × Nat × Nat × Instr)) (done : List SlotOp) (k : Nat) (ks : List Nat),
    slotSet h.pres k = false → slotSet h.keep k = true →
    (img.find? (fun t => t.1 == k) = none → bundleOps h bw pr img done (k :: ks) = .error (k, 10)) ∧
    (∀ w w2 i, img.find? (fun t => t.1 == k) = some (k, w, w2, i) →
      (i.unfitKeep = true → bundleOps h bw pr img done (k :: ks) = .error (k, 10)) ∧
      (i.unfitKeep = false → i.irrevocable = true → h.ck = false → bundleOps h bw pr img done (k :: ks) = .error (k, 9)) ∧
      (i.unfitKeep = false → rcpdefOk done i = true → i.irrevocable = false ∨ h.ck = true →
        bundleOps h bw pr img done (k :: ks) = bundleOps h bw pr img (done ++ [⟨k, true, w, w2, i⟩]) ks))

/-- R39, R40, R41: a decoded bundle has 1 to 16 words, no more than its packet holds, and its operations stand in ascending slots, each
present or kept and none both. R35: one that decodes with CK = 0 holds no irrevocable operation, present or re-issued. R219: a kept RCPDEF that
names no fit operation of its bundle raises reason code 7, which the model reads so for kept slots too (log 59). -/
def Obligations.DecodedBundle : Prop :=
  (∀ (ws : List Nat) (img : List (Nat × Nat × Nat × Instr)) (b : Bundle), decodeBundle ws img = .ok b →
    1 ≤ b.words ∧ b.words ≤ 16 ∧ b.words ≤ ws.length ∧ b.ops.Pairwise (fun o q => o.slot < q.slot) ∧
    ∀ o ∈ b.ops, o.slot < 8 ∧ (o.kept = true → slotSet b.hdr.keep o.slot = true) ∧ (o.kept = false → slotSet b.hdr.pres o.slot = true)) ∧
  (∀ (ws : List Nat) (img : List (Nat × Nat × Nat × Instr)) (b : Bundle), decodeBundle ws img = .ok b → b.hdr.ck = false →
    ∀ o ∈ b.ops, o.i.irrevocable = false) ∧
  (∀ (h : Hdr) (bw : Nat) (pr : List (Nat × Nat × Nat)) (img : List (Nat × Nat × Nat × Instr)) (done : List SlotOp) (k w w2 : Nat) (i : Instr) (ks : List Nat),
    slotSet h.pres k = false → slotSet h.keep k = true → img.find? (fun t => t.1 == k) = some (k, w, w2, i) → i.unfitKeep = false →
    rcpdefOk done i = false → bundleOps h bw pr img done (k :: ks) = .error (k, 7))

/-- Words that the manual writes out, with the instructions that they stand for. -/
def Obligations.WordsOfTheManual : Prop :=
  decodeSlot .s false 2 0x04820C46 0 = .ok (.cmp 2 3 4 6) ∧
  decodeSlot .s false 3 0x44C10830 0x04000000 = .ok (.sel 1 2 3 4) ∧
  decodeSlot .s false 3 0x45C20850 0x1B040000 = .ok (.bfi 2 2 5 27 1) ∧
  decodeSlot .s false 2 0x07830C3F 0 = .ok (.shrai 3 3 63) ∧
  decodeSlot .s false 2 0x0844BEEF 0 = .ok (.lih 4 0xBEEF) ∧
  decodeSlot .s false 2 0x0A010831 0 = .ok (.fadd 1 2 3 1) ∧
  decodeSlot .s false 3 0x4A810830 0x04400000 = .ok (.ffma 1 2 3 4 2) ∧
  decodeSlot .s false 2 0x1D000000 0 = .ok .fenceL ∧
  decodeSlot .s true 2 0x1E832401 0 = .ok (.tdec 3 9 1) ∧
  decodeSlot .s false 2 0x3C400000 0 = .ok .rett ∧
  decodeSlot .s true 2 0x3C400000 0 = .error 8 ∧
  decodeSlot .v false 2 0xFFFFFFFF 0 = .error 5

/-! ### Steps -/

/-- An event that is due is carried out by the meaning of its instruction (log 3). -/
def Obligations.StepRunsDueEvent : Prop :=
  ∀ (s : State) (i : Instr) (l : List Instr), s.agenda = i :: l → step s = exec i { s with agenda := l }

/-- The operations of the bundle that the bytes at the pc decode to are run by the meanings of their instructions, in slot order
(R42, R43, R395). In the step of a core cycle of core `p` whose selector chooses context `c`, where `c` offers bundle `o` and the
bundle has room and can be committed, the step is that issue, with the selector's count (R384); `snapOut` is the snapshot of a level-0 loop that
ends, on a core with SNAP (R485). -/
def Obligations.StepRunsDecodedBundle : Prop :=
  (∀ (s u v r : State) (p c : Nat) (l : List Nat) (o : Offer),
    s.agenda = [] → s.turn = false → s.order = p :: l →
    u = ({ s with order := l ++ [p] } : State).cycleOpen p → (u.die (dieOf p)).elw.halted = false →
    v = u.cycleStart p → (v.core p).joint = none → (v.core p).replay = false → v.choose p (v.eligible p) = some c →
    ({ v with cur := p, ctx := c } : State).prep = .go o → o.pair = none →
    r = ({ v with cur := p, ctx := c } : State).issueRun o → r.stands = true →
    step s = .next { ((({ r.snapOut.issueEnd with cur := v.cur, ctx := v.ctx } : State).countWaits p (v.eligible p) (some c)).logCycle p c) with turn := true }) ∧
  (∀ (s : State) (o : Offer), s.issueRun o = { (s.issueOps o).endBundle o with free := ((s.issueOps o).endBundle o).free + 1024 }) ∧
  (∀ (s : State) (o : Offer), s.issueOps o = { (o.ops.foldl (fun s x => s.issueSlot x)
    (((s.fetchTo o.a).openBun o).modBun (fun b => { b with checked := true, asif := s.asIf o }))) with kept := none, slot := 0 }) ∧
  (∀ (s t : State) (x : SlotInst), Instr.actsAfter x.i = false → exec x.i (s.atSlot x) = .next t →
    s.issueSlot x = t.modAr (fun a => { a with images := Tbl.put a.images x.slot ((s.atSlot x).imageOf x) })) ∧
  (∀ (s : State) (a : Nat) (b : Bundle), s.seek seekFuel s.ar.pc = .ok a → (packetsTo s.ar.pc a).find? (fun k => s.packetPois k) = none →
    decodeBundle (s.wordsFrom a) s.ar.imgList = .ok b → s.condHolds b.hdr = true →
    s.offered = .ok ⟨a, b.hdr, b.words, b.ops.map s.slotInst⟩)

/-- Every step answers a next state: no instruction, no event and no operand stops the machine (R403: what goes wrong is a trap). That an event
whose condition does not hold changes nothing, and so answers a next state too, is the model's choice (DESIGN CHOICE, log 27) and no rule. -/
def Obligations.EveryStepGoesOn : Prop :=
  (∀ (i : Instr) (s : State), ∃ t, exec i s = .next t) ∧ (∀ s : State, s.goesOn)

/-! ### Scalar instructions: where they complete and with what -/

/-- R251, R253: sums, products, logic and extremes of 64-bit words. -/
def Obligations.IntegerArithmetic : Prop :=
  ∀ (s : State) (d a b : Nat), s.xReady [a, b] →
    let x := s.rx a
    let y := s.rx b
    exec (.add d a b) s = .next (s.outX d 1 (BitVec.ofNat 64 (x.toNat + y.toNat))) ∧
    exec (.sub d a b) s = .next (s.outX d 1 (BitVec.ofInt 64 ((x.toNat : Int) - y.toNat))) ∧
    exec (.mul d a b) s = .next (s.outX d 3 (BitVec.ofNat 64 (x.toNat * y.toNat))) ∧
    exec (.mulh d a b) s = .next (s.outX d 3 (BitVec.ofInt 64 ((x.toInt * y.toInt).fdiv (2 ^ 64)))) ∧
    exec (.and d a b) s = .next (s.outX d 1 (x &&& y)) ∧
    exec (.or d a b) s = .next (s.outX d 1 (x ||| y)) ∧
    exec (.xor d a b) s = .next (s.outX d 1 (x ^^^ y)) ∧
    exec (.min d a b) s = .next (s.outX d 1 (if x.toInt ≤ y.toInt then x else y)) ∧
    exec (.max d a b) s = .next (s.outX d 1 (if x.toInt ≥ y.toInt then x else y)) ∧
    exec (.minn d a b) s = .next (s.outX d 1 (if x.toNat ≤ y.toNat then x else y)) ∧
    exec (.maxn d a b) s = .next (s.outX d 1 (if x.toNat ≥ y.toNat then x else y))

/-- R252: shift amounts are the whole of b, and immediate ones lie from 0 to 63. -/
def Obligations.Shifts : Prop :=
  (∀ (s : State) (d a b : Nat), s.xReady [a, b] →
    let x := s.rx a
    let n := (s.rx b).toNat
    exec (.shl d a b) s = .next (s.outX d 1 (BitVec.ofNat 64 (if n < 64 then x.toNat * 2 ^ n else 0))) ∧
    exec (.shrl d a b) s = .next (s.outX d 1 (BitVec.ofNat 64 (if n < 64 then x.toNat / 2 ^ n else 0))) ∧
    exec (.shra d a b) s = .next (s.outX d 1 (BitVec.ofInt 64 (x.toInt.fdiv (2 ^ min n 63))))) ∧
  (∀ (s : State) (d a n : Nat), s.xReady [a] → n < 64 →
    let x := s.rx a
    exec (.shli d a n) s = .next (s.outX d 1 (BitVec.ofNat 64 (x.toNat * 2 ^ n))) ∧
    exec (.shrli d a n) s = .next (s.outX d 1 (BitVec.ofNat 64 (x.toNat / 2 ^ n))) ∧
    exec (.shrai d a n) s = .next (s.outX d 1 (BitVec.ofInt 64 (x.toInt.fdiv (2 ^ n))))) ∧
  (∀ (s1 : Bool) (bw d a b f w2 : Nat), d < 64 → a < 64 → b < 64 → f < 16 →
    decodeSlot .s s1 bw (mkR 0 0x0B d a b f) w2 = (if f = 0 then .ok (.shl d a b) else .error 7) ∧
    decodeSlot .s s1 bw (mkR 0 0x0C d a b f) w2 = (if f = 0 then .ok (.shrl d a b) else .error 7) ∧
    decodeSlot .s s1 bw (mkR 0 0x0D d a b f) w2 = (if f = 0 then .ok (.shra d a b) else .error 7)) ∧
  (∀ (s1 : Bool) (bw d a i w2 : Nat), d < 64 → a < 64 → i < 1024 →
    decodeSlot .s s1 bw (mkI 0 0x1C d a i) w2 = (if i < 64 then .ok (.shli d a i) else .error 7) ∧
    decodeSlot .s s1 bw (mkI 0 0x1D d a i) w2 = (if i < 64 then .ok (.shrli d a i) else .error 7) ∧
    decodeSlot .s s1 bw (mkI 0 0x1E d a i) w2 = (if i < 64 then .ok (.shrai d a i) else .error 7)) ∧
  (mkI 0 0x1E 3 3 63 = 0x0783_0C3F ∧ ∀ s : State, s.xReady [3] →
    exec (.shrai 3 3 63) s = .next (s.outX 3 1 (if (s.rx 3).toInt < 0 then BitVec.allOnes 64 else 0)))

/-- R253: quotients and remainders with their defined corners, which do not trap, and what ties the two together. -/
def Obligations.Division : Prop :=
  (∀ (s : State) (d a b : Nat), s.xReady [a, b] →
    ∃ q qn r rn : Word,
      exec (.div d a b) s = .next (s.outX d 20 q) ∧ exec (.divn d a b) s = .next (s.outX d 20 qn) ∧
      exec (.rem d a b) s = .next (s.outX d 20 r) ∧ exec (.remn d a b) s = .next (s.outX d 20 rn) ∧
      (let x := s.rx a
       let y := s.rx b
       (y = 0 → q = 0xFFFF_FFFF_FFFF_FFFF ∧ qn = 0xFFFF_FFFF_FFFF_FFFF ∧ r = x ∧ rn = x) ∧
       (x.toInt = -2 ^ 63 → y.toInt = -1 → q = 0x8000_0000_0000_0000 ∧ r = 0) ∧
       (y ≠ 0 → ¬ (x.toInt = -2 ^ 63 ∧ y.toInt = -1) → q.toInt = x.toInt.tdiv y.toInt ∧ r.toInt = x.toInt.tmod y.toInt) ∧
       (y ≠ 0 → qn.toNat = x.toNat / y.toNat ∧ rn.toNat = x.toNat % y.toNat) ∧
       (y ≠ 0 → x = q * y + r ∧ x = qn * y + rn))) ∧
  (∀ (s1 : Bool) (bw d a b f w2 : Nat), d < 64 → a < 64 → b < 64 → f < 16 →
    decodeSlot .s s1 bw (mkR 0 0x04 d a b f) w2 = (if f = 0 then .ok (.div d a b) else .error 7) ∧
    decodeSlot .s s1 bw (mkR 0 0x05 d a b f) w2 = (if f = 0 then .ok (.divn d a b) else .error 7) ∧
    decodeSlot .s s1 bw (mkR 0 0x06 d a b f) w2 = (if f = 0 then .ok (.rem d a b) else .error 7) ∧
    decodeSlot .s s1 bw (mkR 0 0x07 d a b f) w2 = (if f = 0 then .ok (.remn d a b) else .error 7))

/-- R49, R254, R256: the ten integer conditions and SEL; a field of `n` bits from `pos` extracted and inserted, bit by bit. -/
def Obligations.CompareSelectAndBitFields : Prop :=
  (∀ (s : State) (d a b c : Nat), s.xReady [a, b] → c ≤ 9 →
    let x := s.rx a
    let y := s.rx b
    exec (.cmp d a b c) s = .next (s.outX d 1 (if
      ([x == y, x != y, decide (x.toInt < y.toInt), decide (x.toInt ≥ y.toInt), decide (x.toInt ≤ y.toInt), decide (x.toInt > y.toInt),
        decide (x.toNat < y.toNat), decide (x.toNat ≥ y.toNat), decide (x.toNat ≤ y.toNat), decide (x.toNat > y.toNat)] : List Bool).getD c false
      then 1 else 0))) ∧
  (∀ (s : State) (d a b c : Nat), s.xReady [a, b, c] →
    exec (.sel d a b c) s = .next (s.outX d 1 (if s.rx c ≠ 0 then s.rx a else s.rx b))) ∧
  (∀ (s : State) (d a b pos n : Nat), s.xReady [a, b] → 1 ≤ n → pos + n ≤ 64 →
    ∃ u v w : Word,
      exec (.bfx d a pos (n - 1) 0) s = .next (s.outX d 1 u) ∧ exec (.bfx d a pos (n - 1) 1) s = .next (s.outX d 1 v) ∧
      exec (.bfi d a b pos (n - 1)) s = .next (s.outX d 1 w) ∧
      (∀ j, j < 64 →
        u.getLsbD j = (decide (j < n) && (s.rx a).getLsbD (pos + j)) ∧
        v.getLsbD j = (s.rx a).getLsbD (pos + min j (n - 1)) ∧
        w.getLsbD j = if pos ≤ j ∧ j < pos + n then (s.rx b).getLsbD (j - pos) else (s.rx a).getLsbD j))

/-- R255: leading zeros and ones counted. -/
def Obligations.CountBits : Prop :=
  (∀ (s : State) (d a : Nat), s.xReady [a] →
    ∃ n k : Nat, n ≤ 64 ∧ k ≤ 64 ∧
      exec (.clz d a) s = .next (s.outX d 1 (BitVec.ofNat 64 n)) ∧
      (s.rx a = 0 → n = 64) ∧ (s.rx a ≠ 0 → n < 64 ∧ 2 ^ (63 - n) ≤ (s.rx a).toNat ∧ (s.rx a).toNat < 2 ^ (64 - n)) ∧
      exec (.popc d a) s = .next (s.outX d 1 (BitVec.ofNat 64 k)) ∧
      k = ((List.range 64).filter (fun j => (s.rx a).getLsbD j)).length) ∧
  (∀ (s1 : Bool) (bw d a b f w2 : Nat), d < 64 → a < 64 → b < 64 → f < 16 →
    decodeSlot .s s1 bw (mkR 0 0x14 d a b f) w2 = (if b = 0 ∧ f = 0 then .ok (.clz d a) else .error 7) ∧
    decodeSlot .s s1 bw (mkR 0 0x15 d a b f) w2 = (if b = 0 ∧ f = 0 then .ok (.popc d a) else .error 7))

/-- R257: the immediate is sign-extended in all four forms. -/
def Obligations.ImmediateArithmetic : Prop :=
  (∀ (s : State) (d a i : Nat), s.xReady [a] → i < 1024 →
    let m : Word := BitVec.ofInt 64 (if i < 512 then (i : Int) else (i : Int) - 1024)
    exec (.addi d a i) s = .next (s.outX d 1 (s.rx a + m)) ∧
    exec (.andi d a i) s = .next (s.outX d 1 (s.rx a &&& m)) ∧
    exec (.ori d a i) s = .next (s.outX d 1 (s.rx a ||| m)) ∧
    exec (.xori d a i) s = .next (s.outX d 1 (s.rx a ^^^ m)) ∧
    (i = 1023 → exec (.andi d a i) s = .next (s.outX d 1 (s.rx a)) ∧ exec (.xori d a i) s = .next (s.outX d 1 (~~~ s.rx a)))) ∧
  (∀ (s1 : Bool) (bw d a i w2 : Nat), d < 64 → a < 64 → i < 1024 →
    decodeSlot .s s1 bw (mkI 0 0x18 d a i) w2 = .ok (.addi d a i) ∧ decodeSlot .s s1 bw (mkI 0 0x19 d a i) w2 = .ok (.andi d a i) ∧
    decodeSlot .s s1 bw (mkI 0 0x1A d a i) w2 = .ok (.ori d a i) ∧ decodeSlot .s s1 bw (mkI 0 0x1B d a i) w2 = .ok (.xori d a i) ∧
    decodeSlot .s s1 bw (mkI 1 0x18 d a i) 0 = .error 5)

/-- R259 to R261: float arithmetic on the low 32 bits; the first NaN operand comes back quiet, an undefined sum or product gives the
default NaN; the float conditions. -/
def Obligations.ScalarFloat : Prop :=
  (∀ (s : State) (d a b rm : Nat), s.xReady [a, b] →
    let x := (s.rx a).toNat % 2 ^ 32
    let y := (s.rx b).toNat % 2 ^ 32
    exec (.fadd d a b rm) s = .next (s.outX d 4 (BitVec.ofNat 64 (fAdd x y 0 rm))) ∧
    exec (.fmul d a b rm) s = .next (s.outX d 4 (BitVec.ofNat 64 (fMul x y 0 rm)))) ∧
  (∀ x y rm : Nat,
    (isNan x 0 = true → fAdd x y 0 rm = quiet x 0 ∧ fMul x y 0 rm = quiet x 0) ∧
    (isNan x 0 = false → isNan y 0 = true → fAdd x y 0 rm = quiet y 0 ∧ fMul x y 0 rm = quiet y 0) ∧
    (x = 0x7F800000 → y = 0xFF800000 → fAdd x y 0 rm = 0x7FC00000) ∧ (x = 0 → y = 0x7F800000 → fMul x y 0 rm = 0x7FC00000)) ∧
  (∀ (s : State) (d a b c rm : Nat), s.xReady [a, b, c] →
    exec (.ffma d a b c rm) s = .next (s.outX d 4 (BitVec.ofNat 64
      (fFma ((s.rx a).toNat % 2 ^ 32) ((s.rx b).toNat % 2 ^ 32) ((s.rx c).toNat % 2 ^ 32) 0 rm)))) ∧
  (∀ (s : State) (d a b c : Nat), s.xReady [a, b] → c ≤ 7 →
    let x := (s.rx a).toNat % 2 ^ 32
    let y := (s.rx b).toNat % 2 ^ 32
    let k := cmpV (valueOf x 0) (valueOf y 0)
    let n := isNan x 0 || isNan y 0
    exec (.fcmp d a b c) s = .next (s.outX d 2 (if
      ([!n && k == 0, n || k != 0, !n && k == -1, !n && k != -1, !n && k != 1, !n && k == 1, n, !n] : List Bool).getD c false then 1 else 0))) ∧
  (∀ (s : State) (d a : Nat) (w : CW), s.xReady [a] →
    (w.rm ≠ 4 → exec (.fcvt d a w) s = .next (s.outX d 4 (aluFcvt (s.rx a) w 0))) ∧
    (w.rm = 4 → exec (.fcvt d a w) s =
      .next (s.outX d 4 (aluFcvt (s.rx a) w (rngWord (s.ar.getSr 0x006).toNat s.rngCtr 0))).useRng))

/-- R32, R134, R135, R365: operations that leave no result. A fence orders at its bundle's commit (R350, R398). -/
def Obligations.OperationsWithoutResult : Prop :=
  (∀ (s : State) (bh ck ic ilv : Nat), exec (.nop bh ck ic ilv) s = .next s) ∧
  (∀ (s : State) (c n : Nat), (s.ar.getSr (0x010 + c)).toNat ≤ n → exec (.waitcc c n) s = .next s) ∧
  (∀ s : State, s.releaseReady → exec .fenceL s = .next (s.defer .fenceL [])) ∧
  (∀ s : State, s.releaseReady → s.holdsCommands = false → s.cmdsOf s.tid = [] → exec .fenceE s = .next (s.defer .fenceE [])) ∧
  (∀ s : State, s.holdsCommands = false → (∀ c ∈ s.cmdsOf s.tid, c.kind ≠ 0) →
    ∃ t, exec .ifence s = .next t ∧ t.cx.pkts = [] ∧ t.cx.pktPois = [] ∧ t.bun.cost = 6 ∧ t.ar = s.ar)

/-- R217, R141, R96, R123, R216: reads and writes of state registers and staging registers. A write of ENGCTL waits for its bundle's
commit; any other lands with latency 1 and takes the register's writable bits, GLAT clamped to 16 to 4,096, each field of LATEWIN to 16 or more. R258: LI with and without
its second word, and LIH. -/
def Obligations.MovesAndImmediates : Prop :=
  (∀ (s : State) (d n : Nat), exec (.movs d n) s = .next (s.outX d 1 (s.readSr n))) ∧
  (∀ (s : State) (a n : Nat), s.xReady [a] → n ≠ 0x00D → exec (.movd a n) s = .next (s.out .sr n 1 (s.rx a).toNat)) ∧
  (∀ (s : State) (a : Nat), s.xReady [a] → exec (.movd a 0x00D) s = .next (s.defer (.movd a 0x00D) [(s.rx a).toNat])) ∧
  (∀ (s : State) (a k st i : Nat), s.xReady [a] → exec (.sete a k st i) s = .next (s.out .stg (k * 32 + st * 16 + i) 1 (s.rx a).toNat)) ∧
  (∀ (a : Arch) (l : Landing), l.kind = .sr → l.val < 2 ^ 64 →
    let o := a.getSr l.num
    let w := (a.landReg l).getSr l.num
    (l.num = 0x008 → fld w.toNat 31 16 = Nat.max 16 (fld l.val 31 16) ∧ fld w.toNat 15 0 = Nat.max 16 (fld l.val 15 0) ∧ w.toNat < 2 ^ 32) ∧
    (l.num = 0x009 → w.toNat = Nat.min 4096 (Nat.max 16 (l.val % 2 ^ 13))) ∧
    (l.num = 0x00B → w.toNat = l.val % 2) ∧
    (l.num = 0x00A → w.toNat = Nat.max 256 (l.val % 2 ^ 32)) ∧
    (0x010 ≤ l.num → l.num ≤ 0x017 → w.toNat = l.val % 2 ^ 16) ∧
    (0x040 ≤ l.num → w = o) ∧
    (∀ n, n ≠ l.num → (a.landReg l).getSr n = a.getSr n) ∧ (∀ n, (a.landReg l).getX n = a.getX n)) ∧
  (({} : Arch).getSr 0x009 = 4096 ∧ ({} : Arch).getSr 0x005 = 0x8888_8888_8888_8888 ∧ ({} : Arch).getSr 0x008 = 4096 * 2 ^ 16 + 256) ∧
  (∀ (s : State) (d i h : Nat), i < 2 ^ 16 → h < 2 ^ 30 →
    exec (.li d i none) s = .next (s.outX d 1 (BitVec.ofInt 64 (if i < 2 ^ 15 then (i : Int) else (i : Int) - 2 ^ 16))) ∧
    exec (.li d i (some h)) s = .next (s.outX d 1 (BitVec.ofInt 64
      (if h < 2 ^ 29 then ((h * 2 ^ 16 + i : Nat) : Int) else ((h * 2 ^ 16 + i : Nat) : Int) - 2 ^ 46))) ∧
    (s.xReady [d] → exec (.lih d i) s = .next (s.outX d 1 (s.rx d <<< 16 ||| BitVec.ofNat 64 i))))

/-! ### Results in flight and their landing -/

/-- R60, R42: issuing an instruction of the register kind changes no register, no memory and no other unit: it adds results in flight,
each due `lat` cycles after the bundle's own and naming a destination of the instruction. Every byte of memory, scratchpads,
accumulators and instruction memories reads as before. -/
def Obligations.RegisterInstructionFrame : Prop :=
  ∀ (i : Instr) (s : State), i.resultOnly = true → s.bun.checked = true ∨ s.opCheck i = .ok →
    ∃ t, exec i s = .next t ∧ s.KeepsOutside t ∧ s.ar.KeepsVisible t.ar ∧ t.cx.wbuf = s.cx.wbuf ∧ t.cx.image = s.cx.image ∧
      t.ar.loads = s.ar.loads ∧ (∀ pa, t.readPA pa = s.readPA pa) ∧ (∀ n, t.rx n = s.rx n) ∧ (∀ n, t.rp n = s.rp n) ∧
      (∀ l ∈ t.ar.inflight, l ∈ s.ar.inflight ∨ ((l.kind, l.num) ∈ i.lands ∧ l.iss = s.ar.scyc + 1 ∧ l.slot = s.slot ∧ s.ar.scyc + 1 < l.cyc)) ∧
      (∀ l ∈ s.ar.inflight, l ∈ t.ar.inflight)

/-- R60, R61: a scalar result due in a cycle is in its register once that cycle has ended, the last of several; a register for which
nothing is due keeps its value, and what is due later stays in flight. -/
def Obligations.ResultLandsAtItsCycle : Prop :=
  ∀ (s : State) (n : Nat), n ≠ 0 →
    s.endCycle.rx n =
      (match (s.ar.inflight.filter (fun l => l.cyc == s.ar.scyc && l.kind == .x && l.num == n && l.pois.isNone)).getLast? with
       | some l => BitVec.ofNat 64 l.val
       | none => s.rx n) ∧
    s.endCycle.ar.inflight = s.ar.inflight.filter (fun l => l.cyc != s.ar.scyc)

/-- R61: of two results due for one register in one cycle, the one of the later bundle survives, and within a bundle the one of the later
slot, whichever was entered first. -/
def Obligations.LaterResultSurvives : Prop :=
  ∀ (s : State) (ls : List Landing) (l m : Landing) (n : Nat), n ≠ 0 →
    l.kind = .x → m.kind = .x → l.num = n → m.num = n → l.pois = none → m.pois = none → l.cyc = s.ar.scyc → m.cyc = s.ar.scyc →
    l.iss < m.iss ∨ (l.iss = m.iss ∧ l.slot < m.slot) →
    (∀ k ∈ ls, ¬ (k.kind = .x ∧ k.num = n ∧ k.cyc = s.ar.scyc)) →
    s.ar.inflight = insertLanding l (insertLanding m ls) ∨ s.ar.inflight = insertLanding m (insertLanding l ls) →
    s.endCycle.rx n = BitVec.ofNat 64 m.val

/-- R45: x0 reads as zero and takes no write, p0 reads as all true and takes no write; PN = 0 enables every lane; a vector code from 56 reads
a stream. -/
def Obligations.HardwiredRegisters : Prop :=
  (∀ (s : State), s.rx 0 = 0 ∧ s.rp 0 = BitVec.allOnes 256) ∧
  (∀ (s : State) (l : Landing), l.num = 0 → l.kind = .x ∨ l.kind = .p → ∀ n, (s.landOne l).rx n = s.rx n ∧ (s.landOne l).rp n = s.rp n) ∧
  (∀ (s : State) (w i : Nat), w = 4 ∨ w = 8 ∨ w = 16 ∨ w = 32 → i < 2048 / w → act (s.rp 0).toNat w i = true) ∧
  (∀ (s : State) (n : Nat), 56 ≤ n → s.rv n = s.headElem (n - 56))

/-- R95 step 3, R91: a poisoned result writes no value and marks its register; the mark holds the address that the POISON trap of a
reader names, and goes with the next clean result. -/
def Obligations.PoisonedResult : Prop :=
  ∀ (a : Arch) (l : Landing) (ad : Nat), l.kind = .x → l.num ≠ 0 →
    (l.pois = some ad → (a.landReg l).getX l.num = a.getX l.num ∧ Tbl.get 0 (a.landReg l).xpois l.num = ad ∧
      Tbl.has (a.landReg l).xpois l.num = true) ∧
    (l.pois = none → (a.landReg l).getX l.num = BitVec.ofNat 64 l.val) ∧
    (∀ s : State, s.ar = a → s.ar.awaited .x l.num = none → Tbl.has a.xpois l.num = true →
      s.chkX l.num = .trap { cause := 7, d0 := 0, d1 := Tbl.get 0 a.xpois l.num })

/-! ### Transfers -/

/-- R353 to R359: BR, J, JR, RET and BRT leave the target of their bundle, or none where they fall through, with their cost in core cycles;
the lowest BRT condition that holds selects the target. R357, R358: a
call writes the link value with latency 1 and pushes it on the return stack of eight entries. That CALLR in the last bundle of a bank is no
trap, while CALL there is one, is how the model reads R357 (DEDUCED, log 53). -/
def Obligations.TransfersLeaveTheirTarget : Prop :=
  (∀ (s : State) (a b c off : Nat), s.xReady [a, b] →
    (condI c (s.rx a).toNat (s.rx b).toNat = false →
      exec (.br a b c off) s = .next (s.modBun (fun u => { u with cost := if s.bun.bh = 1 then 6 else 1 }))) ∧
    (∀ t, condI c (s.rx a).toNat (s.rx b).toNat = true → s.relTarget s.bun.pc (4 * sextI 30 off) = .ok t →
      exec (.br a b c off) s = .next (s.modBun (fun u => { u with
        target := some t, cost := if s.bun.bh = 1 then 2 else 6, noEnd := true, out := some t })))) ∧
  (∀ (s : State) (o t : Nat), s.relTarget s.bun.pc (4 * sextI 22 o) = .ok t →
    exec (.j o) s = .next (s.modBun (fun u => { u with target := some t, cost := 2, noEnd := true, out := some t }))) ∧
  (∀ (s : State) (a t : Nat), s.xReady [a] → s.regTarget (s.rx a).toNat = .ok t →
    exec (.jr a) s = .next (s.modBun (fun u => { u with target := some t, cost := 6, noEnd := true, out := some t })) ∧
    ∃ v, exec (.ret a) s = .next v ∧ v.bun.target = some t ∧ v.bun.cost = (if s.cx.rets.head? = some (s.rx a).toNat then 2 else 6) ∧
      v.cx.rets = s.cx.rets.drop 1 ∧ v.ar = s.ar) ∧
  (∀ (s : State) (ca cb cc neg cd off : Nat), s.xReady [ca, cb, cc, cd] →
    ((∀ k, k < 4 → s.brtCond ([ca, cb, cc, cd].getD k 0) neg k = false) →
      exec (.brt ca cb cc neg cd off) s = .next (s.modBun (fun u => { u with cost := if s.bun.bh = 1 then 6 else 1 }))) ∧
    (∀ k t, k < 4 → s.brtCond ([ca, cb, cc, cd].getD k 0) neg k = true → (∀ j, j < k → s.brtCond ([ca, cb, cc, cd].getD j 0) neg j = false) →
      s.relTarget s.bun.pc (4 * sextI 24 off + 64 * k) = .ok t →
      exec (.brt ca cb cc neg cd off) s = .next (s.modBun (fun u => { u with
        target := some t, cost := if k = 0 ∧ s.bun.bh = 1 then 2 else 6, noEnd := true, out := some t })))) ∧
  (∀ (s : State) (o t : Nat), s.relTarget s.bun.pc (4 * sextI 22 o) = .ok t → s.bun.next % 2 ^ 17 < codeEnd →
    ∃ v, exec (.call o) s = .next v ∧ v.bun.target = some t ∧ v.bun.cost = 2 ∧ v.cx.rets = (s.bun.next :: s.cx.rets).take 8 ∧
      v.ar.inflight = insertLanding ⟨s.ar.scyc + 2, s.ar.scyc + 1, s.slot, s.bun.pc, .x, 63, s.bun.next % 2 ^ 64, none⟩ s.ar.inflight) ∧
  (∀ (s : State) (d a t : Nat), s.xReady [a] → s.regTarget (s.rx a).toNat = .ok t →
    ∃ v, exec (.callr d a) s = .next v ∧ v.bun.target = some t ∧ v.bun.cost = 6 ∧ v.cx.rets = (s.bun.next :: s.cx.rets).take 8 ∧
      v.ar.inflight = insertLanding ⟨s.ar.scyc + 2, s.ar.scyc + 1, s.slot, s.bun.pc, .x, d, s.bun.next % 2 ^ 64, none⟩ s.ar.inflight)

/-- R361, R366: LOOP starts its level at the bundle that follows it, or skips the body where its trip count is 0; BSW goes to the other
bank and ends every level. -/
def Obligations.LoopsAndBankSwitch : Prop :=
  (∀ (s : State) (d a lvl src tripi last f : Nat), (src = 1 → s.xReady [a]) → s.fallTarget (s.bun.pc / 2 ^ 17) s.bun.pc s.bun.words = .ok f →
    (s.tripOf a src tripi ≠ 0 → s.ar.endsAt s.bun.pc = [] →
      exec (.loop d a lvl src tripi last) s = .next (s.modBun (fun b => { b with
        cost := 1, ends := b.ends ++ [.loopSet lvl (s.tripOf a src tripi) b.next (s.bun.pc + 4 * last) d true] }))) ∧
    (∀ t, s.tripOf a src tripi = 0 → s.fallTarget (s.bun.pc / 2 ^ 17) (s.loopEnd last) (s.bundleWords (s.loopEnd last)) = .ok t →
      ∃ v, exec (.loop d a lvl src tripi last) s = .next v ∧ v.bun.target = some t ∧ v.bun.cost = 2 ∧ v.ar = s.ar)) ∧
  (∀ (s : State) (a i t : Nat), s.xReady [a] →
    let o := modI 64 (((s.rx a).toNat : Int) + 4 * sextI 10 i)
    o < 2 ^ 17 → s.targetCheck o (1 - s.bun.pc / 2 ^ 17) o = .ok t →
    exec (.bsw a i) s = .next (s.modBun (fun b => { b with
      target := some t, cost := 6, noEnd := true, out := some t, outAll := true })))

/-- R8, R28, R354, R362: at the end of its context cycle a bundle with a transfer moves the pc to its target, and one that ends a loop's body
which goes on to the loop's start; any other to the word behind it in its packet, or to the next packet where the packet has no more words or
only fill. The context cycle counts by one. -/
def Obligations.BundleEndMovesThePc : Prop :=
  ∀ (s : State) (o : Offer),
    let e := if s.bun.noEnd then {} else s.ar.endTest (s.ar.endsAt o.a)
    (∀ t, s.bun.target = some t → (s.endBundle o).ar.pc = t) ∧
    (∀ t, s.bun.target = none → e.back = some t → (s.endBundle o).ar.pc = t) ∧
    (s.bun.target = none → e.back = none →
      let b := o.a + 4 * s.bun.words
      (b / 64 = o.a / 64 → s.word b ≠ 0 → (s.endBundle o).ar.pc = b) ∧
      (b / 64 ≠ o.a / 64 ∨ (∀ w ∈ s.wordsFrom b, w = 0) → (s.endBundle o).ar.pc = o.a / 64 * 64 + 64)) ∧
    (s.endBundle o).ar.scyc = s.ar.scyc + 1

/-- R34, R364: the issue condition of a header: without a condition, or without a loop in progress at its level, it holds; IC = 1 holds in the first
iteration, IC = 2 in the last; where it fails no operation of the bundle acts. -/
def Obligations.IssueCondition : Prop :=
  ∀ (s : State) (h : Hdr),
    (s.ar.inLoop h.ilv = false → s.condHolds h = true) ∧ (h.ic ≠ 1 → h.ic ≠ 2 → s.condHolds h = true) ∧
    (s.ar.inLoop h.ilv = true → h.ic = 1 → (s.condHolds h = true ↔ s.ar.idx h.ilv = 0)) ∧
    (s.ar.inLoop h.ilv = true → h.ic = 2 → (s.condHolds h = true ↔ s.ar.idx h.ilv + 1 = s.ar.trip h.ilv)) ∧
    (∀ (a : Nat) (o : Offer) (b : Bundle), s.bundleAt a = .ok b → s.condHolds b.hdr = false → s.offered = .ok o → o.a = a →
      o.ops = [] ∧ (s.issueOps o).ar = ((s.fetchTo o.a).openBun o).ar)

/-! ### Memory -/

/-- R109, R20: the address checks of a scalar scratchpad access in the order of their codes, alignment last, and the place that a good
address names. -/
def Obligations.ScratchpadAddressChecks : Prop :=
  ∀ (l ea n : Nat), 0 < n →
    let core := if fld ea 26 26 = 1 then coreIn l else fld ea 25 21
    (2 ^ 27 ≤ ea → spScalar l ea n n = .error (trapAddress 1 ea)) ∧
    (ea < 2 ^ 27 → 24 ≤ core → spScalar l ea n n = .error (trapAddress 2 ea)) ∧
    (ea < 2 ^ 27 → core < 24 → 0x18_0000 < fld ea 20 0 + n → spScalar l ea n n = .error (trapAddress 3 ea)) ∧
    (ea < 2 ^ 27 → core < 24 → fld ea 20 0 + n ≤ 0x18_0000 → ea % n ≠ 0 → spScalar l ea n n = .error (trapAlign ea)) ∧
    (ea < 2 ^ 27 → core < 24 → fld ea 20 0 + n ≤ 0x18_0000 → ea % n = 0 →
      spScalar l ea n n = .ok (l / 24 * 24 + core, fld ea 20 0))

/-- R95 steps 1 and 2, R86: the checks of a global access in order: the address, its alignment, its translation, its region; the rule of the
region table for a plain access of a task. The order of the reason codes, which R86 leaves open, is the model's reading (DEDUCED, log 16): code 1 of
the HDM carve-out, then 6, then the rule of the region's state, of a REMOTE region 1 before 5. R81, R87: an access that no TLB entry serves takes its region's state from the table, and where a
region's entry is rewritten no TLB entry holds its earlier state. -/
def Obligations.GlobalAddressChecks : Prop :=
  (∀ (s : State) (ea n : Nat) (wr : Bool), 0 < n →
    (2 ^ 57 ≤ ea → s.globalAddr ea n wr = .error (trapTranslation 1 ea)) ∧
    (ea < 2 ^ 57 → ea % n ≠ 0 → s.globalAddr ea n wr = .error (trapAlign ea)) ∧
    (∀ c, ea < 2 ^ 57 → ea % n = 0 → s.xlate (.core s.cur) s.asid ea wr = .error c → s.globalAddr ea n wr = .error (trapTranslation c ea)) ∧
    (∀ ph c, ea < 2 ^ 57 → ea % n = 0 → s.xlate (.core s.cur) s.asid ea wr = .ok ph →
      s.regionCheck (dieOf s.lc) ph s.tid s.asid .plain wr = some c → s.globalAddr ea n wr = .error (trapRegion c ea)) ∧
    (∀ ph, ea < 2 ^ 57 → ea % n = 0 → s.xlate (.core s.cur) s.asid ea wr = .ok ph →
      s.regionCheck (dieOf s.lc) ph s.tid s.asid .plain wr = none → s.globalAddr ea n wr = .ok ph)) ∧
  (∀ (s : State) (d task asid : Nat) (ph : Phys) (wr : Bool),
    let r := ph.reg
    let c := s.regionCheck d ph task asid .plain wr
    (isAccWin ph.pa = true → c = none) ∧
    (isAccWin ph.pa = false → s.inHdm ph.pa = true → r.owner ≠ task → c = some 1) ∧
    (isAccWin ph.pa = false → s.inHdm ph.pa = false ∨ r.owner = task → r.asid ≠ asid → c = some 6) ∧
    (isAccWin ph.pa = false → s.inHdm ph.pa = false ∨ r.owner = task → r.asid = asid → r.st = 0 → c = if r.owner = task then none else some 1) ∧
    (isAccWin ph.pa = false → s.inHdm ph.pa = false ∨ r.owner = task → r.asid = asid → r.st = 1 → c = if wr then some 2 else none) ∧
    (isAccWin ph.pa = false → s.inHdm ph.pa = false ∨ r.owner = task → r.asid = asid → r.st = 2 → c = some 3) ∧
    (isAccWin ph.pa = false → s.inHdm ph.pa = false ∨ r.owner = task → r.asid = asid → r.st = 3 →
      c = if r.owner ≠ task then some 1 else if r.tokdie = d % 8 ∧ r.tokpkg = (s.die d).pkg then none else some 5)) ∧
  (∀ (s : State) (x : Xl) (asid va : Nat) (wr : Bool) (ph : Phys),
    s.tlbHit x asid va = none → s.xlate x asid va wr = .ok ph → ph.reg = s.region ph.pa) ∧
  (∀ (s : State) (pa : Nat) (r : RegEnt) (p asid va : Nat) (e : TlbEnt),
    (s.setRegion pa r).tlbHit (.core p) asid va = some e → e.pa / 2 ^ 21 = pa / 2 ^ 21 → e.reg = none)

/-- R93 to R98, R124, R125: LDG of memory and LDL without a full/empty qualifier return the bytes of memory with the context's withheld bytes
over them, zero- or sign-extended, at GLAT, 10 or 32 context cycles; on time the result is in flight. Memory stays as it is. -/
def Obligations.LoadsReturnMemory : Prop :=
  (∀ (s : State) (z d a i : Nat) (w : Option MW) (ph : Phys), z < 7 → s.xReady [a] → s.loadReady → s.late = [] →
    s.globalAddr (s.scalarEa a i w) (Machine.sizeOf z) false = .ok ph → s.atOnce (dieOf s.lc) ph.pa s.tid s.fresh = true → (∃ k, s.home ph.pa = .mem k) →
    s.poisPA ph.pa = false →
    ∃ t, exec (.ldg z d a i w) s = .next t ∧ t.mem = s.mem ∧ t.lcores = s.lcores ∧ t.ar.loads = s.ar.loads ∧
      t.ar.inflight = insertLanding ⟨s.ar.scyc + 1 + s.glat, s.ar.scyc + 1, s.slot, s.bun.pc, .x, d,
        scalarVal z (overlay s.cx.wbuf .glob 0 ph.pa (Machine.sizeOf z) (s.readPAn ph.pa (Machine.sizeOf z))), none⟩ s.ar.inflight) ∧
  (∀ (s : State) (z d a i : Nat) (w : Option MW) (u o : Nat), z < 7 → s.xReady [a] → s.loadReady → s.late = [] →
    qualOf w = 0 ∨ (qualOf w = 1 ∧ s.strongHeld = false) →
    spScalar s.lc (s.scalarEa a i w) (Machine.sizeOf z) (Machine.sizeOf z) = .ok (u, o) → s.spPois false u none o (Machine.sizeOf z) 1 = false →
    ∃ t, exec (.ldl z d a i w) s = .next t ∧ t.mem = s.mem ∧ t.lcores = s.lcores ∧ t.ar.loads = s.ar.loads ∧
      t.ar.inflight = insertLanding ⟨s.ar.scyc + 1 + (if u = s.lc then 10 else 32), s.ar.scyc + 1, s.slot, s.bun.pc, .x, d,
        scalarVal z (overlay s.cx.wbuf .sp u o (Machine.sizeOf z) ((s.lcore u).readN .sp none o (Machine.sizeOf z))), none⟩ s.ar.inflight) ∧
  (∀ z v : Nat, z < 7 → scalarVal z v =
    (if z < 4 then v % 2 ^ (8 * 2 ^ z) else modI 64 (sextI (8 * 2 ^ (z % 4)) v)))

/-- R93 to R95, R117, R124, R125, R131 to R133: where every scalar load, store and barrier operation completes, in every form, and with what. A
consuming load and BARARR act at their bundle's commit. That BARWAIT and BARARR take the word of a poisoned granule as it stands is the model's
choice (DESIGN CHOICE, log 69). -/
def Obligations.ScalarMemoryCompletes : Prop :=
  (∀ (s : State) (z d a i : Nat) (w : Option MW) (ph : Phys), s.xReady [a] → s.loadReady →
    s.globalAddr (s.scalarEa a i w) (Machine.sizeOf z) false = .ok ph →
    (∀ u o, s.isLocal (dieOf s.lc) ph.pa = true → s.home ph.pa = .acc u o →
      addTouches s.cx.wbuf .acc u o (Machine.sizeOf z) = false ∧ s.matMeet u o (Machine.sizeOf z) ≠ .wait) →
    exec (.ldg z d a i w) s = .next (s.loadGlobal z d (s.scalarEa a i w))) ∧
  (∀ (s : State) (z x a i : Nat) (w : Option MW) (ph : Phys), s.xReady [x, a] → s.acquires = [] →
    s.globalAddr (s.scalarEa a i w) (Machine.sizeOf z) true = .ok ph →
    exec (.stg z x a i w) s = .next (s.storeGlobal (s.scalarEa a i w) (Machine.sizeOf z) (s.rx x).toNat)) ∧
  (∀ (s : State) (z d a i : Nat) (w : Option MW) (u o : Nat), s.xReady [a] → s.loadReady → qualOf w = 0 ∨ s.strongHeld = false →
    spScalar s.lc (s.scalarEa a i w) (Machine.sizeOf z) (Machine.sizeOf z) = .ok (u, o) →
    exec (.ldl z d a i w) s = .next (s.loadLocal (.ldl z d a i w) z d (qualOf w) (s.scalarEa a i w)) ∧
    (qualOf w = 2 → exec (.ldl z d a i w) s = .next (s.defer (.ldl z d a i w) [s.scalarEa a i w]))) ∧
  (∀ (s : State) (z x a i : Nat) (w : Option MW) (u o : Nat), s.xReady [x, a] → s.acquires = [] →
    spScalar s.lc (s.scalarEa a i w) (Machine.sizeOf z) (Machine.sizeOf z) = .ok (u, o) →
    exec (.stl z x a i w) s = .next (s.withhold (s.ar.scyc + 1) (lineEntries .sp u
      (if qualOf w = 0 then .weak else if qualOf w = 1 then .strong else .fe) 4 s.bun.pc s.slot o (Machine.sizeOf z) (ones (Machine.sizeOf z)) (s.rx x).toNat))) ∧
  (∀ (s : State) (x a u o : Nat), s.xReady [x, a] → s.acquires = [] →
    spScalar s.lc (s.effAddr (s.rx a).toNat) 8 8 = .ok (u, o) →
    let v := (s.rx x).toNat
    (fld v 31 10 = 0 ∧ fld v 63 53 = 0 ∧ ¬ (fld v 9 0 = 0 ∧ fld v 52 32 = 0) →
      exec (.barinit x a) s = .next (s.withhold (s.ar.scyc + 1) (lineEntries .sp u .barinit 4 s.bun.pc s.slot o 8 (ones 8) (barInitWord v)))) ∧
    (¬ (fld v 31 10 = 0 ∧ fld v 63 53 = 0 ∧ ¬ (fld v 9 0 = 0 ∧ fld v 52 32 = 0)) → s.bun.checked = false →
      exec (.barinit x a) s = .next (s.takeTrap { cause := 14, d0 := 2, d1 := s.effAddr (s.rx a).toNat, d2 := v, slot := s.slot }))) ∧
  (∀ (s : State) (d a n u o : Nat), s.xReady [a] → s.loadReady → spScalar s.lc (s.effAddr (s.rx a).toNat) 8 8 = .ok (u, o) →
    exec (.bararr d a n) s = .next (s.defer (.bararr d a n) [s.effAddr (s.rx a).toNat])) ∧
  (∀ (s : State) (d a p u o : Nat), s.xReady [a] → s.acquires = [] → s.strongHeld = false →
    spScalar s.lc (s.effAddr (s.rx a).toNat) 8 8 = .ok (u, o) → fld (s.barWord (s.effAddr (s.rx a).toNat)) 63 63 ≠ p →
    exec (.barwait d a p) s = .next (s.outX d 1 (BitVec.ofNat 64 (s.barWord (s.effAddr (s.rx a).toNat)))))

/-- R95 step 4, R126, R397: the frame of the scalar stores. No byte of memory changes when one issues, and no register; the bytes stored
to are those of the form's width from the address that the meaning computes, and the context sees them there (R98), every other byte as
before. The premise that withheld entries are whole lines is one that every such store keeps. -/
def Obligations.ScalarStoreFrame : Prop :=
  (∀ (s t : State) (z x a i : Nat) (w : Option MW) (u o : Nat), s.bun.checked = true → (∀ e ∈ s.cx.wbuf, e.line % 64 = 0) →
    spScalar s.lc (s.scalarEa a i w) (Machine.sizeOf z) (Machine.sizeOf z) = .ok (u, o) → exec (.stl z x a i w) s = .next t →
    s.KeepsOutside t ∧ s.ar.KeepsVisible t.ar ∧ t.ar.inflight = s.ar.inflight ∧ t.cx.image = s.cx.image ∧ (∀ pa, t.readPA pa = s.readPA pa) ∧
    (∀ e ∈ t.cx.wbuf, e.line % 64 = 0) ∧
    (∀ sp k b, fwdByte sp k b t.cx.wbuf = if sp = .sp ∧ k = u ∧ o ≤ b ∧ b < o + Machine.sizeOf z then some (el 8 (s.rx x).toNat (b - o))
      else fwdByte sp k b s.cx.wbuf)) ∧
  (∀ (s t : State) (z x a i : Nat) (w : Option MW) (ph : Phys) (k : Nat), s.bun.checked = true → (∀ e ∈ s.cx.wbuf, e.line % 64 = 0) →
    s.globalAddr (s.scalarEa a i w) (Machine.sizeOf z) true = .ok ph → s.home ph.pa = .mem k → exec (.stg z x a i w) s = .next t →
    t.mem = s.mem ∧ t.lcores = s.lcores ∧ s.ar.KeepsVisible t.ar ∧ t.ar.inflight = s.ar.inflight ∧ t.cx.image = s.cx.image ∧
    (∀ pa, t.readPA pa = s.readPA pa) ∧ (∀ e ∈ t.cx.wbuf, e.line % 64 = 0) ∧
    (∀ sp n b, fwdByte sp n b t.cx.wbuf = if sp = .glob ∧ n = 0 ∧ ph.pa ≤ b ∧ b < ph.pa + Machine.sizeOf z then some (el 8 (s.rx x).toNat (b - ph.pa))
      else fwdByte sp n b s.cx.wbuf))

/-- R126, R395 step 2: a withheld weak or strong store, performed, writes its masked bytes of its line and leaves every other byte of its
scratchpad under its rotation code, of every accumulator and of global memory. -/
def Obligations.PerformedStoreFrame : Prop :=
  ∀ (s : State) (e : WEnt), s.memOk = true → e.sp = .sp → e.kind ≠ .addF → e.kind ≠ .addI → e.line % 64 = 0 →
    let t := s.performEnt e
    t.mem = s.mem ∧ (∀ l, (t.lcore l).acc = (s.lcore l).acc ∧ (t.lcore l).code = (s.lcore l).code) ∧ (∀ l, l ≠ e.unit → t.lcore l = s.lcore l) ∧
    (∀ b, e.line ≤ b → b < e.line + 64 → bit e.mask (b - e.line) = true →
      ((t.lcore e.unit).sp.mem.read ((s.lcore e.unit).phys (if e.rc = 4 then none else some e.rc) b)).toNat = el 8 e.data (b - e.line)) ∧
    (∀ a, (∀ b, e.line ≤ b → b < e.line + 64 → bit e.mask (b - e.line) = true →
        a ≠ (s.lcore e.unit).phys (if e.rc = 4 then none else some e.rc) b) →
      (t.lcore e.unit).sp.mem.read a = (s.lcore e.unit).sp.mem.read a)

/-- R110: the bank of word j of block b under each rotation code, and that each code is a permutation of the 32 words of a block, so that no
two offsets name one physical byte. -/
def Obligations.RotationCodes : Prop :=
  (∀ b j : Nat, bankOf 0 b j = j ∧ bankOf 1 b j = (j + b) % 32 ∧ bankOf 2 b j = j ^^^ (b % 32) ∧ bankOf 3 b j = j ^^^ (4 * b % 32)) ∧
  (∀ c b : Nat, c < 4 → (∀ j, j < 32 → bankOf c b j < 32) ∧ (∀ i j, i < 32 → j < 32 → bankOf c b i = bankOf c b j → i = j)) ∧
  (∀ c o : Nat, physOf c o = o / 2048 * 2048 + bankOf c (o / 2048) (o / 64 % 32) * 64 + o % 64) ∧
  (∀ c o p : Nat, c < 4 → physOf c o = physOf c p → o = p) ∧
  (∀ c o : Nat, c < 4 → physOf c o / 2048 = o / 2048)

/-- R91, R90: a poisoning write marks every granule that it touches; a clean write clears the granules that it covers whole and leaves the
mark of one that it covers in part, whose bytes it stores. R116, R117: filling and emptying granules, and what a load finds full. The
empty granules are listed in rising order, and stay so. -/
def Obligations.GranuleState : Prop :=
  (∀ (k : Bank) (l : List (Nat × Nat)) (g : Nat),
    ((∃ t ∈ l, t.1 / 16 = g) → NatSet.mem (k.storePois l).pois g = true) ∧
    ((∀ t ∈ l, t.1 / 16 ≠ g) → NatSet.mem (k.storePois l).pois g = NatSet.mem k.pois g) ∧
    (covers l g = true → NatSet.mem (k.store l).pois g = false) ∧
    (covers l g = false → NatSet.mem (k.store l).pois g = NatSet.mem k.pois g) ∧
    (k.store l).mem = (k.storePois l).mem ∧ (k.store l).mem = k.mem.writeL l) ∧
  (∀ (k : Bank) (l m : List Nat), k.empty.Pairwise (fun a b => a < b) →
    (k.fill l).empty.Pairwise (fun a b => a < b) ∧ (k.drain l).empty.Pairwise (fun a b => a < b) ∧
    ({} : Bank).full l = true ∧
    (k.fill l).full l = true ∧
    (l ≠ [] → (k.drain l).full l = false) ∧
    ((∀ a ∈ l, ∀ b ∈ m, a / 16 ≠ b / 16) → (k.fill l).full m = k.full m ∧ (k.drain l).full m = k.full m) ∧
    (k.fill l).mem = k.mem ∧ (k.drain l).mem = k.mem ∧ (k.fill l).pois = k.pois ∧ (k.drain l).pois = k.pois)

/-- R10: a byte written is read back, every other byte reads as before, and equal memories are equal data. -/
def Obligations.MemoryReadAfterWrite : Prop :=
  (∀ (m : Memory) (a b : Nat) (v : Byte), Memory.wf m = true →
    (Memory.write m a v).read a = v ∧ (b ≠ a → (Memory.write m a v).read b = m.read b) ∧ Memory.wf (Memory.write m a v) = true) ∧
  (∀ m n : Memory, Memory.wf m = true → Memory.wf n = true → (∀ a, m.read a = n.read a) → m = n)

/-! ### Vector instructions -/

/-- R263, R281: where the operations on vector registers complete, with their latency: each that names one vector destination, once its
sources can be read and a stream destination has room. -/
def Obligations.VectorOperationsComplete : Prop :=
  ∀ (i : Instr) (s : State) (d lat : Nat), i.vecForm = some (d, lat) → s.ReadyFor i →
    exec i s = .next (s.outV d lat (vecVal s.vecIn i))

/-- R264, R265: in a merge-class operation an inactive element of the result is the element that vd held, for every type and width. R266,
R270, R271, R273: what an active element becomes. `w` codes 8, 16 or 32 bits; type 10 is N32. -/
def Obligations.VectorElements : Prop :=
  (∀ (i : Instr) (o : VecIn) (w d p k : Nat), i.mergeForm = some (w, d, p) → w = 8 ∨ w = 16 ∨ w = 32 → k < 2048 / w →
    act (o.p p) w k = false → el w (vecVal o i) k = el w (o.old d) k) ∧
  (∀ (o : VecIn) (d a b p k w : Nat), w ≤ 2 →
    let n := 8 * 2 ^ w
    (k < 256 → act (o.p p) 8 k = true →
      el 8 (vecVal o (.vand d a b p)) k = el 8 (o.v a) k &&& el 8 (o.v b) k ∧
      el 8 (vecVal o (.vor d a b p)) k = el 8 (o.v a) k ||| el 8 (o.v b) k ∧
      el 8 (vecVal o (.vxor d a b p)) k = el 8 (o.v a) k ^^^ el 8 (o.v b) k ∧
      el 8 (vecVal o (.vnot d a p)) k = 255 - el 8 (o.v a) k) ∧
    (k < 2048 / n → act (o.p p) n k = true →
      el n (vecVal o (.vmov w d a p)) k = el n (o.v a) k ∧
      el n (vecVal o (.vbcast w d b p)) k = o.x b % 2 ^ n ∧
      el n (vecVal o (.vshl w d a b p)) k = (if el n (o.v b) k < n then el n (o.v a) k * 2 ^ el n (o.v b) k % 2 ^ n else 0) ∧
      el n (vecVal o (.vshrN w d a b p)) k = (if el n (o.v b) k < n then el n (o.v a) k / 2 ^ el n (o.v b) k else 0) ∧
      el n (vecVal o (.vshrI w d a b p)) k = modI n ((sextI n (el n (o.v a) k)).fdiv (2 ^ min (el n (o.v b) k) (n - 1)))) ∧
    (k < 2048 / n → el n (vecVal o (.vsel w d a b p)) k = if act (o.p p) n k then el n (o.v a) k else el n (o.v b) k) ∧
    (k < 64 → act (o.p p) 32 k = true →
      el 32 (vecVal o (.vadd 10 d a b p none)) k = (el 32 (o.v a) k + el 32 (o.v b) k) % 2 ^ 32 ∧
      el 32 (vecVal o (.vmul 10 d a b p none)) k = el 32 (o.v a) k * el 32 (o.v b) k % 2 ^ 32) ∧
    (k < 2048 / n → o.p p = 2 ^ 256 - 1 →
      el n (vecVal o (.vrot w d a b p)) k = el n (o.v b) ((k + o.x a) % (2048 / n)) ∧
      el n (vecVal o (.vperm w d a b p)) k = (if el n (o.v b) k < 2048 / n then el n (o.v a) (el n (o.v b) k) else 0)))

/-- R199, R200 to R203, R269, R286 to R289: where the operations with predicates, conversions, the generator and row words complete. An encoding to
E2M1 writes its scale register too; one under stochastic rounding takes one counter value. The
logic of predicate registers has latency 2, the count of active elements 6. -/
def Obligations.PredicateAndSpecialOperations : Prop :=
  (∀ (s : State) (t d a b p c : Nat), s.vReady [a, b] →
    ∃ v, exec (.vcmp t d a b p c) s = .next (s.outP d 4 v) ∧
      (typeWidth t = 8 ∨ typeWidth t = 16 ∨ typeWidth t = 32 → ∀ k j, k < 2048 / typeWidth t → j < typeWidth t / 8 →
        bit v (k * (typeWidth t / 8) + j) =
          (act (s.rp p).toNat (typeWidth t) k && condEl c t (el (typeWidth t) (s.rv a) k) (el (typeWidth t) (s.rv b) k)))) ∧
  (∀ (s : State) (d a pv pq : Nat) (w : CW), s.ReadyFor (.vcvt d a pv pq w) → exec (.vcvt d a pv pq w) s = .next (s.convert d a pv pq w)) ∧
  (∀ (s : State) (d m p : Nat), s.ReadyFor (.vrng d m p) →
    exec (.vrng d m p) s = .next (s.outV d 4 (vecRng m (s.rp p).toNat (s.rvd d) (s.ar.getSr 0x006).toNat s.rngCtr)).useRng) ∧
  (∀ (s : State) (d a b p : Nat) (w : RowW), s.ReadyFor (.rowpred d a b p w) →
    exec (.rowpred d a b p w) s = .next (s.outP d 4 (vecRowPred w (s.rp p).toNat (s.rv a) (if w.bs = 1 then (s.rx b).toNat else s.rv b)))) ∧
  (∀ (s : State) (d a b c : Nat) (k : Option Nat), s.ReadyFor (.rcwupd d a b c k) →
    exec (.rcwupd d a b c k) s = .next (s.outV d 4 (vecRowUpd (s.rv a) (s.blk k) (s.ar.getSr 0x005).toNat (s.rp b).toNat (s.rp c).toNat))) ∧
  (∀ (s : State) (d a p : Nat) (k : Option Nat), s.ReadyFor (.rcwadv d a p k) →
    exec (.rcwadv d a p k) s = .next (s.outV d 4 (vecRowAdv (s.rv a) (s.blk k) (s.rp p).toNat))) ∧
  (∀ (s : State) (d a t p : Nat) (k : Option Nat), s.vReady [a] →
    exec (.rcwld d a t p k) s = .next (s.outP d 4 (vecRowTest t (s.rv a) (s.blk k) (s.rp p).toNat))) ∧
  (∀ (s : State) (d a b w p : Nat),
    exec (.pand d a b) s = .next (s.outP d 2 (s.rp a &&& s.rp b).toNat) ∧
    exec (.por d a b) s = .next (s.outP d 2 (s.rp a ||| s.rp b).toNat) ∧
    exec (.pxor d a b) s = .next (s.outP d 2 (s.rp a ^^^ s.rp b).toNat) ∧
    exec (.pnot d a) s = .next (s.outP d 2 (~~~ s.rp a).toNat) ∧
    exec (.pcnt d a w p) s = .next (s.outX d 6 (BitVec.ofNat 64 (((List.range (2048 / (8 * 2 ^ w))).filter (fun k =>
      act (s.rp a).toNat (8 * 2 ^ w) k && act (s.rp p).toNat (8 * 2 ^ w) k)).length))))

/-- R218 to R224: recipes are entered, dropped, cleared and reported; a full table of 32 takes RESIDENCY with reason 3. -/
def Obligations.RecipeOperations : Prop :=
  (∀ (s : State) (d sl : Nat) (im : Image), (s.ar.recipe d).isSome = true ∨ s.ar.recipes.length < 32 →
    s.ar.images.find? (fun t => t.1 == 2 + sl) = some (2 + sl, im) →
    exec (.rcpdef d sl) s = .next (s.modAr (fun a => a.putRecipe (s.recipeOf d (2 + sl) im)))) ∧
  (∀ (s : State) (d sl : Nat), s.ar.recipe d = none → 32 ≤ s.ar.recipes.length → s.bun.checked = false →
    exec (.rcpdef d sl) s = .next (s.takeTrap { cause := 11, d0 := 3, d1 := d, slot := s.slot })) ∧
  (∀ (s : State) (d a : Nat) (w : RcpW), s.ReadyFor (.rcpdefEmbedded d a w) → (s.ar.recipe d).isSome = true ∨ s.ar.recipes.length < 32 →
    ∃ t, exec (.rcpdefEmbedded d a w) s = .next t ∧
      t.ar.inflight = (s.outV d (vecLat (w.op d a)) (vecVal s.vecIn (w.op d a))).ar.inflight ∧
      ∃ r, t.ar.recipe d = some r ∧ r.i = .rcpdefEmbedded d a w ∧ r.stale = false) ∧
  (∀ (s : State) (d : Nat), exec (.drop d) s = .next (s.modAr (fun a => { a with drops := Tbl.put a.drops d (s.ar.scyc + 1) }))) ∧
  (∀ (s : State) (d : Nat), ∃ t, exec (.rcpclr d) s = .next t ∧ t.ar.recipe d = none ∧ (∀ n, n ≠ d → t.ar.recipe n = s.ar.recipe n) ∧
    (Tbl.get 0 s.ar.vst d = 2 → Tbl.get 0 t.ar.vst d = 0) ∧ (∀ n, n ≠ d → Tbl.get 0 t.ar.vst n = Tbl.get 0 s.ar.vst n)) ∧
  (∀ s : State, ∃ t, exec .rcpclrAll s = .next t ∧ ∀ n, n < 56 → t.ar.recipe n = none ∧ Tbl.get 0 t.ar.vst n ≠ 2) ∧
  (∀ (s : State) (d a : Nat), exec (.rcpstat d a) s = .next (s.outX d 2 (BitVec.ofNat 64 (s.ar.rcpStat a))))

/-- R309 to R311: TTW writes 64 elements of a row of the transpose tile and nothing else of it; TTR lands 64 elements of a column, the others as vd
holds them. -/
def Obligations.TransposeTile : Prop :=
  (∀ (s : State) (a : Nat) (w : TileW), s.ReadyFor (.ttw a w) → (s.core s.cur).ttBusy = false →
    ∃ t, exec (.ttw a w) s = .next t ∧ t.mem = s.mem ∧ t.cores = s.cores ∧ (∀ l, l ≠ s.lc → t.lcore l = s.lcore l) ∧
      (t.lcore s.lc).sp = (s.lcore s.lc).sp ∧ (t.lcore s.lc).acc = (s.lcore s.lc).acc ∧
      (∀ k, k < 64 → Tbl.get 0 (t.lcore s.lc).ttile (s.tileIdx w * 64 + k) = el (8 * 2 ^ w.wc) (s.rv a) (64 * w.part + k)) ∧
      (∀ n, n / 64 ≠ s.tileIdx w → Tbl.get 0 (t.lcore s.lc).ttile n = Tbl.get 0 (s.lcore s.lc).ttile n)) ∧
  (∀ (s : State) (d : Nat) (w : TileW), s.ReadyFor (.ttr d w) → (s.core s.cur).ttBusy = false → w.wc ≤ 2 →
    ∃ v, exec (.ttr d w) s = .next (s.outV d 4 v) ∧
      ∀ k, k < 2048 / (8 * 2 ^ w.wc) →
        el (8 * 2 ^ w.wc) v k = if 64 * w.part ≤ k ∧ k < 64 * w.part + 64
          then Tbl.get 0 (s.lcore s.lc).ttile ((k - 64 * w.part) * 64 + s.tileIdx w) % 2 ^ (8 * 2 ^ w.wc)
          else el (8 * 2 ^ w.wc) (s.rvd d) k)

/-- R112, R115, R278 to R280, R316, R333, R335: where the vector loads, stores, ticketed updates and atomics complete, in every form. Atomics and
consuming loads act at their bundle's commit; the vector register of a result is claimed at issue (R214). -/
def Obligations.VectorMemoryCompletes : Prop :=
  (∀ (s : State) (d a k p : Nat) (w : Option MW) (r : Nat × Nat × Nat), s.ReadyFor (.vld d a k p w) → s.ar.loads.length < 32 →
    qualOf w = 0 ∨ s.strongHeld = false → s.vmRow false a k w = .ok r →
    s.swzOff = true ∨ (∀ g ∈ activeGranules (s.rp p).toNat, (s.lcore r.1).tagFail r.2.2 (r.2.1 + 16 * g) 16 = none) →
    exec (.vld d a k p w) s = .next (s.loadRow (.vld d a k p w) false d a k p w)) ∧
  (∀ (s : State) (d a k p : Nat) (w : Option MW) (r : Nat × Nat × Nat), s.ReadyFor (.vlda d a k p w) → s.ar.loads.length < 32 →
    qualOf w = 0 ∨ s.strongHeld = false → s.vmRow true a k w = .ok r →
    (∀ g ∈ activeGranules (s.rp p).toNat, addTouches s.cx.wbuf .acc r.1 (r.2.1 + 16 * g) 16 = false ∧ s.matMeet r.1 (r.2.1 + 16 * g) 16 ≠ .wait) →
    exec (.vlda d a k p w) s = .next (s.loadRow (.vlda d a k p w) true d a k p w)) ∧
  (∀ (s : State) (x a k p : Nat) (w : Option MW) (r : Nat × Nat × Nat), s.ReadyFor (.vst x a k p w) → s.vmRow false a k w = .ok r →
    exec (.vst x a k p w) s = .next (s.withhold (s.ar.scyc + 1) (lineEntries .sp r.1 (if qualOf w = 0 then .weak else if qualOf w = 1 then .strong else .fe)
      r.2.2 s.bun.pc s.slot r.2.1 256 (s.rp p).toNat (s.rv x)))) ∧
  (∀ (s : State) (x a k p : Nat) (w : Option MW) (r : Nat × Nat × Nat), s.ReadyFor (.vsta x a k p w) → s.vmRow true a k w = .ok r →
    exec (.vsta x a k p w) s = .next (s.withhold (s.ar.scyc + 1) (lineEntries .acc r.1 (if qualOf w = 0 then .weak else if qualOf w = 1 then .strong else .fe)
      4 s.bun.pc s.slot r.2.1 256 (s.rp p).toNat (s.rv x)))) ∧
  (∀ (s : State) (x a k p : Nat) (w : Option MW) (r : Nat × Nat × Nat), s.ReadyFor (.vstaAdd x a k p w) → s.vmRow true a k w = .ok r →
    exec (.vstaAdd x a k p w) s = .next (s.withhold (s.ar.scyc + 1) (lineEntries .acc r.1 .addF
      4 s.bun.pc s.slot r.2.1 256 (elemMask (s.rp p).toNat) (s.rv x)))) ∧
  (∀ (s : State) (x a k p xt td : Nat) (r : Nat × Bool), s.ReadyFor (.vtkadd x a k p xt td) → s.accRow a k = .ok r → s.laneFail (s.rp p).toNat r = none →
    exec (.vtkadd x a k p xt td) s = .next (s.sendRow 0 (s.rp p).toNat r.1 (s.rv x) (s.rx xt).toNat td 4) ∧
    exec (.vtkmin x a k p xt td) s = .next (s.sendRow 1 (s.rp p).toNat r.1 (s.rv x) (s.rx xt).toNat td 4) ∧
    exec (.vtkmax x a k p xt td) s = .next (s.sendRow 2 (s.rp p).toNat r.1 (s.rv x) (s.rx xt).toNat td 4)) ∧
  (∀ (s : State) (x a k p vr ret uns ea : Nat), s.ReadyFor (.vaadd x a k p vr ret uns) → s.ar.loads.length < 32 → s.accRow a k = .ok (ea, false) →
    let vals := [ea, (s.rp p).toNat, s.rv x, s.rvd vr]
    let t := if ret = 1 then s.claimV vr else s
    exec (.vaadd x a k p vr ret uns) s = .next (t.defer (.vaadd x a k p vr ret uns) vals) ∧
    exec (.vamin x a k p vr ret uns) s = .next (t.defer (.vamin x a k p vr ret uns) vals) ∧
    exec (.vamax x a k p vr ret uns) s = .next (t.defer (.vamax x a k p vr ret uns) vals) ∧
    exec (.vaxchg x a k p vr ret uns) s = .next (t.defer (.vaxchg x a k p vr ret uns) vals) ∧
    (vr < 56 → Tbl.get 0 s.ar.vst vr = 0 → Tbl.get 0 (s.claimV vr).ar.vst vr = 1))

/-! ### The matrix engine -/

/-- R290, R295 to R297, R302 to R308: where the matrix operations complete, in every form, and how long each keeps the engine: K core cycles,
twice that for 16-bit floats, half of it for 4-bit ones. An MMAP completes with its partner presented and both engines free. -/
def Obligations.MatrixOperationsComplete : Prop :=
  (∀ (s : State) (x b n : Nat) (w : MmaW) (la lb : List (Nat × Nat × Nat)),
    let k := (w.kg + 1) * 32
    s.ReadyFor (.mma x b n w) → tileBad (s.ar.tile n) = none → s.matFree = true →
    (if w.av = 1 then la = [] else s.matRows (s.matBases x b).1 (s.rx (x + 1)).toNat (rowBytes w.ta k) (w.mm1 + 1) 0 = .ok la) →
    s.matRows (s.matBases x b).2 (s.rx (b + 1)).toNat (rowBytes w.tb k) 128 0 = .ok lb →
    s.matTags (rowBytes w.ta k) la = none → s.matTags (rowBytes w.tb k) lb = none →
    exec (.mma x b n w) s = .next (s.matStart (s.captureMma x b n w)
      (if w.ta = 1 ∨ w.ta = 2 then 2 * k else if w.ta = 5 then k / 2 else k))) ∧
  (∀ (s : State) (x b n gid t p c : Nat) (w v : MmaW) (x' b' n' : Nat) (im : Option Image),
    let k := (w.kg + 1) * 32
    s.acquires = [] → s.partner w.gid = some (gid, t) → (s.group (dieOf s.lc) gid).tout = false → s.pairReads x b w = .ok →
    s.presentedAt t gid = some (p, c) → s.pairFree p = true → s.mmapOf p c = some (.mmap x' b' n' v, im) →
    v.ta = w.ta → v.tb = w.tb → v.kg = w.kg → v.mm1 = w.mm1 → s.chkHalf x b n w t = .ok →
    exec (.mmap x b n w) s = .next (s.matStart (s.captureHalf x b n w)
      (if w.ta = 1 ∨ w.ta = 2 then 2 * k else if w.ta = 5 then k / 2 else k))) ∧
  (∀ (s : State) (n a : Nat), s.vReady [a] → exec (.mscl n a) s = .next (s.out .latch n 3 (s.rv a))) ∧
  (∀ (s : State) (n : Nat), s.acquires = [] → tileBad (s.ar.tile n) = none → s.matFree = true →
    exec (.mzero n) s = .next (s.matStart (s.captureZero n) 32)) ∧
  (∀ (s : State) (n a : Nat), s.xReady [a] → (s.rx a).toNat < 2 ^ 29 → tileWordOk (s.rx a).toNat = true →
    exec (.mtile n a) s = .next (s.out .tile n 1 (s.rx a).toNat)) ∧
  (∀ (s : State) (n w : Nat), exec (.mtileImm n w) s = .next (s.out .tile n 1 w))

/-- R292, R296, R301: writing a matrix result gives each element of its tile the value computed from the captured operands and the element's
earlier value, and leaves every other byte of the accumulator memory, and every other memory, as it was. -/
def Obligations.MatrixResultFrame : Prop :=
  ∀ (s : State) (r : MRes), s.memOk = true → tileBad r.tile = none → r.a.length ≤ 128 →
    let t := s.writeRes r
    t.mem = s.mem ∧ t.cores = s.cores ∧ (∀ l, l ≠ r.lcore → t.lcore l = s.lcore l) ∧
    (t.lcore r.lcore).sp = (s.lcore r.lcore).sp ∧ (t.lcore r.lcore).code = (s.lcore r.lcore).code ∧
    (∀ m n, m < r.a.length → n < 128 →
      (t.lcore r.lcore).acc.mem.readN (tileOff r.tile m + 4 * n) 4 =
        r.elem m n ((s.lcore r.lcore).acc.mem.readN (tileOff r.tile m + 4 * n) 4) % 2 ^ 32) ∧
    (∀ a, (∀ m, m < r.a.length → ¬ (tileOff r.tile m ≤ a ∧ a < tileOff r.tile m + 512)) →
      (t.lcore r.lcore).acc.mem.read a = (s.lcore r.lcore).acc.mem.read a ∧
      ((∀ m, m < r.a.length → ¬ (tileOff r.tile m / 16 ≤ a / 16 ∧ a / 16 < tileOff r.tile m / 16 + 32)) →
        (t.lcore r.lcore).acc.isPois a = (s.lcore r.lcore).acc.isPois a))

/-! ### Ticket domains, locks, operations of the commit -/

/-- R326 to R332, R99 to R101: where the domain instructions, ticketed updates, LOCK and UNLOCK complete, with the status that the order of the
table's rows gives. The domain is one of this package. -/
def Obligations.DomainOperationsComplete : Prop :=
  (∀ (s : State) (d a b td : Nat) (t : AccTgt), s.xReady [a, b] → s.loadReady → s.accOperand (s.domEa a) 1 = .ok t → t.far = none →
    let m := (s.lcore t.unit).dom td
    let base := (s.rx b).toNat % 2 ^ 32
    let count := (s.rx b).toNat / 2 ^ 32
    ∃ c st, exec (.tkopen d a b td) s = .next ((s.setLcore t.unit c).domResult d t (s.domEa a) st) ∧
      c.acc = (s.lcore t.unit).acc ∧ c.sp = (s.lcore t.unit).sp ∧ (∀ k, k ≠ td → c.dom k = (s.lcore t.unit).dom k) ∧
      (count = 0 ∨ 2 ^ 32 < base + count → st = 2 ∧ c.dom td = m) ∧
      (count ≠ 0 → base + count ≤ 2 ^ 32 → m.state = 0 →
        st = 0 ∧ (c.dom td).state = 1 ∧ (c.dom td).owner = s.tid ∧ (c.dom td).asid = s.asid ∧ (c.dom td).base = base ∧
        (c.dom td).count = count ∧ (c.dom td).next = base ∧ (c.dom td).win = (s.ar.getSr 0x00A).toNat ∧ (c.dom td).pend = 0) ∧
      (count ≠ 0 → base + count ≤ 2 ^ 32 → m.state ≠ 0 → c.dom td = m ∧
        st = if m.state = 1 ∧ m.owner = s.tid ∧ m.base = base ∧ m.count = count then 0 else if m.asid ≠ s.asid then 4 else 1)) ∧
  (∀ (s : State) (d a b td : Nat) (t : AccTgt), s.xReady [a, b] → s.loadReady → s.accOperand (s.domEa a) 1 = .ok t → t.far = none →
    let m := (s.lcore t.unit).dom td
    let k := (s.rx b).toNat % 2 ^ 32
    ∃ c st, exec (.tkskip d a b td) s = .next ((s.setLcore t.unit c).domResult d t (s.domEa a) st) ∧
      st = (if m.state ≠ 1 then 3 else if m.asid ≠ s.asid then 4 else if m.base + m.count ≤ k then 2 else if k < m.next + 64 then 0 else 1) ∧
      (m.state ≠ 1 ∨ m.asid ≠ s.asid ∨ m.base + m.count ≤ k ∨ k < m.next ∨ m.next + 64 ≤ k → c = s.lcore t.unit) ∧
      (m.state = 1 → m.asid = s.asid → k < m.base + m.count → m.next < k → k < m.next + 64 →
        bit (c.dom td).skip (k - m.next) = true ∧ (c.dom td).next = m.next ∧ ∀ p ∈ c.parts, ¬ (p.td = td ∧ p.ticket = k))) ∧
  (∀ (s : State) (d a sel td : Nat) (t : AccTgt), s.xReady [a] → s.loadReady → s.accOperand (s.domEa a) 1 = .ok t → t.far = none →
    let m := (s.lcore t.unit).dom td
    exec (.tkstat d a sel td) s = .next ((s.setLcore t.unit (s.lcore t.unit)).domResult d t (s.domEa a) (m.stat td sel s.asid)) ∧
    (m.opened = true → m.asid ≠ s.asid → m.stat td sel s.asid = 2 ^ 57)) ∧
  (∀ (s : State) (d a f td : Nat) (t : AccTgt), s.xReady [a] → s.loadReady → s.accOperand (s.domEa a) 1 = .ok t → t.far = none →
    let m := (s.lcore t.unit).dom td
    ∃ c st, exec (.tkclose d a f td) s = .next ((s.setLcore t.unit c).domResult d t (s.domEa a) st) ∧
      st = (if m.state = 0 then 0 else if m.owner ≠ s.tid ∨ m.state ≠ 1 then 4 else if m.next ≠ m.base + m.count ∧ f ≠ 1 then 1 else 0) ∧
      (st ≠ 0 ∨ m.state = 0 → c = s.lcore t.unit) ∧
      (st = 0 → m.state ≠ 0 → (c.dom td).state = 0 ∧ ∀ p ∈ c.parts, p.td ≠ td)) ∧
  (∀ (s : State) (d a td : Nat) (t : AccTgt), s.xReady [a] → s.acquires = [] → s.accOperand (s.domEa a) 1 = .ok t → t.far = none →
    let m := (s.lcore t.unit).dom td
    (m.opened = true ∧ m.asid ≠ s.asid) ∨ m.next = m.base + m.count ∨ m.gapev = true ∨ m.state = 0 →
    ∃ u, exec (.tkdrain d a td) s = .next u ∧
      u.ar.inflight = (s.outX d 1 (BitVec.ofNat 64 (m.stat td 0 s.asid))).ar.inflight ∧
      ((u.lcore t.unit).dom td).gapev = (decide (m.opened = true ∧ m.asid ≠ s.asid) && m.gapev)) ∧
  (∀ (s : State) (a b xt td : Nat) (t : AccTgt), s.xReady [a, b, xt] → s.acquires = [] → s.accOperand (s.domEa a) 4 = .ok t →
    let p (op : Nat) : Part := { td := td, ticket := (s.rx xt).toNat % 2 ^ 32, op := op, mask := 1, lane0 := 0, off := t.off, asid := s.asid,
                                 pay := [(s.rx b).toNat % 2 ^ 32], lcore := t.unit, pcore := s.cur, task := s.tid, addr := s.domEa a, id := s.fresh,
                                 iss := s.ar.scyc + 1, slot := s.slot }
    exec (.tkadd a b xt td) s = .next (s.sendScalar 0 (s.domEa a) (s.rx b).toNat (s.rx xt).toNat td) ∧
    exec (.tkmin a b xt td) s = .next (s.sendScalar 1 (s.domEa a) (s.rx b).toNat (s.rx xt).toNat td) ∧
    exec (.tkmax a b xt td) s = .next (s.sendScalar 2 (s.domEa a) (s.rx b).toNat (s.rx xt).toNat td) ∧
    (s.wayTo t = none → ∀ op, s.sendScalar op (s.domEa a) (s.rx b).toNat (s.rx xt).toNat td =
      { s with parts := s.parts ++ [p op], fresh := s.fresh + 1 })) ∧
  (∀ (s : State) (d a b : Nat), s.xReady [a, b] → s.loadReady → s.chkLock (s.rx a).toNat (s.rx b).toNat = .ok →
    let n := (lineRange (s.rx a).toNat (s.rx b).toNat).2
    let r := s.lockTest (s.rx a).toNat (s.rx b).toNat
    let held := s.lockedLines (s.rx a).toNat (s.rx b).toNat
    (∃ u, exec (.lock d a b) s = .next (u.lockResult d r.1 r.2.length (s.rx a).toNat) ∧
      (r.1 = 0 → n ≠ 0 ∧ s.lockUse s.tid + r.2.length ≤ s.myTask.lockq ∧ r.2.Nodup ∧
        ∀ pa ∈ r.2, pa % 256 = 0 ∧ (pa / 256, s.tid) ∉ (s.die (homeDie pa)).locks) ∧ (r.1 ≠ 0 → r.2 = [] ∧ u = s) ∧
      (∀ pa ∈ r.2, (pa / 256, s.tid) ∈ (u.die (homeDie pa)).locks) ∧ (∀ k l, l ∈ (s.die k).locks → l ∈ (u.die k).locks)) ∧
    (∃ u, exec (.unlock d a b) s = .next u ∧
      (n = 0 → u = s.lockResult d 3 0 (s.rx a).toNat) ∧
      (n ≠ 0 → (s.rx a).toNat / 256 * 256 / 2 ^ 21 = (((s.rx a).toNat / 256 + n) * 256 - 1) / 2 ^ 21 →
        ∃ v : State, u = v.lockResult d 0 held.length (s.rx a).toNat ∧
          (∀ pa ∈ held, (pa / 256, s.tid) ∉ (v.die (homeDie pa)).locks) ∧ (∀ k l, l.2 ≠ s.tid → l ∈ (s.die k).locks → l ∈ (v.die k).locks))))

/-- R102 to R106, R334, R387, R391, R427: operations that act at their bundle's commit complete by leaving themselves, with their operands, for
it. What the scalar atomics, TDEC and GLEAVE then do. -/
def Obligations.CommitOperationsComplete : Prop :=
  (∀ (s : State) (d a b c typ : Nat) (t : AccTgt), s.xReady [a, b, c] → s.loadReady → typ < 4 →
    s.accOperand (s.domEa a) (if 2 ≤ typ then 8 else 4) = .ok t →
    let v := [s.domEa a, (s.rx b).toNat, 0]
    exec (.aadd d a b typ) s = .next (s.defer (.aadd d a b typ) v) ∧ exec (.amin d a b typ) s = .next (s.defer (.amin d a b typ) v) ∧
    exec (.amax d a b typ) s = .next (s.defer (.amax d a b typ) v) ∧ exec (.axchg d a b typ) s = .next (s.defer (.axchg d a b typ) v) ∧
    exec (.acas d a b c typ) s = .next (s.defer (.acas d a b c typ) [s.domEa a, (s.rx b).toNat, (s.rx c).toNat])) ∧
  (∀ (c : LCore) (off op w b x : Nat) (uns : Bool), op < 5 → w = 32 ∨ w = 64 → c.memOk = true → c.acc.isPois off = false →
    let old := c.acc.mem.readN off (w / 8)
    ∃ u new, c.atom off op w uns b x = some (old, u) ∧ u.sp = c.sp ∧ u.code = c.code ∧ u.acc.pois = c.acc.pois ∧
      u.acc.mem.readN off (w / 8) = new ∧ (∀ k, k < off ∨ off + w / 8 ≤ k → u.acc.mem.read k = c.acc.mem.read k) ∧
      (op = 0 → new = (old + b) % 2 ^ w) ∧ (op = 3 → new = b % 2 ^ w) ∧ (op = 4 → new = if old = x % 2 ^ w then b % 2 ^ w else old) ∧
      (op = 1 → uns = true → new = min old (b % 2 ^ w)) ∧ (op = 2 → uns = true → new = max old (b % 2 ^ w)) ∧
      (op = 1 → uns = false → sextI w new = min (sextI w old) (sextI w (b % 2 ^ w))) ∧
      (op = 2 → uns = false → sextI w new = max (sextI w old) (sextI w (b % 2 ^ w)))) ∧
  (∀ (s : State) (a b n1 : Nat), s.xReady [a, b] → s.acquires = [] →
    let v := [(s.rx a).toNat, (s.rx b).toNat]
    (s.chkXfer (s.rx a).toNat (s.rx b).toNat (n1 + 1) 0 = .ok → exec (.xferOwned a b n1) s = .next (s.defer (.xferOwned a b n1) v)) ∧
    (s.chkXfer (s.rx a).toNat (s.rx b).toNat (n1 + 1) 1 = .ok → exec (.xferShared a b n1) s = .next (s.defer (.xferShared a b n1) v)) ∧
    (s.chkXfer (s.rx a).toNat (s.rx b).toNat (n1 + 1) 2 = .ok → exec (.xferEngine a b n1) s = .next (s.defer (.xferEngine a b n1) v))) ∧
  (∀ (s : State) (d a b : Nat), s.xReady [a, b] → s.loadReady → s.chkToken (s.rx a).toNat (s.rx b).toNat = .ok →
    exec (.tokacq d a b) s = .next (s.defer (.tokacq d a b) [(s.rx a).toNat, (s.rx b).toNat]) ∧
    exec (.tokrel d a b) s = .next (s.defer (.tokrel d a b) [(s.rx a).toNat, (s.rx b).toNat])) ∧
  (∀ (s : State) (d a n : Nat), s.xReady [a] → s.loadReady → s.releaseReady →
    exec (.tdec d a n) s = .next (s.defer (.tdec d a n) [(s.rx a).toNat])) ∧
  (∀ (s : State) (d id n : Nat),
    let t := s.task id
    let r := s.decTask d id n
    let c := s.core (s.hostOf t.lcore)
    let q := Tbl.get [] (r.2.core (s.hostOf t.lcore)).ready t.prio
    let gone := 2 ^ 32 ≤ id ∨ t.id ≠ id ∨ t.state ≠ 1
    r.1 = (if gone then (2, t.dep) else if n < t.dep then (0, t.dep - n) else if t.dep < n then (3, 0) else (1, 0)) ∧
    (gone → r.2 = s) ∧
    (¬ gone → (r.2.task id).dep = t.dep - n ∧ (r.2.task id).state = (if n < t.dep then 1 else 2)) ∧
    (¬ gone → t.dep ≤ n → id ∈ q ∧ ((Tbl.get (0, 0) c.joins t.prio).1 ≠ c.cyc → q = Tbl.get [] c.ready t.prio ++ [id]) ∧
      (r.2.task id).flush = if dieOf t.lcore ≠ d then d + 1 else t.flush)) ∧
  (∀ (s : State) (g : Nat), exec (.gleave g) s = .next (s.defer (.gleave g) [])) ∧
  (∀ (s : State) (id n : Nat), (s.task id).slotGid n = none → s.leaveGroup id n = s) ∧
  (∀ (g : Group), g.settle = if 0 < g.arr ∧ g.arr = g.nmem - g.nleft then { g with phase := (g.phase + 1) % 2 ^ 32, arr := 0 } else g)

/-! ### Engine commands -/

/-- R137, R147: an engine command completes at its issue where the fields of its staging set, its barrier, its destination and its counter pass
their checks: the command stands among the bundle's operations with the staging set that it captured, and its counter rises with
latency 1. All fifteen forms. -/
def Obligations.EngineCommandsCaptured : Prop :=
  ∀ (i : Instr) (s : State) (kind op : Nat) (h : CHdr), i.cmdOf = some (kind, op, h) → s.acquires = [] →
    let stg := s.captureStg kind op h.set
    (∀ k, k < 16 → s.cfgBad kind op stg k = false) →
    (2 ≤ h.cmode → ∃ u o, spScalar s.lc (stg.getD 15 0) 8 8 = .ok (u, o)) →
    s.overlapBad kind op (s.cmdGid kind stg) stg = false →
    (h.cmode % 2 = 1 → (s.ar.getSr (0x010 + h.cc)).toNat + s.ar.raising h.cc + (s.bun.incs.filter (fun n => n == h.cc)).length < 65535) →
    ∃ t c, exec i s = .next t ∧ t.bun.ops = s.bun.ops ++ [⟨s.slot, i, [], 0, some c⟩] ∧
      c.kind = kind ∧ c.op = op ∧ c.h = h ∧ c.task = s.tid ∧ c.asid = s.asid ∧ c.lcore = s.lc ∧ c.pcore = s.cur ∧ c.fault = none ∧ c.started = false ∧
      (kind ≠ 2 ∨ op ≠ 1 ∨ fld (stg.getD 2 0) 44 32 ≠ 0 → c.stg = stg) ∧
      (h.cmode % 2 = 1 → t.ar.inflight = insertLanding ⟨s.ar.scyc + 2, s.ar.scyc + 1, s.slot, s.bun.pc, .cc, h.cc, 1, none⟩ s.ar.inflight) ∧
      (h.cmode % 2 = 0 → t.ar = s.ar) ∧ s.KeepsOutside t ∧ s.ar.KeepsVisible t.ar ∧ t.cx.wbuf = s.cx.wbuf

/-! ### Tasks, streams, exceptions -/

/-- R158, R163, R164, R387, R392, R408, R409: where the stream bindings, the group barrier and the operations on tasks complete, and with what.
A task that becomes READY joins the tail of its level's queue; of several in one core cycle the identifiers ascend (R378).
ENDT, YIELD, TRAP, BRK and RETT are carried out once their bundle has committed. -/
def Obligations.TaskOperationsComplete : Prop :=
  (∀ (s : State) (n a dir fek add ai : Nat) (depth : Option Nat), s.xReady [a, a + 1, a + 2, a + 3] → s.acquires = [] → s.ar.flightTo n = 0 →
    (s.binding a dir fek add ai depth).malformed = false →
    exec (.qbind n a dir fek add ai depth) s = .next (s.modBun (fun b => { b with ends := b.ends ++ [.bind n (some (s.binding a dir fek add ai depth))] }))) ∧
  (∀ (s : State) (n : Nat), s.ar.flightTo n = 0 →
    exec (.qunbind n) s = .next (s.modBun (fun b => { b with ends := b.ends ++ [.bind n none] }))) ∧
  (∀ (s : State) (n : Nat), s.acquires = [] →
    (s.stream n = none → exec (.qsync n) s = .next s) ∧
    (∀ st, s.stream n = some st → st.dir = 0 → exec (.qsync n) s = .next (s.modBun (fun b => { b with ends := b.ends ++ [.sync n] }))) ∧
    (∀ st, s.stream n = some st → st.dir = 1 → s.ar.flightTo n = 0 → s.cx.bnd = true →
      s.farOpen (fun k => k.m.kind == 3 && k.req == 0) = false → exec (.qsync n) s = .next s)) ∧
  (∀ (s : State) (d n : Nat), exec (.qstat d n) s = .next (s.outX d 1 (BitVec.ofNat 64 (s.qstatWord n))) ∧
    (s.stream n = none → s.qstatWord n = 0)) ∧
  (∀ (s : State) (d g gid : Nat), s.acquires = [] → s.releaseReady → s.myTask.slotGid g = some gid → s.cx.bnd = true → Tbl.get false s.myTask.gw g = true → s.phaseReached g = true →
    ∃ t, exec (.gbar d g) s = .next t ∧ Tbl.get false t.myTask.gw g = false ∧
      t.ar.inflight = (s.outX d 1 (BitVec.ofNat 64 (Tbl.get 0 s.myTask.gt g))).ar.inflight) ∧
  (∀ (s : State) (d g : Nat), s.acquires = [] → s.myTask.slotGid g = none → s.bun.checked = false →
    exec (.gbar d g) s = .next (s.takeTrap { cause := 14, d0 := 3, d1 := g, slot := s.slot })) ∧
  (∀ s : State, s.acquires = [] → s.releaseReady → s.ar.loads.any (PendLoad.lateStream s.ar.scyc) = false → ∃ t, exec .endt s = .next t ∧ t = s.endTask ∧
    (t.task s.tid).state = 5 ∧ (t.task s.tid).async = [] ∧ (∀ n, n < 4 → (t.task s.tid).slotGid n = none) ∧ (t.ctxAt s.cur s.ctx).task = none ∧
    (∀ d l, l ∈ (t.die d).locks → l.2 ≠ s.tid)) ∧
  (∀ (s : State) (pa : Nat), s.matFlush.framePA false true = .ok pa →
    ∃ t, exec .yield s = .next t ∧ (t.task s.tid).state = 2 ∧ (t.ctxAt s.cur s.ctx).task = none ∧
      let h := s.hostOf s.myTask.lcore
      let q := Tbl.get [] (t.core h).ready s.myTask.prio
      s.tid ∈ q ∧ ((Tbl.get (0, 0) (s.core h).joins s.myTask.prio).1 ≠ (s.core h).cyc →
        q = Tbl.get [] (s.core h).ready s.myTask.prio ++ [s.tid])) ∧
  (∀ (s : State) (n : Nat),
    exec (.trap n) s = .next (s.takeTrap { cause := 20, d0 := n, slot := 0, pc := some s.bun.pc }) ∧
    exec (.brk n) s = .next (s.takeTrap { cause := 21, d0 := n, slot := 0, pc := some s.bun.pc })) ∧
  (∀ s : State,
    (s.cx.inh = false → exec .rett s = .next (s.takeTrap { cause := 21, d0 := 1024, slot := 0, pc := some s.bun.pc })) ∧
    (∀ pa, s.cx.inh = true → s.framePA true false = .ok pa → s.frameBad pa = false → (s.core s.cur).trace = false →
      ∃ t, exec .rett s = .next t ∧ t.cx.inh = false ∧ t.ar.pc = fld (s.fw pa 0x58) 17 0 ∧
        t.ar = { s.frameRegs pa s.cx.frameLoads true with pc := fld (s.fw pa 0x58) 17 0 } ∧ t.cx.image = t.ar ∧ t.cx.held = s.cx.held ∧ t.cx.wbuf = [] ∧
        t.mem = s.mem ∧ t.lcores = s.lcores))

/-- R400, R403, R405, R408: taking an exception. A rollback puts the checkpoint image back and discards what has not been committed, and no memory
changes; a user cause enters the vector, LATE_DATA 64 bytes above it, with the rolled-back registers, nothing in flight, no loop, no
stream and no image; a supervisor cause saves the task and frees its context, with an event that names the task. -/
def Obligations.TakingAnException : Prop :=
  (∀ c : Nat, superCause c = true ↔ c = 3 ∨ c = 7 ∨ c = 20 ∨ c = 21) ∧
  (∀ s : State,
    let t := s.rollback
    t.ar = s.cx.image ∧ t.cx.image = s.cx.image ∧ t.cx.held = [] ∧ t.cx.wbuf = [] ∧ t.cx.win = [] ∧ t.cx.rets = [] ∧ t.cx.replay = none ∧
    t.cx.inh = s.cx.inh ∧ t.cx.task = s.cx.task ∧ t.mem = s.mem ∧ t.parts = s.parts ∧
    (∀ l, (t.lcore l).sp = (s.lcore l).sp ∧ (t.lcore l).acc = (s.lcore l).acc ∧ (t.lcore l).ttile = (s.lcore l).ttile) ∧
    (∀ m ∈ (t.core s.cur).matPend, m ∈ (s.core s.cur).matPend ∧ (m.ctx = s.ctx → m.committed = true))) ∧
  (∀ (s : State) (t : Trap) (pa : Nat), s.framePA true true = .ok pa →
    let u := s.deliverUser t
    u.cx.inh = true ∧ u.ar.pc = s.myTask.trapvec + (if t.cause = 8 then 0x40 else 0) ∧ u.cx.image = u.ar ∧
    u.ar.x = s.ar.x ∧ u.ar.v = s.ar.v ∧ u.ar.p = s.ar.p ∧ u.ar.xpois = s.ar.xpois ∧ u.ar.stg = s.ar.stg ∧
    u.ar.inflight = [] ∧ u.ar.loads = [] ∧ u.ar.loops = [] ∧ u.ar.streams = [] ∧ u.ar.images = [] ∧ u.cx.task = s.cx.task) ∧
  (∀ (s : State) (t : Trap) (dbl : Bool) (pa : Nat), s.framePA false true = .ok pa →
    let u := s.deliverSuper t dbl
    (u.task s.tid).state = 4 ∧ (u.ctxAt s.cur s.ctx).task = none ∧ ∃ l, (u.die (fld s.tid 18 16)).fwEvents = l ++ [(2, s.tid)]) ∧
  (∀ (s : State) (t : Trap), s.presentedWith s.tid = [] → (s.core s.cur).trace = false →
    s.cx.trpend = none → s.cx.preempt = false →
    let r := s.rollback.modCx (fun k => { k with trpend := none })
    let q (n : Nat) : Trap := { t with pc := some (t.pc.getD (s.nextHeader s.ar.pc)), ncyc := n, nb := s.cx.nb }
    ∃ n,
      (superCause t.cause = false → s.cx.inh = false → r.codeOk (r.myTask.trapvec + (if t.cause = 8 then 0x40 else 0)) = true →
        s.takeTrap t = { r.deliverUser (q n) with bun := {} }) ∧
      (superCause t.cause = true → s.takeTrap t = { r.deliverSuper (q n) false with bun := {} }) ∧
      (superCause t.cause = false →
        s.cx.inh = true ∨ r.codeOk (r.myTask.trapvec + (if t.cause = 8 then 0x40 else 0)) = false →
        s.takeTrap t = { r.deliverSuper (q n) true with bun := {} }) ∧
      (t.cause = 20 ∨ t.cause = 21 → n = 0))

/-! ### Events -/

/-- Where the events inside a core and its engines happen, and with what (R83, R106, R117, R121, R122, R140, R142, R155, R159, R183, R222, R297,
R308, R319, R321, R322, R384, R395, R398, R403). An event is carried out under its condition; the operations that it then makes have
their own statements. -/
def Obligations.CoreEvents : Prop :=
  (∀ (s : State) (p c : Nat), ({ s with cur := p, ctx := c } : State).atBoundary = true →
    ∃ t, exec (.implicitCheckpoint p c) s = .next t ∧
      ((s.ctxAt p c).held = [] → (t.ctxAt p c).image = (s.ctxAt p c).arch ∧ (t.ctxAt p c).arch = (s.ctxAt p c).arch ∧ (t.ctxAt p c).held = [] ∧
        ((∀ e ∈ (s.ctxAt p c).wbuf, e.releases = false) → (t.ctxAt p c).wbuf = []) ∧ (t.ctxAt p c).ckimp = ((s.ctxAt p c).ckimp + 1) % 2 ^ 32 ∧ (t.ctxAt p c).ckexp = (s.ctxAt p c).ckexp % 2 ^ 32)) ∧
  (∀ (s : State) (p c : Nat), ({ s with cur := p, ctx := c } : State).canTransfer = true →
    exec (.xferComplete p c) s = .next (s.within p c State.finishHold)) ∧
  (∀ (s : State) (p c k : Nat) (q : Cmd), (s.task (s.ctxAt p c).tid).parked.find? (fun t => t.1 == k) = some (k, q) →
    (∃ t, exec (.engctlResume p c k) s = .next t ∧ (t.task (s.ctxAt p c).tid).parked = Tbl.del (s.task (s.ctxAt p c).tid).parked k ∧
      ∃ r ∈ t.queueOf q.kind q.pcore, r.id = q.id ∧ r.stg = q.stg ∧ r.fault = none ∧ r.started = false) ∧
    ∃ t, exec (.engctlCancel p c k) s = .next t ∧ (t.task (s.ctxAt p c).tid).parked = Tbl.del (s.task (s.ctxAt p c).tid).parked k) ∧
  (∀ (s : State) (q : QRef),
    (s.canStart q = true → exec (.commandStart q) s = .next (s.startCmd q)) ∧
    (s.canComplete q = true → exec (.engineCompletion q) s = .next (s.completeCmd q)) ∧
    (∀ c f, (s.queueAt q)[q.pos]? = some c → c.fault = some f → s.slotTaken c = false → (s.task c.task).state ≠ 5 →
      ∃ t, exec (.engineFault q) s = .next t ∧ (∀ x, Tbl.get x (t.task c.task).parked c.kind = c) ∧
        ∃ l, (t.task c.task).async = l ++ [{ f with slot := 9, async := true }])) ∧
  (∀ (s : State) (d : Nat), s.canDemand d = true → exec (.flowstoneDemand d) s = .next (s.serveDemand d)) ∧
  (∀ (s : State) (p c n : Nat) (q : PendLoad), s.loadAt n = some (.ctx p c q) → q.waits = false → (s.ctxAt p c).frameLoads = [] → q.toStream = false →
    ∃ t, exec (.loadDataArrive p c n) s = .next t ∧ (t.ctxAt p c).arch = (s.ctxAt p c).arch.arrive q (s.ctxAt p c).owed ∧
      (t.ctxAt p c).image = (s.ctxAt p c).image.arrive q (s.ctxAt p c).owed ∧ t.mem = s.mem ∧ t.lcores = s.lcores) ∧
  (∀ (s : State) (p c n : Nat) (o : Offer) (x : SlotInst) (t : Trap),
    let v := { s with cur := p, ctx := c }
    v.prep = .trap o x t → t.cause = 8 → (∃ q ∈ v.ar.loads, q.id = n ∧ q.addr = t.d1) →
    exec (.lateData p c n) s = .next (s.within p c (fun s => s.trapOffer o x t))) ∧
  (∀ (s : State) (p c n l : Nat) (k : LCore) (w : BankWait), s.lcores.find? (fun t => t.2.waits.any (fun w => w.id == n)) = some (l, k) →
    s.fullWait l = some w → w.id = n → exec (.feWaitSatisfy p c n) s = .next (s.satisfy l w)) ∧
  (∀ (s : State) (p c q n : Nat) (st : Stream),
    let v := { s with cur := p, ctx := c }
    v.canFetch q = true → v.nextElem q = some (st, n) →
    exec (.streamFetch p c q) s = .next (s.within p c (fun s =>
      if st.space = 2 then ((s.fetchNext q).tlbFill s.cur s.asid (st.elem n)).draw else s.fetchNext q))) ∧
  (∀ (s : State) (p c r v x : Nat), (s.ctxAt p c).replay = some ⟨r, x, v⟩ → v < (s.core p).cyc →
    ∃ t, exec (.recipeReplay p c r) s = .next t ∧ (t.ctxAt p c).replay = none ∧ (t.ctxAt p c).arch.getV r = BitVec.ofNat 2048 x ∧
      Tbl.get 0 (t.ctxAt p c).arch.vst r = 1 ∧ (t.ctxAt p c).arch.recipes = (s.ctxAt p c).arch.recipes) ∧
  (∀ (s : State) (p n : Nat) (r : MRes), (s.core p).matPend[n]? = some r → s.asleep p = false → r.committed = true → r.written = false → r.at_ < (s.core p).cyc →
    (s.ctxAt p r.ctx).commitOver = true → (∀ q ∈ (s.core p).matPend.take n, q.ctx = r.ctx → q.written = true) →
    ∃ t, exec (.matrixResultWrite p n) s = .next t ∧ t.lcores = (s.writeRes r).lcores ∧ t.mem = s.mem) ∧
  (∀ (s : State) (p c g k l : Nat), (s.ctxAt p c).presented = some (g, k, l) → k + 4096 ≤ (s.core p).cyc →
    exec (.pairTimeout p c) s = .next (s.within p c State.timeoutPair)) ∧
  (∀ (s : State) (p : Part) (l m : List Part), s.parts = l ++ p :: m → (∀ q ∈ l, q.id ≠ p.id ∨ q.refused ≠ p.refused) →
    (p.refused = false → exec (.ticketPartArrive p.id) s = .next (({ s with parts := l ++ m } : State).deliverPart p)) ∧
    (p.refused = true → exec (.ticketPartRetry p.id) s = .next (({ s with parts := l ++ m } : State).deliverPart p))) ∧
  (∀ (s : State) (l td : Nat), s.gapDue l td = true →
    ∃ t, exec (.ticketGap l td) s = .next t ∧ ((t.lcore l).dom td).gapev = true ∧ ((t.lcore l).dom td).timer = 0 ∧ (t.lcore l).acc = (s.lcore l).acc) ∧
  (∀ (s : State) (p c : Nat) (t : Trap),
    let v := { s with cur := p, ctx := c }
    v.prep = .stop t → v.cx.trpend.isSome = true ∨ v.myTask.async ≠ [] →
    exec (.asyncTrap p c) s = .next (s.within p c (fun s => s.takeStop t))) ∧
  (∀ (s : State) (p c : Nat), 64 ≤ (s.ctxAt p c).wait → (s.ctxAt p c).prom = false →
    ∃ t, exec (.selectorPromotion p c) s = .next t ∧ (t.ctxAt p c).prom = true ∧ (t.ctxAt p c).promCyc = (s.core p).cyc ∧
      (t.ctxAt p c).arch = (s.ctxAt p c).arch ∧ t.lcores = s.lcores ∧ t.mem = s.mem)

/-- R213, R378, R383, R388, R390, R393, R410: the events that change a task's state. That TASK_TERMINATE takes the task out of its groups and releases
its locks, as the end of a task does (R101, R386), is how the model reads the manual (DEDUCED, log 54). -/
def Obligations.TaskEvents : Prop :=
  (∀ (s : State) (p c id n : Nat) (rest : List Nat), (s.ctxAt p c).task = none → (s.core p).level = some n → Tbl.get [] (s.core p).ready n = id :: rest →
    (s.task id).ran = false → s.mayStart id = true → s.asleep p = false →
    ∃ t, exec (.taskDispatch p c) s = .next t ∧ (t.ctxAt p c).task = some id ∧ (t.task id).state = 3 ∧ Tbl.get [] (t.core p).ready n = rest ∧
      (t.ctxAt p c).arch.pc = (s.task id).entry ∧ ((t.ctxAt p c).arch.getX 1).toNat = (s.task id).arg % 2 ^ 64 ∧
      (∀ r, r ≠ 1 → (t.ctxAt p c).arch.getX r = 0) ∧ (t.ctxAt p c).image = (t.ctxAt p c).arch ∧ t.mem = s.mem ∧ t.lcores = s.lcores) ∧
  (∀ (s : State) (p c : Nat) (o : Offer) (l : List (SlotInst × Wait)),
    let v := { s with cur := p, ctx := c }
    v.prep = .hold o l → v.yieldDue = true → l.any yieldable = true → exec (.waitYield p c) s = .next (s.within p c (fun s => s.saveCtx true))) ∧
  (∀ (s : State) (p c id : Nat), (s.ctxAt p c).task = some id → s.preemptSet id = [(p, c)] →
    ({ s with cur := p, ctx := c } : State).canSave = true →
    exec (.preempt p c) s = .next ((((s.modCtxAt p c (fun k => { k with preempt := true })).modTask id (fun k => { k with gp := false })).within p c
      (fun s => (s.modCx (fun k => { k with preempt := false, stop := false, stopped := false, replay := none, presented := none })).saveCtx false)))) ∧
  (∀ (s : State) (pa : Nat) (yield : Bool), s.framePA false true = .ok pa →
    let t := s.saveFrame yield []
    (t.ctxAt s.cur s.ctx).task = none ∧ (t.task s.tid).state = (if yield = true then 2 else 4)) ∧
  (∀ (s : State) (p c id : Nat), (s.ctxAt p c).task = some id →
    ∃ t, exec (.taskTerminate p c) s = .next t ∧ (t.task id).state = 5 ∧ (t.ctxAt p c).task = none ∧ (∀ n, n < 4 → (t.task id).slotGid n = none) ∧
      (∀ d l, l ∈ (t.die d).locks → l.2 ≠ id) ∧ t.mem = s.mem ∧
      ((∀ r ∈ (s.core p).matPend, r.ctx = c → r.committed = false ∨ r.written = true) → t.lcores = s.lcores)) ∧
  (∀ (s : State) (id : Nat), (s.task id).state = 4 → (s.task id).id = id → s.savedWith id = [] →
    let c := s.core (s.hostOf (s.task id).lcore)
    ∃ t, exec (.resumption id) s = .next t ∧ (t.task id).state = 2 ∧
      let q := Tbl.get [] (t.core (s.hostOf (s.task id).lcore)).ready (s.task id).prio
      id ∈ q ∧ ((Tbl.get (0, 0) c.joins (s.task id).prio).1 ≠ c.cyc → q = Tbl.get [] c.ready (s.task id).prio ++ [id])) ∧
  (∀ (s : State) (l : Launch), s.launches.find? (fun k => k.id == l.id && k.die == l.die) = some l →
    (∀ t ∈ l.tasks, (s.task t).state = 5 ∧ s.cmdsOf t = [] ∧ s.flushOwed (fld t 18 16) (fun _ => true) = false) →
    (∀ k ∈ s.launches, k.id = l.id → k = l) →
    (∀ n, l.sent = some n → (s.die l.die).copies.any (fun k => k.m.kind == 7 && k.ref == n) = false) →
    (l.sent = none → l.done ≠ 0 → ∀ ph, s.xlate (.die l.die) l.asid (l.done % 2 ^ 57) true = .ok ph → s.atOnce l.die ph.pa 0 s.fresh = true) →
    ∃ t, exec (.launchComplete l.die l.id) s = .next t ∧ t.launches = s.launches.filter (fun k => k.id != l.id) ∧ (∀ k ∈ l.tasks, (t.task k).state = 0))

/-- R441 to R453, R478: the events of Elwiset, for a die that is not halted and messages of its group. -/
def Obligations.ElwisetEvents : Prop :=
  ∀ (s : State) (d : Nat),
    let e := s.elw d
    let ref := s.elwRef d
    let me := s.elwId d
    e.halted = false →
    (∀ temps f, (∀ t ∈ temps, t < 16 * 115) → exec (.thermalSample d temps f) s =
      .next ((s.modElw d (fun e => { e with thermal := thermalLimit s.cfg.tthr f })).limitChanged d)) ∧
    (∀ temps f, (∃ t ∈ temps, 16 * 115 ≤ t) → ∃ t, exec (.thermalSample d temps f) s = .next t ∧ (t.elw d).halted = true ∧ 3 ∈ (t.die d).hevt.map (fun h => h.1)) ∧
    (exec (.ceilingChangeApply d) s = .next (s.applyChanges d)) ∧
    (e.gtime % 100 = 0 → exec (.hbSend d) s = .next ((s.elwMembers d).foldl (fun t n => t.elwSend d n (s.elwMsg d 0 e.limit e.gtime me 0 false)) s)) ∧
    (e.gtime % 100 = 50 → (∀ m ∈ e.members, m.1 = me ∨ m.2.silent = true ∨ m.2.joining = true ∨ e.gtime ≤ m.2.last + 250) →
      exec (.silenceTest d) s = .next s) ∧
    (∀ n, e.gtime % 100 = 50 →
      (e.members.filter (fun m => m.1 != me && !m.2.silent && !m.2.joining && m.2.last + 250 < e.gtime)).map (fun m => m.1) = [n] →
      exec (.silenceTest d) s = .next ((s.modElw d (fun e =>
        { e.modMember n (fun m => { m with silent := true }) with
          ceiling := ceilOf 700 (e.modMember n (fun m => { m with silent := true })).members, lastTick := e.gtime })).elwEvent d 4 n)) ∧
    (ref ≠ some me → exec (.evictTimeout d) s = .next s) ∧
    (∀ n, ref = some me →
      (e.members.filter (fun m => m.2.silent && m.1 != me && !m.2.removal && m.2.last + 10000 ≤ e.gtime)).map (fun m => m.1) = [n] →
      let v := s.elwSeq d
      let t := (v.elw d).gtime + 50
      exec (.evictTimeout d) s = .next ((v.elwAll d (v.elwMsg d 10 0 t n 0 false)).schedule d n t 0 true true)) ∧
    (∀ n p, e.props = [(n, p)] → p.tick ≤ e.gtime + 50 → exec (.raiseDeadline d) s = .next (s.settleRaise d n p)) ∧
    (∀ n t mhz, e.retry = [(n, t, mhz)] → t ≤ e.gtime → n ≠ me → Tbl.has e.members n = true →
      exec (.retryAfterCancel d) s = .next ((s.modElw d (fun e => { e with retry := Tbl.del e.retry n })).propose d n mhz)) ∧
    (∀ t, e.joinTick = some t → t ≤ e.gtime + 50 → e.joinN = 0 →
      ∃ u, exec (.joinDeadline d) s = .next u ∧ (u.elw d).joinTick = none ∧ (u.elw d).err = true ∧ (u.elw d).go = false) ∧
    (∀ m : ElwMsg, m.egid = e.egid →
      (ref ≠ some m.src → ∀ x, (∀ t ∈ e.members, t.1 = m.src → t = (m.src, x)) → (m.src, x) ∈ e.members → x.silent = false →
        exec (.hb d m) s = .next (s.modElw d (fun e => e.modMember m.src (fun x => { x with last := Nat.max x.last m.tick })))) ∧
      (s.newer d m = false → exec (.lower d m) s = .next s ∧ exec (.leave d m) s = .next s ∧ exec (.commit d m) s = .next s) ∧
      (s.newer d m = true → Tbl.get (0, 0, 0) e.raises m.subj ≠ (m.src, m.tick, m.mhz) → exec (.commit d m) s = .next (s.seen d m)) ∧
      (s.newer d m = true →
        exec (.lower d m) s = .next (((s.seen d m).modElw d (fun e => { e with raises := Tbl.del e.raises m.src, props := Tbl.del e.props m.src, retry := Tbl.del e.retry m.src })).schedule
          d m.src m.tick m.mhz false false) ∧
        (Tbl.get (0, 0, 0) e.raises m.subj = (m.src, m.tick, m.mhz) →
          exec (.commit d m) s = .next (((s.seen d m).modElw d (fun e => { e with raises := Tbl.del e.raises m.subj })).schedule d m.subj m.tick m.mhz false false)) ∧
        exec (.leave d m) s = .next ((s.seen d m).schedule d m.src m.tick 0 true false) ∧
        (m.subj ≠ me → exec (.evict d m) s = .next ((s.seen d m).schedule d m.subj m.tick 0 true true))) ∧
      (m.subj = me → ∃ u, exec (.evict d m) s = .next u ∧ (u.elw d).egid = 0 ∧ (u.elw d).members.map (fun t => t.1) = [me]) ∧
      (∀ v, v = s.modElw d (fun e => { e with raises := Tbl.put e.raises m.subj (m.src, m.tick, m.mhz) }) →
        exec (.raise d m) s = .next (v.elwSend d m.src (v.elwMsg d 3 m.mhz m.tick m.subj 0 false))) ∧
      (∀ p, e.props.find? (fun q => q.1 == m.subj) = some (m.subj, p) → p.tick = m.tick →
        exec (.ack d m) s = .next (s.modElw d (fun e => { e with props := Tbl.put e.props m.subj { p with acks := NatSet.insert p.acks m.src } }))) ∧
      exec (.cancel d m) s = .next (s.modElw d (fun e => { e with raises := Tbl.del e.raises m.subj })) ∧
      (e.joinTick.isSome = true → exec (.join d m) s = .next (s.joinAnswer d m.subj 0 true m.egid)) ∧
      (e.joinTick = none → (∀ t ∈ e.members, t.2.joining = false) → m.src ≠ m.subj →
        exec (.join d m) s = .next ((s.addJoiner d m.subj m.tick m.mhz).joinAnswer d m.subj 0 false m.egid)) ∧
      (e.joinTick.isSome = true → m.busy = false → m.n ≠ 0 →
        ∃ u, exec (.joinack d m) s = .next u ∧ (u.elw d).joinN = m.n ∧ (u.elw d).gtime = m.gtime ∧ (u.elw d).joinTick = some (m.gtime + 250)) ∧
      (m.subj ≠ me → Tbl.has e.members m.subj = true →
        ∃ u, exec (.joinabort d m) s = .next u ∧ (u.elw d).members = Tbl.del e.members m.subj) ∧
      exec (.elwBadOp d m) s = .next (s.protoError d 13 m.src)) ∧
    (∀ m : ElwMsg, m.egid ≠ e.egid → e.joinTick = none → e.hosting = none →
      exec (.hb d m) s = .next (s.protoError d 13 m.src) ∧ exec (.lower d m) s = .next (s.protoError d 13 m.src) ∧
      exec (.raise d m) s = .next (s.protoError d 13 m.src)) ∧
    (e.go = false → e.joinEgid ≠ 0 → e.egid = 0 →
      ∃ u, exec (.elwctlJoin d) s = .next u ∧ (u.elw d).go = true ∧ (u.elw d).joinTick = some (e.gtime + 250) ∧ (u.elw d).joinView = []) ∧
    (e.go = false → e.egid ≠ 0 → ∃ u, exec (.elwctlLeave d) s = .next u ∧ (u.elw d).go = true ∧ (u.elw d).leaveAt = some (e.gtime + 50)) ∧
    (∀ mhz, e.go = false → 300 ≤ mhz → mhz ≤ 700 → mhz % 25 = 0 →
      exec (.elwctlCap d mhz) s = .next ((s.modElw d (fun e => { e with cmd := 3, mhz := mhz, cap := mhz })).limitChanged d)) ∧
    (∃ u, exec (.elwevtPop d) s = .next u ∧ (u.elw d).events = e.events.drop 1) ∧
    ((∀ k, k < 8 → (s.elw k).powerLim = 300) →
      ∃ u, exec (.powerCapReached d) s = .next u ∧ (u.die d).hevt = ((s.die d).hevt ++ [(4, d, e.gtime)]).drop ((s.die d).hevt.length + 1 - 64))

/-- R417, R420 to R440: messages of the fabric. One for another package goes on from the bridge that it came to, and one whose way to its die is
down stands at its station (R420, R425). A request that its home serves is answered to its source under its TAG; an answer frees the copy that
it answers; a message that is refused circles once more and is then answered with NACK, which sends the copy again (R422); a flit of an unknown kind
is counted. Flits that pass a hop end the count of its failures (R420): that is `passed`. A flit within a package takes the shorter way round its rings. -/
def Obligations.FabricMessages : Prop :=
  (∀ (s : State) (m : Msg) (i : Instr),
    let b := bridgeOf m.dpkg m.addr
    let g := if m.spkg = m.dpkg then m.sdie else b
    i ∈ ([.rdreq m, .rdrsp m, .wrreq m, .wrack m, .tkpart m, .tkack m, .tkconf m, .aareq m, .aarsp m, .nack m, .notice m, .noteack m, .collrdy m,
      .tokreq m, .tokgrant m, .tokrecall m, .tokreturn m, .flitUnknownKind m] : List Instr) →
    (m.dpkg ≠ (s.die b).pkg → exec i s = .next (s.emit b m)) ∧
    (m.dpkg = (s.die b).pkg → s.ringOpen g m.ddie = false → exec i s = .next { s with station := s.station ++ [(g, m)] })) ∧
  (∀ (s : State) (d : Nat) (m : Msg),
    (m.dpkg ≠ (s.die d).pkg → s.mayLeave d m = true → s.emit d m = { s.passed d m with fabric := s.fabric ++ [m] }) ∧
    (m.dpkg = (s.die d).pkg ∨ s.mayLeave d m = false → s.emit d m = { s with station := s.station ++ [(d, m)] })) ∧
  (∀ a b : Nat, a < 8 → b < 8 → (ringHops a b).length = min ((b + 8 - a) % 8) ((a + 8 - b) % 8)) ∧
  (∀ (s : State) (m : Msg),
    let pa := msgPa m
    let g := if m.spkg = m.dpkg then m.sdie else bridgeOf m.dpkg m.addr
    let again (t : State) : State := if m.rc = true then t.emit m.ddie ⟨9, m.ddie, m.sdie, m.dpkg, m.spkg, m.tag, 0, m.addr, [m.kind + m.tag * 2 ^ 6], false⟩
      else { t with station := t.station ++ [(m.ddie, { m with rc := true })] }
    let back (kind pois : Nat) (words : List Nat) : Msg := ⟨kind, m.ddie, m.sdie, m.dpkg, m.spkg, m.tag, pois, m.addr, words, false⟩
    m.dpkg = (s.die (bridgeOf m.dpkg m.addr)).pkg → s.ringOpen g m.ddie = true →
    (∀ n, n = 2 ^ (m.words.headD 0 % 256) → n ≤ 256 →
      exec (.rdreq m) s = .next ((s.emit m.ddie (back 2 (s.poisBits pa n) [s.readPAn pa n, n])).passed g m)) ∧
    exec (.wrreq m) s = .next (((s.serveWrite m).emit m.ddie (back 4 0 [])).passed g m) ∧
    exec (.wrack m) s = .next ((s.dropCopy m 3).passed g m) ∧ exec (.tkack m) s = .next ((s.dropCopy m 5).passed g m) ∧ exec (.noteack m) s = .next ((s.dropCopy m 11).passed g m) ∧
    (∀ c, s.copyOf m 1 = some c → c.m.words.headD 0 ≠ 8 →
      exec (.rdrsp m) s = .next (((s.dropCopy m 1).giveLoad c.ref (farVal c (m.words.headD 0) (m.pois % 2 == 1))).passed g m)) ∧
    (∀ c, s.copyOf m 1 = some c → c.m.words.headD 0 = 8 → c.stale = false →
      ∃ t, exec (.rdrsp m) s = .next t ∧ t.got = s.got ++ [⟨c.req, (c.m.dpkg * 2 ^ 44 + c.m.addr) / 256, m.words.headD 0, m.pois⟩] ∧
        (s.holdsToken m.ddie (c.m.dpkg * 2 ^ 44 + c.m.addr) = false → t.mem = s.mem ∧ t.rlines = s.rlines)) ∧
    (∀ c f, (s.lcore (msgPart m s.fresh).lcore).arrive (msgPart m s.fresh) = (c, f) →
      (f = .taken → exec (.tkpart m) s = .next (((s.bump.setLcore (msgPart m s.fresh).lcore c).emit m.ddie (back 6 0 [])).passed g m)) ∧
      (f = .refused → exec (.tkpart m) s = .next ((again (s.bump.setLcore (msgPart m s.fresh).lcore c)).passed g m)) ∧
      (∀ k, f = .conflict k → exec (.tkpart m) s = .next (((s.bump.setLcore (msgPart m s.fresh).lcore c).emit m.ddie (back 10 0 [k])).passed g m))) ∧
    (∀ c, s.copyOf m 5 = some c → c.req = 0 →
      ∃ t, exec (.tkconf m) s = .next t ∧ ∃ l x, (t.task c.task).async = l ++ [x] ∧ x.cause = 17 ∧ x.d0 = m.words.headD 0) ∧
    (∀ l o, s.home pa = .acc l o →
      let w := m.words.getD 2 0
      let r := (s.lcore l).atom o (fld w 2 0) (if 2 ≤ fld w 5 4 then 64 else 32) (fld w 5 4 % 2 == 1) (m.words.headD 0) (m.words.getD 1 0)
      (∀ old u, r = some (old, u) → exec (.aareq m) s = .next (((s.setLcore l u).emit m.ddie (back 8 0 [old])).passed g m)) ∧
      (r = none → exec (.aareq m) s = .next ((s.emit m.ddie (back 8 1 [0])).passed g m))) ∧
    (∀ c p k, s.copyOf m 7 = some c → (∀ u ∈ (s.die m.ddie).subs, u.2.busy = false) → s.ctxAwaiting c.ref = some (p, k) →
      exec (.aarsp m) s = .next (((s.dropCopy m 7).answerAtom p k (m.words.headD 0) (m.pois % 2 == 1)).passed g m)) ∧
    (∀ c, (s.die m.ddie).copies.find? (fun k => k.m.kind == m.words.headD 0 % 2 ^ 6 && k.m.tag == m.words.headD 0 / 2 ^ 6 % 4096) = some c →
      ∃ u : State, exec (.nack m) s = .next ((u.emit m.ddie c.m).passed g m) ∧ u.mem = s.mem ∧ u.lcores = s.lcores ∧ u.fabric = s.fabric ∧ u.station = s.station) ∧
    (∀ t, s.takeNotice m.ddie ⟨m.words.getD 1 0 % 2 ^ 32 * 2 ^ 16 + fld (m.words.headD 0) 15 0, fld (m.words.headD 0) 27 16, fld (m.words.headD 0) 35 28⟩ = some t →
      exec (.notice m) s = .next ((t.emit m.ddie (back 12 0 [])).passed g m)) ∧
    (s.takeNotice m.ddie ⟨m.words.getD 1 0 % 2 ^ 32 * 2 ^ 16 + fld (m.words.headD 0) 15 0, fld (m.words.headD 0) 27 16, fld (m.words.headD 0) 35 28⟩ = none →
      exec (.notice m) s = .next ((again s).passed g m)) ∧
    ((s.die m.ddie).collRdy.length < 256 →
      ∃ t, exec (.collrdy m) s = .next t ∧ (t.die m.ddie).collRdy = (s.die m.ddie).collRdy ++ [(m.spkg * 2 ^ 44 + m.addr, fld (m.words.headD 0) 5 0)]) ∧
    (256 ≤ (s.die m.ddie).collRdy.length → exec (.collrdy m) s = .next ((again s).passed g m)) ∧
    ((s.region pa).st ≠ 3 →
      let w := m.words.headD 0
      let r := s.region pa
      exec (.tokreq m) s = .next ((if r.owner = fld w 31 0 ∧ r.asid = fld w 43 32
        then (s.setRegion pa { r with st := 3, tokpkg := m.spkg, tokdie := m.sdie }).emit m.ddie (back 15 0 [w]) else s.emit m.ddie (back 15 0 [0])).passed g m)) ∧
    ((s.region pa).st = 3 → (s.die m.ddie).tokQ = [] →
      exec (.tokreturn m) s = .next ((s.setRegion pa { s.region pa with st := 0, tokpkg := 0, tokdie := 0 }).passed g m)) ∧
    (∀ ra, ra = m.spkg * 2 ^ 44 + m.addr / 2 ^ 21 * 2 ^ 21 → s.holdsToken m.ddie ra = true →
      let v := (s.setRegion ra { s.region ra with tokpkg := m.spkg, tokdie := m.sdie }).dropLines ra (2 ^ 21)
      ((s.die m.ddie).tokenUsed ra = false → exec (.tokrecall m) s = .next ((v.sendTo m.ddie 17 m.spkg m.sdie m.addr 0 m.words {}).passed g m)) ∧
      ((s.die m.ddie).tokenUsed ra = true → exec (.tokrecall m) s = .next ((v.modDie m.ddie (fun x => { x with recalls := x.recalls ++ [m] })).passed g m))) ∧
    (∀ c, s.copyOf m 14 = some c → m.words.headD 0 ≠ 0 →
      let w := c.m.words.headD 0
      let v := (s.dropCopy m 14).setRegion (c.m.dpkg * 2 ^ 44 + c.m.addr) ⟨fld w 31 0, fld w 43 32, 3, 0, c.m.spkg, c.m.sdie⟩
      v.ctxHolding (fld w 31 0) = none → exec (.tokgrant m) s = .next (v.passed g m)) ∧
    exec (.flitUnknownKind m) s = .next ((s.protoError m.ddie m.kind (m.spkg * 8 + m.sdie)).passed g m)) ∧
  (∀ (s : State) (d h : Nat),
    exec (.flitCrcRetry d h) s = .next (s.crcFail d h) ∧
    (32 ≤ Tbl.get 0 (s.die d).hopErr h → NatSet.mem (s.die d).hopDown h = false →
      ∃ t, exec (.hopDown d h) s = .next t ∧ NatSet.mem (t.die d).hopDown h = true))

/-- R367 to R375, R393, R468: command lists. A slot's GO starts its list; an entry is processed where its words can be read, its length is its type's
and its reserved bits are zero; flow entries move the list, SIGNAL and WAITC act on their counter words; SIGNAL, FLUSH and FENCE wait for the flushes
that are owed for the list's ASID (R394), and entries that a SKIPIF passes over are passed by their length. The rows of the entries share
one shape: the event of a type is the processing of an entry of that type. -/
def Obligations.CommandListEntries : Prop :=
  ∀ (s : State) (d n : Nat),
    let u := s.sub d n
    (u.busy = false → (s.die d).ready = true →
      ∃ t, exec (.submitGo d n) s = .next t ∧ (t.sub d n).busy = true ∧ (t.sub d n).pc = u.addr ∧ (t.sub d n).calls = [] ∧ (t.sub d n).loops = []) ∧
    (u.busy = true → ∃ t, exec (.submitGo d n) s = .next t ∧ (t.sub d n).fail = true ∧ (t.sub d n).code = 9 ∧ (t.sub d n).pc = u.pc) ∧
    (u.busy = true → 0 < u.skip → s.listGap d n [u.pc] = none → ∀ w, s.listRead d n u.pc = some w → entryLen (fld w 63 56) = some (fld w 55 52) →
      s.stepList d n = s.passEntry d n w) ∧
    (u.busy = true → u.skip = 0 → s.listGap d n [u.pc] = none → ∀ w ws, s.listRead d n u.pc = some w → s.listGap d n (entryVas u.pc w) = none →
      s.listWords d n u.pc (4 * fld w 55 52) = some ws →
      (fld w 63 56 = 1 → fld w 55 52 = 4 → exec (.launch d n) s = .next (s.entryLaunch d n ws false)) ∧
      (fld w 63 56 = 2 → fld w 55 52 = 4 → exec (.launchi d n) s = .next (s.entryLaunch d n ws true)) ∧
      (fld w 55 52 = 1 → entryOk (fld w 63 56) ws = true →
        (fld w 63 56 = 3 → exec (.waitc d n) s = .next (s.entryWait d n ws) ∧
          (s.waitBlocked d n = false → exec (.waitcObserved d n) s = .next (s.entryWait d n ws))) ∧
        (fld w 63 56 = 4 →
          (fld w 51 50 = 0 → exec (.signalAdd d n) s = .next (s.entrySignal d n ws)) ∧
          (fld w 51 50 = 1 → exec (.signalSet d n) s = .next (s.entrySignal d n ws)) ∧
          (fld w 51 50 = 2 → exec (.signalTdec d n) s = .next (s.entrySignal d n ws))) ∧
        (fld w 63 56 = 5 → exec (.skipif d n) s = .next (s.entrySkip d n ws)) ∧
        (fld w 63 56 = 6 → ws.getD 1 0 % 32 = 0 → exec (.listJump d n) s = .next (s.listTo d n (ws.getD 1 0))) ∧
        (fld w 63 56 = 7 → ws.getD 1 0 % 32 = 0 → u.calls.length < 8 →
          exec (.listCall d n) s = .next ((s.listTo d n (ws.getD 1 0)).modSub d n (fun k => { k with calls := (u.pc + 32) :: u.calls }))) ∧
        (fld w 63 56 = 8 → ∀ a l, u.calls = a :: l → exec (.listRet d n) s = .next ((s.listTo d n a).modSub d n (fun u => { u with calls := l }))) ∧
        (fld w 63 56 = 8 → u.calls = [] → ∃ t, exec (.listRet d n) s = .next t ∧ (t.sub d n).busy = false ∧ (t.sub d n).done = true) ∧
        (fld w 63 56 = 9 → exec (.listLoop d n) s = .next (s.entryLoop d n ws)) ∧
        (fld w 63 56 = 10 → exec (.listXfer d n) s = .next (s.entryXfer d n ws)) ∧
        (fld w 63 56 = 11 → s.listOwed u.asid = false → exec (.listFlush d n) s = .next (s.listTo d n (u.pc + 32))) ∧
        (fld w 63 56 = 12 → s.listLaunched d n = true → s.listOwed u.asid = false → exec (.listFence d n) s = .next (s.listTo d n (u.pc + 32))))) ∧
    (∀ ws l o old c, s.listAcc d u.asid (ws.getD 1 0) = some (l, o, none) → (s.lcore l).atom o 0 64 true 0 0 = some (old, c) →
      s.entryWait d n ws = (if counterHolds (fld (ws.headD 0) 51 50) old (ws.getD 2 0) (ws.getD 3 0)
        then (s.setLcore l c).listTo d n (((s.setLcore l c).sub d n).pc + 32) else s.setLcore l c)) ∧
    (∀ ws, s.listOwed u.asid = true → s.entrySignal d n ws = s ∧ s.entryFlush d n = s) ∧
    (∀ ws, fld (ws.headD 0) 51 50 = 2 → s.listOwed u.asid = false → s.entrySignal d n ws =
      (let t := (s.decTask d (ws.getD 1 0) (ws.getD 2 0)).2
       t.listTo d n ((t.sub d n).pc + 32))) ∧
    (∀ w v k, counterHolds 0 w v k = decide (v ≤ w &&& k) ∧ counterHolds 1 w v k = (w &&& k == v) ∧ counterHolds 2 w v k = (w &&& k != v))

/-- R11, R12, R76, R83, R84, R338, R339, R466, R469, R480, R481, R486 to R488: what the firmware and a debugger do through registers, and what detected
errors do. A host's write outside the blocks that it reaches is discarded. That NMCFG takes a write while BUSY and XLINV one while GO is set is how
the model reads the manual (DEDUCED, log 48), and so is that a physical core's block names the domains of the lowest logical core that it hosts
(DEDUCED, log 34). -/
def Obligations.ManagementEvents : Prop :=
  (∀ (s : State) (d v : Nat), fld v 4 0 ≤ 16 → (∀ t ∈ (s.die d).tasks, t.2.state ≠ 2 ∧ t.2.state ≠ 3) →
    ∃ t, exec (.nmcfgWrite d v) s = .next t ∧ (t.die d).nmBusy = true ∧ (t.die d).nmNew = fld v 4 0 ∧ (t.die d).units = (s.die d).units) ∧
  (∀ (s : State) (d : Nat), (s.die d).nmBusy = true →
    ∃ t, exec (.carveoutComplete d) s = .next t ∧ (t.die d).nmBusy = false ∧ (t.die d).units = (s.die d).nmNew ∧ (t.die d).locks = [] ∧
      (∀ a, ¬ (isNear a = true ∧ a % 2 ^ 31 / 2 ^ 28 = d ∧ s.isLocal d a = true) → t.mem.mem.read a = s.mem.mem.read a)) ∧
  (∀ (s : State) (d asid va : Nat),
    (∃ t, exec (.xlinvAll d) s = .next t ∧ (t.die d).xlGo = true ∧ (t.die d).xlScope = 0 ∧ t.cores = s.cores ∧ t.clusters = s.clusters) ∧
    (∃ t, exec (.xlinvAsid d asid) s = .next t ∧ (t.die d).xlGo = true ∧ (t.die d).xlScope = 1 ∧ (t.die d).xlAsid = asid) ∧
    (∃ t, exec (.xlinvPage d asid va) s = .next t ∧ (t.die d).xlGo = true ∧ (t.die d).xlScope = 2 ∧ (t.die d).xlAsid = asid ∧ (t.die d).xlVa = va) ∧
    ((s.die d).xlGo = true →
      let out (e : TlbEnt) : Prop := e.inScope (s.die d).xlScope (s.die d).xlAsid (s.die d).xlVa = false
      ∃ t, exec (.xlinvDone d) s = .next t ∧ (t.die d).xlGo = false ∧
        (∀ p, dieOf p = d → ∀ e ∈ (t.core p).tlb, e ∈ (s.core p).tlb ∧ out e) ∧
        (∀ k, k / 4 = d → ∀ e ∈ (t.cluster k).tlb, e ∈ (s.cluster k).tlb ∧ out e)) ∧
    (∀ e : TlbEnt, e.inScope 0 asid va = true ∧ e.inScope 1 e.asid va = true ∧ e.inScope 2 e.asid (e.page * 2 ^ 16) = true) ∧
    (∀ n, s.taken = [] → ∃ t, exec (.xlresume d n) s = .next t ∧ t.mem = s.mem ∧ t.lcores = s.lcores ∧
      ∀ q ∈ (t.die d).fillQ ++ (t.die d).collQ ++ (t.die d).noteQ, dieOf q.lcore = d → q.waitx ≠ some n)) ∧
  (∀ (s : State) (p td : Nat),
    let l := s.blockCore p
    (((s.lcore l).dom td).state = 1 →
      ∃ t, exec (.accsvSave p td) s = .next t ∧ ((t.lcore l).dom td).state = 2 ∧ (t.core p).accsvGo = true ∧ (t.core p).accsvTd = td) ∧
    ((s.core p).accsvGo = true → (s.core p).accsvAct = 1 → ((s.lcore l).dom (s.core p).accsvTd).state = 2 →
      ∃ t, exec (.domainSaveDone p) s = .next t ∧ ((t.lcore l).dom (s.core p).accsvTd).state = 3 ∧ (t.core p).accsvGo = false ∧
        ∀ q ∈ (t.lcore l).parts, q.td ≠ (s.core p).accsvTd) ∧
    (((s.lcore l).dom td).state = 1 → ∃ t, exec (.accsvRestore p td) s = .next t ∧ (t.core p).accsvErr = true ∧ ((t.lcore l).dom td).state = 1) ∧
    (∀ a, a = (s.core p).accsvAddr / 2 ^ 12 * 2 ^ 12 → ((s.lcore l).dom td).state = 0 ∨ ((s.lcore l).dom td).state = 3 → (s.areaDom a).pend ≤ 48 →
      s.areaClean a = true → fld (s.readPAn a 8) 5 0 = td →
      ∃ t, exec (.accsvRestore p td) s = .next t ∧ (t.lcore l).dom td = s.areaDom a)) ∧
  (∀ (s : State) (p c : Nat),
    (∃ t, exec (.dbgStop p c) s = .next t ∧ (t.ctxAt p c).stop = true ∧ (t.ctxAt p c).stopped = true ∧ (t.ctxAt p c).arch = (s.ctxAt p c).arch ∧
      (t.ctxAt p c).image = (s.ctxAt p c).image) ∧
    (∃ t, exec (.dbgUnstop p c) s = .next t ∧ (t.ctxAt p c).stop = false ∧ (t.ctxAt p c).stopped = false ∧ (t.ctxAt p c).arch = (s.ctxAt p c).arch)) ∧
  (∀ (s : State) (d : Nat), ∃ t, exec (.dbgdataRead d) s = .next t ∧ (t.die d).dbg.offset = ((s.die d).dbg.offset + 8) % 2 ^ 40 ∧
    (∀ v, s.peek d = .val v → (t.die d).dbg.data = v ∧ (t.die d).dbg.err = (s.die d).dbg.err) ∧ (s.peek d = .undef → (t.die d).dbg.err = true)) ∧
  (∀ (s : State) (d r v : Nat), ∃ t, exec (.rbaseWrite d r v) s = .next t ∧ Tbl.get 0 (t.die d).dbg.rbase r = fld v 51 12 * 2 ^ 12 ∧
    Tbl.get 0 (t.die d).dbg.rhead r = 0 ∧ Tbl.get 0 (t.die d).dbg.rdrop r = 0) ∧
  (∀ (s : State) (d v : Nat),
    (∃ t, exec (.registerWrite (.fw d) 0x1_0020 v) s = .next t ∧ (t.die d).fqBase = fld v 51 13 * 2 ^ 13) ∧
    (∃ t, exec (.registerWrite (.fw d) 0x2_0000 v) s = .next t ∧ (t.die d).pkg = v % 2 ^ 8 ∧ (t.die d).npkgm1 = fld v 15 8) ∧
    exec (.registerWrite (.fw d) 0x2_0008 v) s = .next s ∧
    (∀ a, 64 * 32 ≤ a % 2 ^ 24 → a % 2 ^ 24 < 0x20_0000 ∨ 0x20_0020 ≤ a % 2 ^ 24 → exec (.registerWrite .host a v) s = .next s) ∧
    (∀ o, d < 8 → o < 64 * 32 → exec (.registerWrite .host (d * 2 ^ 24 + o) v) s = .next (s.writeReg d o v)) ∧
    (s.writeReg d 0x1_0020 v).readReg d 0x1_0020 = fld v 51 13 * 2 ^ 13 ∧ (s.writeReg d 0x1_0018 v).readReg d 0x1_0018 = fld v 56 16 * 2 ^ 16 ∧
    s.writeReg d 0x1_0028 v = s ∧ s.readReg d 0x1_0038 = 0 ∧ (s.readReg d 0x1_0010) % 2 ^ 49 = 0) ∧
  (∀ (s : State) (d : Nat), ∃ t, exec (.hevtPop d) s = .next t ∧ (t.die d).hevt = (s.die d).hevt.drop 1) ∧
  (∀ (s : State) (code : ErrCode) (space : ErrPlace) (unit addr : Nat),
    (∃ t, exec (.memoryError code space unit addr true) s = .next t ∧ t.mem = s.mem ∧ t.lcores = s.lcores ∧ t.cores = s.cores) ∧
    (code.code ≠ 7 → ∃ t, exec (.memoryError code .acc unit addr false) s = .next t ∧ (t.lcore unit).acc.isPois addr = true ∧
      (∀ a, a / 16 ≠ addr / 16 → (t.lcore unit).acc.isPois a = (s.lcore unit).acc.isPois a) ∧ (t.lcore unit).acc.mem = (s.lcore unit).acc.mem)) ∧
  (∀ (s : State) (d : Nat), exec (.blackboxMirror d) s = .next (s.mirror d))

/-- R464, R465, R470 to R479: what the host and the management bus do. Start-up runs step by step, each step an event of the model's own (log 36); a
command's response leaves at a later one, and the module answers a second request with completion code 4 until then. -/
def Obligations.HostEvents : Prop :=
  (∀ (s : State) (f : StartFind),
    (s.host.started = false → ∃ t, exec (.resetRelease f) s = .next t ∧ t.host.started = true ∧ t.host.booting = some f ∧ ∀ d, d < 8 → (t.die d).stage = 1) ∧
    (s.host.started = true → exec (.warmReset f) s = .next (s.warm f) ∧ (s.warm f).host.booting = some f ∧ (s.warm f).host.serial = s.host.serial ∧
      ∀ d, d < 8 → ((s.warm f).die d).stage = 2 ∧ ((s.warm f).die d).ready = false)) ∧
  (∀ (s : State) (f : StartFind) (d : Nat), s.host.booting = some f → d < 8 →
    ((s.die 0).stage = 1 → (s.bootStep.die d).stage = 2) ∧
    ((s.die 0).stage = 2 → if f.fwSigOk = true then (s.bootStep.die d).stage = 3 else (s.bootStep.die d).failed = true ∧ (s.bootStep.die d).stage = 2) ∧
    ((s.die 0).stage = 3 → if f.cfgSigOk = true
      then (s.bootStep.die d).stage = 4 ∧ (s.bootStep.die d).units = s.cfg.units ∧ (s.bootStep.die d).pkg = s.cfg.pkg
      else (s.bootStep.die d).failed = true ∧ (s.bootStep.die d).stage = 3) ∧
    ((s.die 0).stage = 4 → (s.bootStep.die d).stage = 5) ∧
    ((s.die 0).stage = 5 → f.fatalUnit = true → (s.bootStep.die d).failed = true ∧ (s.bootStep.die d).stage = 5) ∧
    ((s.die 0).stage = 5 → f.fatalUnit = false → f.failedCores = [] → f.failedGathers = [] → s.cfg.remap = [] → (s.bootStep.die d).stage = 6) ∧
    ((s.die 0).stage = 6 → if f.trainOk = true then (s.bootStep.die d).stage = 7 else (s.bootStep.die d).failed = true ∧ (s.bootStep.die d).stage = 6) ∧
    ((s.die 0).stage = 7 → (s.die d).stage = 7 → (s.die d).failed = false → s.bootStep.host.booting = none ∧ (s.bootStep.die d).noid = !f.idOk ∧
      ((s.bootStep.die d).ready = true ↔ s.host.lanes = 16))) ∧
  (∀ s : State, ∃ t, exec .powerRemoved s = .next t ∧ t.cores = [] ∧ t.lcores = [] ∧ t.launches = [] ∧ t.host.started = false ∧ t.host.serial = s.host.serial) ∧
  (∀ (s : State) (n : Nat), ∃ t, exec (.cxlLinkTrained n) s = .next t ∧ t.host.lanes = n ∧
    ∀ d, d < 8 → ((t.die d).ready = true ↔ (s.die d).stage = 7 ∧ (s.die d).failed = false ∧ s.host.booting = none ∧ n = 16)) ∧
  (∀ (s : State) (h : Nat) (b : List Nat),
    (s.isReady = false → exec (.hdmWrite h b) s = .next s) ∧
    (s.isReady = true → exec (.hdmWrite h b) s = .next (s.storePA (s.hdmBytes h b) false false))) ∧
  (∀ (s : State) (h n : Nat), ∃ t r, exec (.hdmRead h n) s = .next t ∧ t.host.reads = s.host.reads ++ [r] ∧
    (s.isReady = true → h + n ≤ s.cfg.hdmSize → r.1 = (List.range n).map (fun i => (s.readPA (s.hdmPA (h + i))).toNat)) ∧
    (s.isReady = false → r.2 = true)) ∧
  (∀ s : State, ∃ t, exec .configRequest s = .next t ∧
    t.host.cfgReplies = s.host.cfgReplies ++ [if s.isReady = true ∨ (s.die 0).failed = true then 0 else 1]) ∧
  (∀ s : State, s.listens = true →
    (s.host.pending = none →
      (∀ r : Sensors, r.req.bytes.length ≤ 4088 → ∃ t cc b, exec (.readSensors r) s = .next t ∧ t.host.pending = some (worulmon r.req.inst 1 cc b) ∧
        (if r.req.bytes = [] then cc = 0 ∧ b.length = 26 else cc = 3 ∧ b = [])) ∧
      (∀ p : Req, s.notReady = none → p.bytes.length = 2 → 1000 ≤ ofBytes p.bytes → ofBytes p.bytes ≤ 2600 → ofBytes p.bytes % 25 = 0 →
        let t := s.capDies (ofBytes p.bytes)
        exec (.setPowerCap p) s = .next { t with host := { t.host with pending := some (worulmon p.inst 2 0 []) } }) ∧
      (∀ p : Req, s.notReady = none → p.bytes.length ≤ 4088 → ofBytes p.bytes < 1000 →
        ∃ t, exec (.setPowerCap p) s = .next t ∧ t.host.pending = some (worulmon p.inst 2 3 []) ∧ t.dies = s.dies) ∧
      (∀ p : Req, p.bytes.length ≤ 4088 → (s.die 0).failed = true ∨ (s.die 0).stage ≠ 7 →
        let cc := if (s.die 0).failed = true then 6 else 5
        (∃ t, exec (.setPowerCap p) s = .next t ∧ t.host.pending = some (worulmon p.inst 2 cc []) ∧ t.dies = s.dies) ∧
        (p.mailbox = false → ∃ t, exec (.attest p) s = .next t ∧ t.host.pending = some (worulmon p.inst 3 cc []))) ∧
      (∀ p : Req, p.mailbox = false → s.notReady = none → p.bytes.length = 32 → (s.die 0).noid = false →
        ∃ t b, exec (.attest p) s = .next t ∧ t.host.pending = some (worulmon p.inst 3 0 b) ∧ b.take 32 = p.bytes ∧ b.length = 144 + 2420) ∧
      (∀ p : Req, p.bytes.length ≤ 4088 → p.bytes.length ≠ 6 →
        ∃ t, exec (.readIdentity p) s = .next t ∧ t.host.pending = some (worulmon p.inst 4 3 [])) ∧
      (∀ p : Req, p.bytes.length = 6 → ofBytes (p.bytes.drop 4) ≤ 1024 → ofBytes (p.bytes.take 4) ≤ Config.certificate.length →
        ∃ t b, exec (.readIdentity p) s = .next t ∧ t.host.pending = some (worulmon p.inst 4 0 b) ∧ b.take 8 = bytesOf 8 s.host.ident ∧
          (b.drop 8).take 8 = bytesOf 8 s.host.serial ∧
          b.length = 20 + Nat.min (ofBytes (p.bytes.drop 4)) (Config.certificate.length - ofBytes (p.bytes.take 4))) ∧
      (∀ (p : Req) (f : StartFind), p.bytes = [0xA5] →
        ∃ t : State, exec (.worulmonWarmReset p f) s = .next (t.warm f) ∧ t.host.responses = s.host.responses ++ [worulmon p.inst 5 0 []]) ∧
      (∀ m : List Nat, bit (m.getD 5 0) 7 = true → badRequest m = true → m.length ≤ 4096 →
        ∃ t, exec (.unknownCommand m) s = .next t ∧ t.host.pending = some (worulmon (m.getD 5 0) (m.getD 6 0) 1 []))) ∧
    (∀ r, s.host.pending = some r →
      (∀ p : Req, p.bytes.length ≤ 4088 → exec (.readIdentity p) s = .next (s.respond (worulmon p.inst 4 4 []))) ∧
      s.sendPending.host.pending = none ∧ s.sendPending.host.responses = s.host.responses ++ [r]) ∧
    (∀ p : Req, 4088 < p.bytes.length → exec (.readIdentity p) s = .next s) ∧
    (∀ n, ∃ t, exec (.setEndpointId n) s = .next t ∧ t.host.eid = n % 256 ∧ t.host.responses = s.host.responses ++ [[0, 1, 0, n % 256]]) ∧
    (∃ t, exec .getEndpointId s = .next t ∧ t.host.responses = s.host.responses ++ [[0, 2, 0, s.host.eid]]) ∧
    (∃ t, exec .getMctpVersionSupport s = .next t ∧ t.host.responses = s.host.responses ++ [[0, 4, 0]]) ∧
    (∃ t, exec .getMessageTypeSupport s = .next t ∧ t.host.responses = s.host.responses ++ [[0, 5, 0, 2, 0x00, 0x7F]]) ∧
    (∃ t, exec .getVendorDefinedMessageSupport s = .next t ∧ t.host.responses = s.host.responses ++ [[0, 6, 0, 1, 0, 1, 0x2F, 0x7B]])) ∧
  (∀ (s : State) (p : Req), p.mailbox = true → s.notReady = none → p.bytes.length = 32 → (s.die 0).noid = false →
    ∃ t b, exec (.attest p) s = .next t ∧ t.host.mailbox = s.host.mailbox ++ [0 :: b] ∧ b.take 32 = p.bytes ∧ b.length = 144 + 2420 ∧ 520 ∈ t.host.msix) ∧
  (∀ (s : State) (k : Nat), exec (.mctpOtherType k) s = .next s)

/-! ### Invariants and reset -/

/-- R10: every step keeps every memory in canonical form: addresses strictly rising, and no entry equal to what an unlisted byte reads as. -/
def Obligations.MemoryStaysCanonical : Prop := Kept (fun s => s.memOk = true)

/-- R96, R123, R197, R213, R216, R291, R470: after reset no core runs, nothing is listed in memory, the canonical form holds, and the registers of every
context, visible and in its image, have the values that the manual gives: ROUND, LATEWIN, GLAT and WIN, and 0x7F in every byte of every scale latch.
What the manual gives no value is the model's choice: registers are 0 (log 1), and a byte of memory that nothing has written reads as 0 (log 2). -/
def Obligations.ResetState : Prop :=
  State.reset.memOk = true ∧ State.reset.mem.mem = [] ∧ (∀ pa, (State.reset.readPA pa).toNat = 0) ∧ State.reset.agenda = [] ∧ State.reset.order = [] ∧
  (∀ p c, (State.reset.ctxAt p c).task = none) ∧ (∀ id, (State.reset.task id).state = 0) ∧ State.reset.host.started = false ∧
  (∀ d, (State.reset.die d).ready = false ∧ (State.reset.die d).stage = 0) ∧ (∀ pa, (State.reset.region pa).st = 0) ∧
  (∀ p c, ∀ a ∈ [(State.reset.ctxAt p c).arch, (State.reset.ctxAt p c).image],
    (∀ r, a.getX r = 0) ∧ (∀ r, r ≠ 0 → a.getP r = 0) ∧ a.getP 0 = BitVec.allOnes 256 ∧ (∀ r, Tbl.get 0 a.vst r = 0) ∧
    a.getSr 0x005 = 0x8888_8888_8888_8888 ∧ a.getSr 0x008 = 4096 * 2 ^ 16 + 256 ∧ a.getSr 0x009 = 4096 ∧ a.getSr 0x00A = 65536 ∧
    (∀ n, n ≠ 0x005 → n ≠ 0x008 → n ≠ 0x009 → n ≠ 0x00A → a.getSr n = 0) ∧ (∀ n, Tbl.get 0 a.tiles n = 0) ∧
    (∀ i j, j < 256 → el 8 (Tbl.get latchReset a.latches i) j = 0x7F) ∧
    a.loops = [] ∧ a.streams = [] ∧ a.images = [] ∧ a.recipes = [] ∧ a.inflight = [] ∧ a.loads = [])
end

