-- ==== Sys2Proof/Laws/State.lean ====
section
/-! SUPPORT. What each update of the state leaves alone, field by field. -/

namespace Sys2Proof.Machine

/-! ### State.setCore -/

@[simp] theorem State.setCore_agenda (s : State) (p : Nat) (c : PCore) : (s.setCore p c).agenda = s.agenda := rfl
@[simp] theorem State.setCore_order (s : State) (p : Nat) (c : PCore) : (s.setCore p c).order = s.order := rfl
@[simp] theorem State.setCore_turn (s : State) (p : Nat) (c : PCore) : (s.setCore p c).turn = s.turn := rfl
@[simp] theorem State.setCore_nextKind (s : State) (p : Nat) (c : PCore) : (s.setCore p c).nextKind = s.nextKind := rfl
@[simp] theorem State.setCore_lastList (s : State) (p : Nat) (c : PCore) : (s.setCore p c).lastList = s.lastList := rfl
@[simp] theorem State.setCore_cur (s : State) (p : Nat) (c : PCore) : (s.setCore p c).cur = s.cur := rfl
@[simp] theorem State.setCore_ctx (s : State) (p : Nat) (c : PCore) : (s.setCore p c).ctx = s.ctx := rfl
@[simp] theorem State.setCore_slot (s : State) (p : Nat) (c : PCore) : (s.setCore p c).slot = s.slot := rfl
@[simp] theorem State.setCore_bun (s : State) (p : Nat) (c : PCore) : (s.setCore p c).bun = s.bun := rfl
@[simp] theorem State.setCore_kept (s : State) (p : Nat) (c : PCore) : (s.setCore p c).kept = s.kept := rfl
@[simp] theorem State.setCore_late (s : State) (p : Nat) (c : PCore) : (s.setCore p c).late = s.late := rfl
@[simp] theorem State.setCore_free (s : State) (p : Nat) (c : PCore) : (s.setCore p c).free = s.free := rfl
@[simp] theorem State.setCore_fresh (s : State) (p : Nat) (c : PCore) : (s.setCore p c).fresh = s.fresh := rfl
@[simp] theorem State.setCore_lcores (s : State) (p : Nat) (c : PCore) : (s.setCore p c).lcores = s.lcores := rfl
@[simp] theorem State.setCore_clusters (s : State) (p : Nat) (c : PCore) : (s.setCore p c).clusters = s.clusters := rfl
@[simp] theorem State.setCore_dies (s : State) (p : Nat) (c : PCore) : (s.setCore p c).dies = s.dies := rfl
@[simp] theorem State.setCore_mem (s : State) (p : Nat) (c : PCore) : (s.setCore p c).mem = s.mem := rfl
@[simp] theorem State.setCore_memGen (s : State) (p : Nat) (c : PCore) : (s.setCore p c).memGen = s.memGen := rfl
@[simp] theorem State.setCore_nearGen (s : State) (p : Nat) (c : PCore) : (s.setCore p c).nearGen = s.nearGen := rfl
@[simp] theorem State.setCore_rlines (s : State) (p : Nat) (c : PCore) : (s.setCore p c).rlines = s.rlines := rfl
@[simp] theorem State.setCore_regions (s : State) (p : Nat) (c : PCore) : (s.setCore p c).regions = s.regions := rfl
@[simp] theorem State.setCore_parts (s : State) (p : Nat) (c : PCore) : (s.setCore p c).parts = s.parts := rfl
@[simp] theorem State.setCore_fabric (s : State) (p : Nat) (c : PCore) : (s.setCore p c).fabric = s.fabric := rfl
@[simp] theorem State.setCore_launches (s : State) (p : Nat) (c : PCore) : (s.setCore p c).launches = s.launches := rfl
@[simp] theorem State.setCore_saved (s : State) (p : Nat) (c : PCore) : (s.setCore p c).saved = s.saved := rfl
@[simp] theorem State.setCore_savedH (s : State) (p : Nat) (c : PCore) : (s.setCore p c).savedH = s.savedH := rfl
@[simp] theorem State.setCore_got (s : State) (p : Nat) (c : PCore) : (s.setCore p c).got = s.got := rfl
@[simp] theorem State.setCore_station (s : State) (p : Nat) (c : PCore) : (s.setCore p c).station = s.station := rfl
@[simp] theorem State.setCore_away (s : State) (p : Nat) (c : PCore) : (s.setCore p c).away = s.away := rfl
@[simp] theorem State.setCore_shadow (s : State) (p : Nat) (c : PCore) : (s.setCore p c).shadow = s.shadow := rfl
@[simp] theorem State.setCore_lot (s : State) (p : Nat) (c : PCore) : (s.setCore p c).lot = s.lot := rfl
@[simp] theorem State.setCore_rows (s : State) (p : Nat) (c : PCore) : (s.setCore p c).rows = s.rows := rfl
@[simp] theorem State.setCore_cmds (s : State) (p : Nat) (c : PCore) : (s.setCore p c).cmds = s.cmds := rfl
@[simp] theorem State.setCore_cfg (s : State) (p : Nat) (c : PCore) : (s.setCore p c).cfg = s.cfg := rfl
@[simp] theorem State.setCore_host (s : State) (p : Nat) (c : PCore) : (s.setCore p c).host = s.host := rfl

/-! ### State.modCore -/

@[simp] theorem State.modCore_agenda (s : State) (p : Nat) (f : PCore → PCore) : (s.modCore p f).agenda = s.agenda := rfl
@[simp] theorem State.modCore_order (s : State) (p : Nat) (f : PCore → PCore) : (s.modCore p f).order = s.order := rfl
@[simp] theorem State.modCore_turn (s : State) (p : Nat) (f : PCore → PCore) : (s.modCore p f).turn = s.turn := rfl
@[simp] theorem State.modCore_nextKind (s : State) (p : Nat) (f : PCore → PCore) : (s.modCore p f).nextKind = s.nextKind := rfl
@[simp] theorem State.modCore_lastList (s : State) (p : Nat) (f : PCore → PCore) : (s.modCore p f).lastList = s.lastList := rfl
@[simp] theorem State.modCore_cur (s : State) (p : Nat) (f : PCore → PCore) : (s.modCore p f).cur = s.cur := rfl
@[simp] theorem State.modCore_ctx (s : State) (p : Nat) (f : PCore → PCore) : (s.modCore p f).ctx = s.ctx := rfl
@[simp] theorem State.modCore_slot (s : State) (p : Nat) (f : PCore → PCore) : (s.modCore p f).slot = s.slot := rfl
@[simp] theorem State.modCore_bun (s : State) (p : Nat) (f : PCore → PCore) : (s.modCore p f).bun = s.bun := rfl
@[simp] theorem State.modCore_kept (s : State) (p : Nat) (f : PCore → PCore) : (s.modCore p f).kept = s.kept := rfl
@[simp] theorem State.modCore_late (s : State) (p : Nat) (f : PCore → PCore) : (s.modCore p f).late = s.late := rfl
@[simp] theorem State.modCore_free (s : State) (p : Nat) (f : PCore → PCore) : (s.modCore p f).free = s.free := rfl
@[simp] theorem State.modCore_fresh (s : State) (p : Nat) (f : PCore → PCore) : (s.modCore p f).fresh = s.fresh := rfl
@[simp] theorem State.modCore_lcores (s : State) (p : Nat) (f : PCore → PCore) : (s.modCore p f).lcores = s.lcores := rfl
@[simp] theorem State.modCore_clusters (s : State) (p : Nat) (f : PCore → PCore) : (s.modCore p f).clusters = s.clusters := rfl
@[simp] theorem State.modCore_dies (s : State) (p : Nat) (f : PCore → PCore) : (s.modCore p f).dies = s.dies := rfl
@[simp] theorem State.modCore_mem (s : State) (p : Nat) (f : PCore → PCore) : (s.modCore p f).mem = s.mem := rfl
@[simp] theorem State.modCore_memGen (s : State) (p : Nat) (f : PCore → PCore) : (s.modCore p f).memGen = s.memGen := rfl
@[simp] theorem State.modCore_nearGen (s : State) (p : Nat) (f : PCore → PCore) : (s.modCore p f).nearGen = s.nearGen := rfl
@[simp] theorem State.modCore_rlines (s : State) (p : Nat) (f : PCore → PCore) : (s.modCore p f).rlines = s.rlines := rfl
@[simp] theorem State.modCore_regions (s : State) (p : Nat) (f : PCore → PCore) : (s.modCore p f).regions = s.regions := rfl
@[simp] theorem State.modCore_parts (s : State) (p : Nat) (f : PCore → PCore) : (s.modCore p f).parts = s.parts := rfl
@[simp] theorem State.modCore_fabric (s : State) (p : Nat) (f : PCore → PCore) : (s.modCore p f).fabric = s.fabric := rfl
@[simp] theorem State.modCore_launches (s : State) (p : Nat) (f : PCore → PCore) : (s.modCore p f).launches = s.launches := rfl
@[simp] theorem State.modCore_saved (s : State) (p : Nat) (f : PCore → PCore) : (s.modCore p f).saved = s.saved := rfl
@[simp] theorem State.modCore_savedH (s : State) (p : Nat) (f : PCore → PCore) : (s.modCore p f).savedH = s.savedH := rfl
@[simp] theorem State.modCore_got (s : State) (p : Nat) (f : PCore → PCore) : (s.modCore p f).got = s.got := rfl
@[simp] theorem State.modCore_station (s : State) (p : Nat) (f : PCore → PCore) : (s.modCore p f).station = s.station := rfl
@[simp] theorem State.modCore_away (s : State) (p : Nat) (f : PCore → PCore) : (s.modCore p f).away = s.away := rfl
@[simp] theorem State.modCore_shadow (s : State) (p : Nat) (f : PCore → PCore) : (s.modCore p f).shadow = s.shadow := rfl
@[simp] theorem State.modCore_lot (s : State) (p : Nat) (f : PCore → PCore) : (s.modCore p f).lot = s.lot := rfl
@[simp] theorem State.modCore_rows (s : State) (p : Nat) (f : PCore → PCore) : (s.modCore p f).rows = s.rows := rfl
@[simp] theorem State.modCore_cmds (s : State) (p : Nat) (f : PCore → PCore) : (s.modCore p f).cmds = s.cmds := rfl
@[simp] theorem State.modCore_cfg (s : State) (p : Nat) (f : PCore → PCore) : (s.modCore p f).cfg = s.cfg := rfl
@[simp] theorem State.modCore_host (s : State) (p : Nat) (f : PCore → PCore) : (s.modCore p f).host = s.host := rfl

/-! ### State.setCtxAt -/

@[simp] theorem State.setCtxAt_agenda (s : State) (p c : Nat) (k : Ctx) : (s.setCtxAt p c k).agenda = s.agenda := rfl
@[simp] theorem State.setCtxAt_order (s : State) (p c : Nat) (k : Ctx) : (s.setCtxAt p c k).order = s.order := rfl
@[simp] theorem State.setCtxAt_turn (s : State) (p c : Nat) (k : Ctx) : (s.setCtxAt p c k).turn = s.turn := rfl
@[simp] theorem State.setCtxAt_nextKind (s : State) (p c : Nat) (k : Ctx) : (s.setCtxAt p c k).nextKind = s.nextKind := rfl
@[simp] theorem State.setCtxAt_lastList (s : State) (p c : Nat) (k : Ctx) : (s.setCtxAt p c k).lastList = s.lastList := rfl
@[simp] theorem State.setCtxAt_cur (s : State) (p c : Nat) (k : Ctx) : (s.setCtxAt p c k).cur = s.cur := rfl
@[simp] theorem State.setCtxAt_ctx (s : State) (p c : Nat) (k : Ctx) : (s.setCtxAt p c k).ctx = s.ctx := rfl
@[simp] theorem State.setCtxAt_slot (s : State) (p c : Nat) (k : Ctx) : (s.setCtxAt p c k).slot = s.slot := rfl
@[simp] theorem State.setCtxAt_bun (s : State) (p c : Nat) (k : Ctx) : (s.setCtxAt p c k).bun = s.bun := rfl
@[simp] theorem State.setCtxAt_kept (s : State) (p c : Nat) (k : Ctx) : (s.setCtxAt p c k).kept = s.kept := rfl
@[simp] theorem State.setCtxAt_late (s : State) (p c : Nat) (k : Ctx) : (s.setCtxAt p c k).late = s.late := rfl
@[simp] theorem State.setCtxAt_free (s : State) (p c : Nat) (k : Ctx) : (s.setCtxAt p c k).free = s.free := rfl
@[simp] theorem State.setCtxAt_fresh (s : State) (p c : Nat) (k : Ctx) : (s.setCtxAt p c k).fresh = s.fresh := rfl
@[simp] theorem State.setCtxAt_lcores (s : State) (p c : Nat) (k : Ctx) : (s.setCtxAt p c k).lcores = s.lcores := rfl
@[simp] theorem State.setCtxAt_clusters (s : State) (p c : Nat) (k : Ctx) : (s.setCtxAt p c k).clusters = s.clusters := rfl
@[simp] theorem State.setCtxAt_dies (s : State) (p c : Nat) (k : Ctx) : (s.setCtxAt p c k).dies = s.dies := rfl
@[simp] theorem State.setCtxAt_mem (s : State) (p c : Nat) (k : Ctx) : (s.setCtxAt p c k).mem = s.mem := rfl
@[simp] theorem State.setCtxAt_memGen (s : State) (p c : Nat) (k : Ctx) : (s.setCtxAt p c k).memGen = s.memGen := rfl
@[simp] theorem State.setCtxAt_nearGen (s : State) (p c : Nat) (k : Ctx) : (s.setCtxAt p c k).nearGen = s.nearGen := rfl
@[simp] theorem State.setCtxAt_rlines (s : State) (p c : Nat) (k : Ctx) : (s.setCtxAt p c k).rlines = s.rlines := rfl
@[simp] theorem State.setCtxAt_regions (s : State) (p c : Nat) (k : Ctx) : (s.setCtxAt p c k).regions = s.regions := rfl
@[simp] theorem State.setCtxAt_parts (s : State) (p c : Nat) (k : Ctx) : (s.setCtxAt p c k).parts = s.parts := rfl
@[simp] theorem State.setCtxAt_fabric (s : State) (p c : Nat) (k : Ctx) : (s.setCtxAt p c k).fabric = s.fabric := rfl
@[simp] theorem State.setCtxAt_launches (s : State) (p c : Nat) (k : Ctx) : (s.setCtxAt p c k).launches = s.launches := rfl
@[simp] theorem State.setCtxAt_saved (s : State) (p c : Nat) (k : Ctx) : (s.setCtxAt p c k).saved = s.saved := rfl
@[simp] theorem State.setCtxAt_savedH (s : State) (p c : Nat) (k : Ctx) : (s.setCtxAt p c k).savedH = s.savedH := rfl
@[simp] theorem State.setCtxAt_got (s : State) (p c : Nat) (k : Ctx) : (s.setCtxAt p c k).got = s.got := rfl
@[simp] theorem State.setCtxAt_station (s : State) (p c : Nat) (k : Ctx) : (s.setCtxAt p c k).station = s.station := rfl
@[simp] theorem State.setCtxAt_away (s : State) (p c : Nat) (k : Ctx) : (s.setCtxAt p c k).away = s.away := rfl
@[simp] theorem State.setCtxAt_shadow (s : State) (p c : Nat) (k : Ctx) : (s.setCtxAt p c k).shadow = s.shadow := rfl
@[simp] theorem State.setCtxAt_lot (s : State) (p c : Nat) (k : Ctx) : (s.setCtxAt p c k).lot = s.lot := rfl
@[simp] theorem State.setCtxAt_rows (s : State) (p c : Nat) (k : Ctx) : (s.setCtxAt p c k).rows = s.rows := rfl
@[simp] theorem State.setCtxAt_cmds (s : State) (p c : Nat) (k : Ctx) : (s.setCtxAt p c k).cmds = s.cmds := rfl
@[simp] theorem State.setCtxAt_cfg (s : State) (p c : Nat) (k : Ctx) : (s.setCtxAt p c k).cfg = s.cfg := rfl
@[simp] theorem State.setCtxAt_host (s : State) (p c : Nat) (k : Ctx) : (s.setCtxAt p c k).host = s.host := rfl

/-! ### State.modCtxAt -/

@[simp] theorem State.modCtxAt_agenda (s : State) (p c : Nat) (f : Ctx → Ctx) : (s.modCtxAt p c f).agenda = s.agenda := rfl
@[simp] theorem State.modCtxAt_order (s : State) (p c : Nat) (f : Ctx → Ctx) : (s.modCtxAt p c f).order = s.order := rfl
@[simp] theorem State.modCtxAt_turn (s : State) (p c : Nat) (f : Ctx → Ctx) : (s.modCtxAt p c f).turn = s.turn := rfl
@[simp] theorem State.modCtxAt_nextKind (s : State) (p c : Nat) (f : Ctx → Ctx) : (s.modCtxAt p c f).nextKind = s.nextKind := rfl
@[simp] theorem State.modCtxAt_lastList (s : State) (p c : Nat) (f : Ctx → Ctx) : (s.modCtxAt p c f).lastList = s.lastList := rfl
@[simp] theorem State.modCtxAt_cur (s : State) (p c : Nat) (f : Ctx → Ctx) : (s.modCtxAt p c f).cur = s.cur := rfl
@[simp] theorem State.modCtxAt_ctx (s : State) (p c : Nat) (f : Ctx → Ctx) : (s.modCtxAt p c f).ctx = s.ctx := rfl
@[simp] theorem State.modCtxAt_slot (s : State) (p c : Nat) (f : Ctx → Ctx) : (s.modCtxAt p c f).slot = s.slot := rfl
@[simp] theorem State.modCtxAt_bun (s : State) (p c : Nat) (f : Ctx → Ctx) : (s.modCtxAt p c f).bun = s.bun := rfl
@[simp] theorem State.modCtxAt_kept (s : State) (p c : Nat) (f : Ctx → Ctx) : (s.modCtxAt p c f).kept = s.kept := rfl
@[simp] theorem State.modCtxAt_late (s : State) (p c : Nat) (f : Ctx → Ctx) : (s.modCtxAt p c f).late = s.late := rfl
@[simp] theorem State.modCtxAt_free (s : State) (p c : Nat) (f : Ctx → Ctx) : (s.modCtxAt p c f).free = s.free := rfl
@[simp] theorem State.modCtxAt_fresh (s : State) (p c : Nat) (f : Ctx → Ctx) : (s.modCtxAt p c f).fresh = s.fresh := rfl
@[simp] theorem State.modCtxAt_lcores (s : State) (p c : Nat) (f : Ctx → Ctx) : (s.modCtxAt p c f).lcores = s.lcores := rfl
@[simp] theorem State.modCtxAt_clusters (s : State) (p c : Nat) (f : Ctx → Ctx) : (s.modCtxAt p c f).clusters = s.clusters := rfl
@[simp] theorem State.modCtxAt_dies (s : State) (p c : Nat) (f : Ctx → Ctx) : (s.modCtxAt p c f).dies = s.dies := rfl
@[simp] theorem State.modCtxAt_mem (s : State) (p c : Nat) (f : Ctx → Ctx) : (s.modCtxAt p c f).mem = s.mem := rfl
@[simp] theorem State.modCtxAt_memGen (s : State) (p c : Nat) (f : Ctx → Ctx) : (s.modCtxAt p c f).memGen = s.memGen := rfl
@[simp] theorem State.modCtxAt_nearGen (s : State) (p c : Nat) (f : Ctx → Ctx) : (s.modCtxAt p c f).nearGen = s.nearGen := rfl
@[simp] theorem State.modCtxAt_rlines (s : State) (p c : Nat) (f : Ctx → Ctx) : (s.modCtxAt p c f).rlines = s.rlines := rfl
@[simp] theorem State.modCtxAt_regions (s : State) (p c : Nat) (f : Ctx → Ctx) : (s.modCtxAt p c f).regions = s.regions := rfl
@[simp] theorem State.modCtxAt_parts (s : State) (p c : Nat) (f : Ctx → Ctx) : (s.modCtxAt p c f).parts = s.parts := rfl
@[simp] theorem State.modCtxAt_fabric (s : State) (p c : Nat) (f : Ctx → Ctx) : (s.modCtxAt p c f).fabric = s.fabric := rfl
@[simp] theorem State.modCtxAt_launches (s : State) (p c : Nat) (f : Ctx → Ctx) : (s.modCtxAt p c f).launches = s.launches := rfl
@[simp] theorem State.modCtxAt_saved (s : State) (p c : Nat) (f : Ctx → Ctx) : (s.modCtxAt p c f).saved = s.saved := rfl
@[simp] theorem State.modCtxAt_savedH (s : State) (p c : Nat) (f : Ctx → Ctx) : (s.modCtxAt p c f).savedH = s.savedH := rfl
@[simp] theorem State.modCtxAt_got (s : State) (p c : Nat) (f : Ctx → Ctx) : (s.modCtxAt p c f).got = s.got := rfl
@[simp] theorem State.modCtxAt_station (s : State) (p c : Nat) (f : Ctx → Ctx) : (s.modCtxAt p c f).station = s.station := rfl
@[simp] theorem State.modCtxAt_away (s : State) (p c : Nat) (f : Ctx → Ctx) : (s.modCtxAt p c f).away = s.away := rfl
@[simp] theorem State.modCtxAt_shadow (s : State) (p c : Nat) (f : Ctx → Ctx) : (s.modCtxAt p c f).shadow = s.shadow := rfl
@[simp] theorem State.modCtxAt_lot (s : State) (p c : Nat) (f : Ctx → Ctx) : (s.modCtxAt p c f).lot = s.lot := rfl
@[simp] theorem State.modCtxAt_rows (s : State) (p c : Nat) (f : Ctx → Ctx) : (s.modCtxAt p c f).rows = s.rows := rfl
@[simp] theorem State.modCtxAt_cmds (s : State) (p c : Nat) (f : Ctx → Ctx) : (s.modCtxAt p c f).cmds = s.cmds := rfl
@[simp] theorem State.modCtxAt_cfg (s : State) (p c : Nat) (f : Ctx → Ctx) : (s.modCtxAt p c f).cfg = s.cfg := rfl
@[simp] theorem State.modCtxAt_host (s : State) (p c : Nat) (f : Ctx → Ctx) : (s.modCtxAt p c f).host = s.host := rfl

/-! ### State.setCx -/

@[simp] theorem State.setCx_agenda (s : State) (k : Ctx) : (s.setCx k).agenda = s.agenda := rfl
@[simp] theorem State.setCx_order (s : State) (k : Ctx) : (s.setCx k).order = s.order := rfl
@[simp] theorem State.setCx_turn (s : State) (k : Ctx) : (s.setCx k).turn = s.turn := rfl
@[simp] theorem State.setCx_nextKind (s : State) (k : Ctx) : (s.setCx k).nextKind = s.nextKind := rfl
@[simp] theorem State.setCx_lastList (s : State) (k : Ctx) : (s.setCx k).lastList = s.lastList := rfl
@[simp] theorem State.setCx_cur (s : State) (k : Ctx) : (s.setCx k).cur = s.cur := rfl
@[simp] theorem State.setCx_ctx (s : State) (k : Ctx) : (s.setCx k).ctx = s.ctx := rfl
@[simp] theorem State.setCx_slot (s : State) (k : Ctx) : (s.setCx k).slot = s.slot := rfl
@[simp] theorem State.setCx_bun (s : State) (k : Ctx) : (s.setCx k).bun = s.bun := rfl
@[simp] theorem State.setCx_kept (s : State) (k : Ctx) : (s.setCx k).kept = s.kept := rfl
@[simp] theorem State.setCx_late (s : State) (k : Ctx) : (s.setCx k).late = s.late := rfl
@[simp] theorem State.setCx_free (s : State) (k : Ctx) : (s.setCx k).free = s.free := rfl
@[simp] theorem State.setCx_fresh (s : State) (k : Ctx) : (s.setCx k).fresh = s.fresh := rfl
@[simp] theorem State.setCx_lcores (s : State) (k : Ctx) : (s.setCx k).lcores = s.lcores := rfl
@[simp] theorem State.setCx_clusters (s : State) (k : Ctx) : (s.setCx k).clusters = s.clusters := rfl
@[simp] theorem State.setCx_dies (s : State) (k : Ctx) : (s.setCx k).dies = s.dies := rfl
@[simp] theorem State.setCx_mem (s : State) (k : Ctx) : (s.setCx k).mem = s.mem := rfl
@[simp] theorem State.setCx_memGen (s : State) (k : Ctx) : (s.setCx k).memGen = s.memGen := rfl
@[simp] theorem State.setCx_nearGen (s : State) (k : Ctx) : (s.setCx k).nearGen = s.nearGen := rfl
@[simp] theorem State.setCx_rlines (s : State) (k : Ctx) : (s.setCx k).rlines = s.rlines := rfl
@[simp] theorem State.setCx_regions (s : State) (k : Ctx) : (s.setCx k).regions = s.regions := rfl
@[simp] theorem State.setCx_parts (s : State) (k : Ctx) : (s.setCx k).parts = s.parts := rfl
@[simp] theorem State.setCx_fabric (s : State) (k : Ctx) : (s.setCx k).fabric = s.fabric := rfl
@[simp] theorem State.setCx_launches (s : State) (k : Ctx) : (s.setCx k).launches = s.launches := rfl
@[simp] theorem State.setCx_saved (s : State) (k : Ctx) : (s.setCx k).saved = s.saved := rfl
@[simp] theorem State.setCx_savedH (s : State) (k : Ctx) : (s.setCx k).savedH = s.savedH := rfl
@[simp] theorem State.setCx_got (s : State) (k : Ctx) : (s.setCx k).got = s.got := rfl
@[simp] theorem State.setCx_station (s : State) (k : Ctx) : (s.setCx k).station = s.station := rfl
@[simp] theorem State.setCx_away (s : State) (k : Ctx) : (s.setCx k).away = s.away := rfl
@[simp] theorem State.setCx_shadow (s : State) (k : Ctx) : (s.setCx k).shadow = s.shadow := rfl
@[simp] theorem State.setCx_lot (s : State) (k : Ctx) : (s.setCx k).lot = s.lot := rfl
@[simp] theorem State.setCx_rows (s : State) (k : Ctx) : (s.setCx k).rows = s.rows := rfl
@[simp] theorem State.setCx_cmds (s : State) (k : Ctx) : (s.setCx k).cmds = s.cmds := rfl
@[simp] theorem State.setCx_cfg (s : State) (k : Ctx) : (s.setCx k).cfg = s.cfg := rfl
@[simp] theorem State.setCx_host (s : State) (k : Ctx) : (s.setCx k).host = s.host := rfl

/-! ### State.modCx -/

@[simp] theorem State.modCx_agenda (s : State) (f : Ctx → Ctx) : (s.modCx f).agenda = s.agenda := rfl
@[simp] theorem State.modCx_order (s : State) (f : Ctx → Ctx) : (s.modCx f).order = s.order := rfl
@[simp] theorem State.modCx_turn (s : State) (f : Ctx → Ctx) : (s.modCx f).turn = s.turn := rfl
@[simp] theorem State.modCx_nextKind (s : State) (f : Ctx → Ctx) : (s.modCx f).nextKind = s.nextKind := rfl
@[simp] theorem State.modCx_lastList (s : State) (f : Ctx → Ctx) : (s.modCx f).lastList = s.lastList := rfl
@[simp] theorem State.modCx_cur (s : State) (f : Ctx → Ctx) : (s.modCx f).cur = s.cur := rfl
@[simp] theorem State.modCx_ctx (s : State) (f : Ctx → Ctx) : (s.modCx f).ctx = s.ctx := rfl
@[simp] theorem State.modCx_slot (s : State) (f : Ctx → Ctx) : (s.modCx f).slot = s.slot := rfl
@[simp] theorem State.modCx_bun (s : State) (f : Ctx → Ctx) : (s.modCx f).bun = s.bun := rfl
@[simp] theorem State.modCx_kept (s : State) (f : Ctx → Ctx) : (s.modCx f).kept = s.kept := rfl
@[simp] theorem State.modCx_late (s : State) (f : Ctx → Ctx) : (s.modCx f).late = s.late := rfl
@[simp] theorem State.modCx_free (s : State) (f : Ctx → Ctx) : (s.modCx f).free = s.free := rfl
@[simp] theorem State.modCx_fresh (s : State) (f : Ctx → Ctx) : (s.modCx f).fresh = s.fresh := rfl
@[simp] theorem State.modCx_lcores (s : State) (f : Ctx → Ctx) : (s.modCx f).lcores = s.lcores := rfl
@[simp] theorem State.modCx_clusters (s : State) (f : Ctx → Ctx) : (s.modCx f).clusters = s.clusters := rfl
@[simp] theorem State.modCx_dies (s : State) (f : Ctx → Ctx) : (s.modCx f).dies = s.dies := rfl
@[simp] theorem State.modCx_mem (s : State) (f : Ctx → Ctx) : (s.modCx f).mem = s.mem := rfl
@[simp] theorem State.modCx_memGen (s : State) (f : Ctx → Ctx) : (s.modCx f).memGen = s.memGen := rfl
@[simp] theorem State.modCx_nearGen (s : State) (f : Ctx → Ctx) : (s.modCx f).nearGen = s.nearGen := rfl
@[simp] theorem State.modCx_rlines (s : State) (f : Ctx → Ctx) : (s.modCx f).rlines = s.rlines := rfl
@[simp] theorem State.modCx_regions (s : State) (f : Ctx → Ctx) : (s.modCx f).regions = s.regions := rfl
@[simp] theorem State.modCx_parts (s : State) (f : Ctx → Ctx) : (s.modCx f).parts = s.parts := rfl
@[simp] theorem State.modCx_fabric (s : State) (f : Ctx → Ctx) : (s.modCx f).fabric = s.fabric := rfl
@[simp] theorem State.modCx_launches (s : State) (f : Ctx → Ctx) : (s.modCx f).launches = s.launches := rfl
@[simp] theorem State.modCx_saved (s : State) (f : Ctx → Ctx) : (s.modCx f).saved = s.saved := rfl
@[simp] theorem State.modCx_savedH (s : State) (f : Ctx → Ctx) : (s.modCx f).savedH = s.savedH := rfl
@[simp] theorem State.modCx_got (s : State) (f : Ctx → Ctx) : (s.modCx f).got = s.got := rfl
@[simp] theorem State.modCx_station (s : State) (f : Ctx → Ctx) : (s.modCx f).station = s.station := rfl
@[simp] theorem State.modCx_away (s : State) (f : Ctx → Ctx) : (s.modCx f).away = s.away := rfl
@[simp] theorem State.modCx_shadow (s : State) (f : Ctx → Ctx) : (s.modCx f).shadow = s.shadow := rfl
@[simp] theorem State.modCx_lot (s : State) (f : Ctx → Ctx) : (s.modCx f).lot = s.lot := rfl
@[simp] theorem State.modCx_rows (s : State) (f : Ctx → Ctx) : (s.modCx f).rows = s.rows := rfl
@[simp] theorem State.modCx_cmds (s : State) (f : Ctx → Ctx) : (s.modCx f).cmds = s.cmds := rfl
@[simp] theorem State.modCx_cfg (s : State) (f : Ctx → Ctx) : (s.modCx f).cfg = s.cfg := rfl
@[simp] theorem State.modCx_host (s : State) (f : Ctx → Ctx) : (s.modCx f).host = s.host := rfl

/-! ### State.setAr -/

@[simp] theorem State.setAr_agenda (s : State) (a : Arch) : (s.setAr a).agenda = s.agenda := rfl
@[simp] theorem State.setAr_order (s : State) (a : Arch) : (s.setAr a).order = s.order := rfl
@[simp] theorem State.setAr_turn (s : State) (a : Arch) : (s.setAr a).turn = s.turn := rfl
@[simp] theorem State.setAr_nextKind (s : State) (a : Arch) : (s.setAr a).nextKind = s.nextKind := rfl
@[simp] theorem State.setAr_lastList (s : State) (a : Arch) : (s.setAr a).lastList = s.lastList := rfl
@[simp] theorem State.setAr_cur (s : State) (a : Arch) : (s.setAr a).cur = s.cur := rfl
@[simp] theorem State.setAr_ctx (s : State) (a : Arch) : (s.setAr a).ctx = s.ctx := rfl
@[simp] theorem State.setAr_slot (s : State) (a : Arch) : (s.setAr a).slot = s.slot := rfl
@[simp] theorem State.setAr_bun (s : State) (a : Arch) : (s.setAr a).bun = s.bun := rfl
@[simp] theorem State.setAr_kept (s : State) (a : Arch) : (s.setAr a).kept = s.kept := rfl
@[simp] theorem State.setAr_late (s : State) (a : Arch) : (s.setAr a).late = s.late := rfl
@[simp] theorem State.setAr_free (s : State) (a : Arch) : (s.setAr a).free = s.free := rfl
@[simp] theorem State.setAr_fresh (s : State) (a : Arch) : (s.setAr a).fresh = s.fresh := rfl
@[simp] theorem State.setAr_lcores (s : State) (a : Arch) : (s.setAr a).lcores = s.lcores := rfl
@[simp] theorem State.setAr_clusters (s : State) (a : Arch) : (s.setAr a).clusters = s.clusters := rfl
@[simp] theorem State.setAr_dies (s : State) (a : Arch) : (s.setAr a).dies = s.dies := rfl
@[simp] theorem State.setAr_mem (s : State) (a : Arch) : (s.setAr a).mem = s.mem := rfl
@[simp] theorem State.setAr_memGen (s : State) (a : Arch) : (s.setAr a).memGen = s.memGen := rfl
@[simp] theorem State.setAr_nearGen (s : State) (a : Arch) : (s.setAr a).nearGen = s.nearGen := rfl
@[simp] theorem State.setAr_rlines (s : State) (a : Arch) : (s.setAr a).rlines = s.rlines := rfl
@[simp] theorem State.setAr_regions (s : State) (a : Arch) : (s.setAr a).regions = s.regions := rfl
@[simp] theorem State.setAr_parts (s : State) (a : Arch) : (s.setAr a).parts = s.parts := rfl
@[simp] theorem State.setAr_fabric (s : State) (a : Arch) : (s.setAr a).fabric = s.fabric := rfl
@[simp] theorem State.setAr_launches (s : State) (a : Arch) : (s.setAr a).launches = s.launches := rfl
@[simp] theorem State.setAr_saved (s : State) (a : Arch) : (s.setAr a).saved = s.saved := rfl
@[simp] theorem State.setAr_savedH (s : State) (a : Arch) : (s.setAr a).savedH = s.savedH := rfl
@[simp] theorem State.setAr_got (s : State) (a : Arch) : (s.setAr a).got = s.got := rfl
@[simp] theorem State.setAr_station (s : State) (a : Arch) : (s.setAr a).station = s.station := rfl
@[simp] theorem State.setAr_away (s : State) (a : Arch) : (s.setAr a).away = s.away := rfl
@[simp] theorem State.setAr_shadow (s : State) (a : Arch) : (s.setAr a).shadow = s.shadow := rfl
@[simp] theorem State.setAr_lot (s : State) (a : Arch) : (s.setAr a).lot = s.lot := rfl
@[simp] theorem State.setAr_rows (s : State) (a : Arch) : (s.setAr a).rows = s.rows := rfl
@[simp] theorem State.setAr_cmds (s : State) (a : Arch) : (s.setAr a).cmds = s.cmds := rfl
@[simp] theorem State.setAr_cfg (s : State) (a : Arch) : (s.setAr a).cfg = s.cfg := rfl
@[simp] theorem State.setAr_host (s : State) (a : Arch) : (s.setAr a).host = s.host := rfl

/-! ### State.modAr -/

@[simp] theorem State.modAr_agenda (s : State) (f : Arch → Arch) : (s.modAr f).agenda = s.agenda := rfl
@[simp] theorem State.modAr_order (s : State) (f : Arch → Arch) : (s.modAr f).order = s.order := rfl
@[simp] theorem State.modAr_turn (s : State) (f : Arch → Arch) : (s.modAr f).turn = s.turn := rfl
@[simp] theorem State.modAr_nextKind (s : State) (f : Arch → Arch) : (s.modAr f).nextKind = s.nextKind := rfl
@[simp] theorem State.modAr_lastList (s : State) (f : Arch → Arch) : (s.modAr f).lastList = s.lastList := rfl
@[simp] theorem State.modAr_cur (s : State) (f : Arch → Arch) : (s.modAr f).cur = s.cur := rfl
@[simp] theorem State.modAr_ctx (s : State) (f : Arch → Arch) : (s.modAr f).ctx = s.ctx := rfl
@[simp] theorem State.modAr_slot (s : State) (f : Arch → Arch) : (s.modAr f).slot = s.slot := rfl
@[simp] theorem State.modAr_bun (s : State) (f : Arch → Arch) : (s.modAr f).bun = s.bun := rfl
@[simp] theorem State.modAr_kept (s : State) (f : Arch → Arch) : (s.modAr f).kept = s.kept := rfl
@[simp] theorem State.modAr_late (s : State) (f : Arch → Arch) : (s.modAr f).late = s.late := rfl
@[simp] theorem State.modAr_free (s : State) (f : Arch → Arch) : (s.modAr f).free = s.free := rfl
@[simp] theorem State.modAr_fresh (s : State) (f : Arch → Arch) : (s.modAr f).fresh = s.fresh := rfl
@[simp] theorem State.modAr_lcores (s : State) (f : Arch → Arch) : (s.modAr f).lcores = s.lcores := rfl
@[simp] theorem State.modAr_clusters (s : State) (f : Arch → Arch) : (s.modAr f).clusters = s.clusters := rfl
@[simp] theorem State.modAr_dies (s : State) (f : Arch → Arch) : (s.modAr f).dies = s.dies := rfl
@[simp] theorem State.modAr_mem (s : State) (f : Arch → Arch) : (s.modAr f).mem = s.mem := rfl
@[simp] theorem State.modAr_memGen (s : State) (f : Arch → Arch) : (s.modAr f).memGen = s.memGen := rfl
@[simp] theorem State.modAr_nearGen (s : State) (f : Arch → Arch) : (s.modAr f).nearGen = s.nearGen := rfl
@[simp] theorem State.modAr_rlines (s : State) (f : Arch → Arch) : (s.modAr f).rlines = s.rlines := rfl
@[simp] theorem State.modAr_regions (s : State) (f : Arch → Arch) : (s.modAr f).regions = s.regions := rfl
@[simp] theorem State.modAr_parts (s : State) (f : Arch → Arch) : (s.modAr f).parts = s.parts := rfl
@[simp] theorem State.modAr_fabric (s : State) (f : Arch → Arch) : (s.modAr f).fabric = s.fabric := rfl
@[simp] theorem State.modAr_launches (s : State) (f : Arch → Arch) : (s.modAr f).launches = s.launches := rfl
@[simp] theorem State.modAr_saved (s : State) (f : Arch → Arch) : (s.modAr f).saved = s.saved := rfl
@[simp] theorem State.modAr_savedH (s : State) (f : Arch → Arch) : (s.modAr f).savedH = s.savedH := rfl
@[simp] theorem State.modAr_got (s : State) (f : Arch → Arch) : (s.modAr f).got = s.got := rfl
@[simp] theorem State.modAr_station (s : State) (f : Arch → Arch) : (s.modAr f).station = s.station := rfl
@[simp] theorem State.modAr_away (s : State) (f : Arch → Arch) : (s.modAr f).away = s.away := rfl
@[simp] theorem State.modAr_shadow (s : State) (f : Arch → Arch) : (s.modAr f).shadow = s.shadow := rfl
@[simp] theorem State.modAr_lot (s : State) (f : Arch → Arch) : (s.modAr f).lot = s.lot := rfl
@[simp] theorem State.modAr_rows (s : State) (f : Arch → Arch) : (s.modAr f).rows = s.rows := rfl
@[simp] theorem State.modAr_cmds (s : State) (f : Arch → Arch) : (s.modAr f).cmds = s.cmds := rfl
@[simp] theorem State.modAr_cfg (s : State) (f : Arch → Arch) : (s.modAr f).cfg = s.cfg := rfl
@[simp] theorem State.modAr_host (s : State) (f : Arch → Arch) : (s.modAr f).host = s.host := rfl

/-! ### State.setLcore -/

@[simp] theorem State.setLcore_agenda (s : State) (l : Nat) (c : LCore) : (s.setLcore l c).agenda = s.agenda := rfl
@[simp] theorem State.setLcore_order (s : State) (l : Nat) (c : LCore) : (s.setLcore l c).order = s.order := rfl
@[simp] theorem State.setLcore_turn (s : State) (l : Nat) (c : LCore) : (s.setLcore l c).turn = s.turn := rfl
@[simp] theorem State.setLcore_nextKind (s : State) (l : Nat) (c : LCore) : (s.setLcore l c).nextKind = s.nextKind := rfl
@[simp] theorem State.setLcore_lastList (s : State) (l : Nat) (c : LCore) : (s.setLcore l c).lastList = s.lastList := rfl
@[simp] theorem State.setLcore_cur (s : State) (l : Nat) (c : LCore) : (s.setLcore l c).cur = s.cur := rfl
@[simp] theorem State.setLcore_ctx (s : State) (l : Nat) (c : LCore) : (s.setLcore l c).ctx = s.ctx := rfl
@[simp] theorem State.setLcore_slot (s : State) (l : Nat) (c : LCore) : (s.setLcore l c).slot = s.slot := rfl
@[simp] theorem State.setLcore_bun (s : State) (l : Nat) (c : LCore) : (s.setLcore l c).bun = s.bun := rfl
@[simp] theorem State.setLcore_kept (s : State) (l : Nat) (c : LCore) : (s.setLcore l c).kept = s.kept := rfl
@[simp] theorem State.setLcore_late (s : State) (l : Nat) (c : LCore) : (s.setLcore l c).late = s.late := rfl
@[simp] theorem State.setLcore_free (s : State) (l : Nat) (c : LCore) : (s.setLcore l c).free = s.free := rfl
@[simp] theorem State.setLcore_fresh (s : State) (l : Nat) (c : LCore) : (s.setLcore l c).fresh = s.fresh := rfl
@[simp] theorem State.setLcore_cores (s : State) (l : Nat) (c : LCore) : (s.setLcore l c).cores = s.cores := rfl
@[simp] theorem State.setLcore_clusters (s : State) (l : Nat) (c : LCore) : (s.setLcore l c).clusters = s.clusters := rfl
@[simp] theorem State.setLcore_dies (s : State) (l : Nat) (c : LCore) : (s.setLcore l c).dies = s.dies := rfl
@[simp] theorem State.setLcore_mem (s : State) (l : Nat) (c : LCore) : (s.setLcore l c).mem = s.mem := rfl
@[simp] theorem State.setLcore_memGen (s : State) (l : Nat) (c : LCore) : (s.setLcore l c).memGen = s.memGen := rfl
@[simp] theorem State.setLcore_nearGen (s : State) (l : Nat) (c : LCore) : (s.setLcore l c).nearGen = s.nearGen := rfl
@[simp] theorem State.setLcore_rlines (s : State) (l : Nat) (c : LCore) : (s.setLcore l c).rlines = s.rlines := rfl
@[simp] theorem State.setLcore_regions (s : State) (l : Nat) (c : LCore) : (s.setLcore l c).regions = s.regions := rfl
@[simp] theorem State.setLcore_parts (s : State) (l : Nat) (c : LCore) : (s.setLcore l c).parts = s.parts := rfl
@[simp] theorem State.setLcore_fabric (s : State) (l : Nat) (c : LCore) : (s.setLcore l c).fabric = s.fabric := rfl
@[simp] theorem State.setLcore_launches (s : State) (l : Nat) (c : LCore) : (s.setLcore l c).launches = s.launches := rfl
@[simp] theorem State.setLcore_saved (s : State) (l : Nat) (c : LCore) : (s.setLcore l c).saved = s.saved := rfl
@[simp] theorem State.setLcore_savedH (s : State) (l : Nat) (c : LCore) : (s.setLcore l c).savedH = s.savedH := rfl
@[simp] theorem State.setLcore_got (s : State) (l : Nat) (c : LCore) : (s.setLcore l c).got = s.got := rfl
@[simp] theorem State.setLcore_station (s : State) (l : Nat) (c : LCore) : (s.setLcore l c).station = s.station := rfl
@[simp] theorem State.setLcore_away (s : State) (l : Nat) (c : LCore) : (s.setLcore l c).away = s.away := rfl
@[simp] theorem State.setLcore_shadow (s : State) (l : Nat) (c : LCore) : (s.setLcore l c).shadow = s.shadow := rfl
@[simp] theorem State.setLcore_lot (s : State) (l : Nat) (c : LCore) : (s.setLcore l c).lot = s.lot := rfl
@[simp] theorem State.setLcore_rows (s : State) (l : Nat) (c : LCore) : (s.setLcore l c).rows = s.rows := rfl
@[simp] theorem State.setLcore_cmds (s : State) (l : Nat) (c : LCore) : (s.setLcore l c).cmds = s.cmds := rfl
@[simp] theorem State.setLcore_cfg (s : State) (l : Nat) (c : LCore) : (s.setLcore l c).cfg = s.cfg := rfl
@[simp] theorem State.setLcore_host (s : State) (l : Nat) (c : LCore) : (s.setLcore l c).host = s.host := rfl

/-! ### State.modLcore -/

@[simp] theorem State.modLcore_agenda (s : State) (l : Nat) (f : LCore → LCore) : (s.modLcore l f).agenda = s.agenda := rfl
@[simp] theorem State.modLcore_order (s : State) (l : Nat) (f : LCore → LCore) : (s.modLcore l f).order = s.order := rfl
@[simp] theorem State.modLcore_turn (s : State) (l : Nat) (f : LCore → LCore) : (s.modLcore l f).turn = s.turn := rfl
@[simp] theorem State.modLcore_nextKind (s : State) (l : Nat) (f : LCore → LCore) : (s.modLcore l f).nextKind = s.nextKind := rfl
@[simp] theorem State.modLcore_lastList (s : State) (l : Nat) (f : LCore → LCore) : (s.modLcore l f).lastList = s.lastList := rfl
@[simp] theorem State.modLcore_cur (s : State) (l : Nat) (f : LCore → LCore) : (s.modLcore l f).cur = s.cur := rfl
@[simp] theorem State.modLcore_ctx (s : State) (l : Nat) (f : LCore → LCore) : (s.modLcore l f).ctx = s.ctx := rfl
@[simp] theorem State.modLcore_slot (s : State) (l : Nat) (f : LCore → LCore) : (s.modLcore l f).slot = s.slot := rfl
@[simp] theorem State.modLcore_bun (s : State) (l : Nat) (f : LCore → LCore) : (s.modLcore l f).bun = s.bun := rfl
@[simp] theorem State.modLcore_kept (s : State) (l : Nat) (f : LCore → LCore) : (s.modLcore l f).kept = s.kept := rfl
@[simp] theorem State.modLcore_late (s : State) (l : Nat) (f : LCore → LCore) : (s.modLcore l f).late = s.late := rfl
@[simp] theorem State.modLcore_free (s : State) (l : Nat) (f : LCore → LCore) : (s.modLcore l f).free = s.free := rfl
@[simp] theorem State.modLcore_fresh (s : State) (l : Nat) (f : LCore → LCore) : (s.modLcore l f).fresh = s.fresh := rfl
@[simp] theorem State.modLcore_cores (s : State) (l : Nat) (f : LCore → LCore) : (s.modLcore l f).cores = s.cores := rfl
@[simp] theorem State.modLcore_clusters (s : State) (l : Nat) (f : LCore → LCore) : (s.modLcore l f).clusters = s.clusters := rfl
@[simp] theorem State.modLcore_dies (s : State) (l : Nat) (f : LCore → LCore) : (s.modLcore l f).dies = s.dies := rfl
@[simp] theorem State.modLcore_mem (s : State) (l : Nat) (f : LCore → LCore) : (s.modLcore l f).mem = s.mem := rfl
@[simp] theorem State.modLcore_memGen (s : State) (l : Nat) (f : LCore → LCore) : (s.modLcore l f).memGen = s.memGen := rfl
@[simp] theorem State.modLcore_nearGen (s : State) (l : Nat) (f : LCore → LCore) : (s.modLcore l f).nearGen = s.nearGen := rfl
@[simp] theorem State.modLcore_rlines (s : State) (l : Nat) (f : LCore → LCore) : (s.modLcore l f).rlines = s.rlines := rfl
@[simp] theorem State.modLcore_regions (s : State) (l : Nat) (f : LCore → LCore) : (s.modLcore l f).regions = s.regions := rfl
@[simp] theorem State.modLcore_parts (s : State) (l : Nat) (f : LCore → LCore) : (s.modLcore l f).parts = s.parts := rfl
@[simp] theorem State.modLcore_fabric (s : State) (l : Nat) (f : LCore → LCore) : (s.modLcore l f).fabric = s.fabric := rfl
@[simp] theorem State.modLcore_launches (s : State) (l : Nat) (f : LCore → LCore) : (s.modLcore l f).launches = s.launches := rfl
@[simp] theorem State.modLcore_saved (s : State) (l : Nat) (f : LCore → LCore) : (s.modLcore l f).saved = s.saved := rfl
@[simp] theorem State.modLcore_savedH (s : State) (l : Nat) (f : LCore → LCore) : (s.modLcore l f).savedH = s.savedH := rfl
@[simp] theorem State.modLcore_got (s : State) (l : Nat) (f : LCore → LCore) : (s.modLcore l f).got = s.got := rfl
@[simp] theorem State.modLcore_station (s : State) (l : Nat) (f : LCore → LCore) : (s.modLcore l f).station = s.station := rfl
@[simp] theorem State.modLcore_away (s : State) (l : Nat) (f : LCore → LCore) : (s.modLcore l f).away = s.away := rfl
@[simp] theorem State.modLcore_shadow (s : State) (l : Nat) (f : LCore → LCore) : (s.modLcore l f).shadow = s.shadow := rfl
@[simp] theorem State.modLcore_lot (s : State) (l : Nat) (f : LCore → LCore) : (s.modLcore l f).lot = s.lot := rfl
@[simp] theorem State.modLcore_rows (s : State) (l : Nat) (f : LCore → LCore) : (s.modLcore l f).rows = s.rows := rfl
@[simp] theorem State.modLcore_cmds (s : State) (l : Nat) (f : LCore → LCore) : (s.modLcore l f).cmds = s.cmds := rfl
@[simp] theorem State.modLcore_cfg (s : State) (l : Nat) (f : LCore → LCore) : (s.modLcore l f).cfg = s.cfg := rfl
@[simp] theorem State.modLcore_host (s : State) (l : Nat) (f : LCore → LCore) : (s.modLcore l f).host = s.host := rfl

/-! ### State.modCluster -/

@[simp] theorem State.modCluster_agenda (s : State) (n : Nat) (f : Cluster → Cluster) : (s.modCluster n f).agenda = s.agenda := rfl
@[simp] theorem State.modCluster_order (s : State) (n : Nat) (f : Cluster → Cluster) : (s.modCluster n f).order = s.order := rfl
@[simp] theorem State.modCluster_turn (s : State) (n : Nat) (f : Cluster → Cluster) : (s.modCluster n f).turn = s.turn := rfl
@[simp] theorem State.modCluster_nextKind (s : State) (n : Nat) (f : Cluster → Cluster) : (s.modCluster n f).nextKind = s.nextKind := rfl
@[simp] theorem State.modCluster_lastList (s : State) (n : Nat) (f : Cluster → Cluster) : (s.modCluster n f).lastList = s.lastList := rfl
@[simp] theorem State.modCluster_cur (s : State) (n : Nat) (f : Cluster → Cluster) : (s.modCluster n f).cur = s.cur := rfl
@[simp] theorem State.modCluster_ctx (s : State) (n : Nat) (f : Cluster → Cluster) : (s.modCluster n f).ctx = s.ctx := rfl
@[simp] theorem State.modCluster_slot (s : State) (n : Nat) (f : Cluster → Cluster) : (s.modCluster n f).slot = s.slot := rfl
@[simp] theorem State.modCluster_bun (s : State) (n : Nat) (f : Cluster → Cluster) : (s.modCluster n f).bun = s.bun := rfl
@[simp] theorem State.modCluster_kept (s : State) (n : Nat) (f : Cluster → Cluster) : (s.modCluster n f).kept = s.kept := rfl
@[simp] theorem State.modCluster_late (s : State) (n : Nat) (f : Cluster → Cluster) : (s.modCluster n f).late = s.late := rfl
@[simp] theorem State.modCluster_free (s : State) (n : Nat) (f : Cluster → Cluster) : (s.modCluster n f).free = s.free := rfl
@[simp] theorem State.modCluster_fresh (s : State) (n : Nat) (f : Cluster → Cluster) : (s.modCluster n f).fresh = s.fresh := rfl
@[simp] theorem State.modCluster_cores (s : State) (n : Nat) (f : Cluster → Cluster) : (s.modCluster n f).cores = s.cores := rfl
@[simp] theorem State.modCluster_lcores (s : State) (n : Nat) (f : Cluster → Cluster) : (s.modCluster n f).lcores = s.lcores := rfl
@[simp] theorem State.modCluster_dies (s : State) (n : Nat) (f : Cluster → Cluster) : (s.modCluster n f).dies = s.dies := rfl
@[simp] theorem State.modCluster_mem (s : State) (n : Nat) (f : Cluster → Cluster) : (s.modCluster n f).mem = s.mem := rfl
@[simp] theorem State.modCluster_memGen (s : State) (n : Nat) (f : Cluster → Cluster) : (s.modCluster n f).memGen = s.memGen := rfl
@[simp] theorem State.modCluster_nearGen (s : State) (n : Nat) (f : Cluster → Cluster) : (s.modCluster n f).nearGen = s.nearGen := rfl
@[simp] theorem State.modCluster_rlines (s : State) (n : Nat) (f : Cluster → Cluster) : (s.modCluster n f).rlines = s.rlines := rfl
@[simp] theorem State.modCluster_regions (s : State) (n : Nat) (f : Cluster → Cluster) : (s.modCluster n f).regions = s.regions := rfl
@[simp] theorem State.modCluster_parts (s : State) (n : Nat) (f : Cluster → Cluster) : (s.modCluster n f).parts = s.parts := rfl
@[simp] theorem State.modCluster_fabric (s : State) (n : Nat) (f : Cluster → Cluster) : (s.modCluster n f).fabric = s.fabric := rfl
@[simp] theorem State.modCluster_launches (s : State) (n : Nat) (f : Cluster → Cluster) : (s.modCluster n f).launches = s.launches := rfl
@[simp] theorem State.modCluster_saved (s : State) (n : Nat) (f : Cluster → Cluster) : (s.modCluster n f).saved = s.saved := rfl
@[simp] theorem State.modCluster_savedH (s : State) (n : Nat) (f : Cluster → Cluster) : (s.modCluster n f).savedH = s.savedH := rfl
@[simp] theorem State.modCluster_got (s : State) (n : Nat) (f : Cluster → Cluster) : (s.modCluster n f).got = s.got := rfl
@[simp] theorem State.modCluster_station (s : State) (n : Nat) (f : Cluster → Cluster) : (s.modCluster n f).station = s.station := rfl
@[simp] theorem State.modCluster_away (s : State) (n : Nat) (f : Cluster → Cluster) : (s.modCluster n f).away = s.away := rfl
@[simp] theorem State.modCluster_shadow (s : State) (n : Nat) (f : Cluster → Cluster) : (s.modCluster n f).shadow = s.shadow := rfl
@[simp] theorem State.modCluster_lot (s : State) (n : Nat) (f : Cluster → Cluster) : (s.modCluster n f).lot = s.lot := rfl
@[simp] theorem State.modCluster_rows (s : State) (n : Nat) (f : Cluster → Cluster) : (s.modCluster n f).rows = s.rows := rfl
@[simp] theorem State.modCluster_cmds (s : State) (n : Nat) (f : Cluster → Cluster) : (s.modCluster n f).cmds = s.cmds := rfl
@[simp] theorem State.modCluster_cfg (s : State) (n : Nat) (f : Cluster → Cluster) : (s.modCluster n f).cfg = s.cfg := rfl
@[simp] theorem State.modCluster_host (s : State) (n : Nat) (f : Cluster → Cluster) : (s.modCluster n f).host = s.host := rfl

/-! ### State.setDie -/

@[simp] theorem State.setDie_agenda (s : State) (d : Nat) (x : Die) : (s.setDie d x).agenda = s.agenda := rfl
@[simp] theorem State.setDie_order (s : State) (d : Nat) (x : Die) : (s.setDie d x).order = s.order := rfl
@[simp] theorem State.setDie_turn (s : State) (d : Nat) (x : Die) : (s.setDie d x).turn = s.turn := rfl
@[simp] theorem State.setDie_nextKind (s : State) (d : Nat) (x : Die) : (s.setDie d x).nextKind = s.nextKind := rfl
@[simp] theorem State.setDie_lastList (s : State) (d : Nat) (x : Die) : (s.setDie d x).lastList = s.lastList := rfl
@[simp] theorem State.setDie_cur (s : State) (d : Nat) (x : Die) : (s.setDie d x).cur = s.cur := rfl
@[simp] theorem State.setDie_ctx (s : State) (d : Nat) (x : Die) : (s.setDie d x).ctx = s.ctx := rfl
@[simp] theorem State.setDie_slot (s : State) (d : Nat) (x : Die) : (s.setDie d x).slot = s.slot := rfl
@[simp] theorem State.setDie_bun (s : State) (d : Nat) (x : Die) : (s.setDie d x).bun = s.bun := rfl
@[simp] theorem State.setDie_kept (s : State) (d : Nat) (x : Die) : (s.setDie d x).kept = s.kept := rfl
@[simp] theorem State.setDie_late (s : State) (d : Nat) (x : Die) : (s.setDie d x).late = s.late := rfl
@[simp] theorem State.setDie_free (s : State) (d : Nat) (x : Die) : (s.setDie d x).free = s.free := rfl
@[simp] theorem State.setDie_fresh (s : State) (d : Nat) (x : Die) : (s.setDie d x).fresh = s.fresh := rfl
@[simp] theorem State.setDie_cores (s : State) (d : Nat) (x : Die) : (s.setDie d x).cores = s.cores := rfl
@[simp] theorem State.setDie_lcores (s : State) (d : Nat) (x : Die) : (s.setDie d x).lcores = s.lcores := rfl
@[simp] theorem State.setDie_clusters (s : State) (d : Nat) (x : Die) : (s.setDie d x).clusters = s.clusters := rfl
@[simp] theorem State.setDie_mem (s : State) (d : Nat) (x : Die) : (s.setDie d x).mem = s.mem := rfl
@[simp] theorem State.setDie_memGen (s : State) (d : Nat) (x : Die) : (s.setDie d x).memGen = s.memGen := rfl
@[simp] theorem State.setDie_nearGen (s : State) (d : Nat) (x : Die) : (s.setDie d x).nearGen = s.nearGen := rfl
@[simp] theorem State.setDie_rlines (s : State) (d : Nat) (x : Die) : (s.setDie d x).rlines = s.rlines := rfl
@[simp] theorem State.setDie_regions (s : State) (d : Nat) (x : Die) : (s.setDie d x).regions = s.regions := rfl
@[simp] theorem State.setDie_parts (s : State) (d : Nat) (x : Die) : (s.setDie d x).parts = s.parts := rfl
@[simp] theorem State.setDie_fabric (s : State) (d : Nat) (x : Die) : (s.setDie d x).fabric = s.fabric := rfl
@[simp] theorem State.setDie_launches (s : State) (d : Nat) (x : Die) : (s.setDie d x).launches = s.launches := rfl
@[simp] theorem State.setDie_saved (s : State) (d : Nat) (x : Die) : (s.setDie d x).saved = s.saved := rfl
@[simp] theorem State.setDie_savedH (s : State) (d : Nat) (x : Die) : (s.setDie d x).savedH = s.savedH := rfl
@[simp] theorem State.setDie_got (s : State) (d : Nat) (x : Die) : (s.setDie d x).got = s.got := rfl
@[simp] theorem State.setDie_station (s : State) (d : Nat) (x : Die) : (s.setDie d x).station = s.station := rfl
@[simp] theorem State.setDie_away (s : State) (d : Nat) (x : Die) : (s.setDie d x).away = s.away := rfl
@[simp] theorem State.setDie_shadow (s : State) (d : Nat) (x : Die) : (s.setDie d x).shadow = s.shadow := rfl
@[simp] theorem State.setDie_lot (s : State) (d : Nat) (x : Die) : (s.setDie d x).lot = s.lot := rfl
@[simp] theorem State.setDie_rows (s : State) (d : Nat) (x : Die) : (s.setDie d x).rows = s.rows := rfl
@[simp] theorem State.setDie_cmds (s : State) (d : Nat) (x : Die) : (s.setDie d x).cmds = s.cmds := rfl
@[simp] theorem State.setDie_cfg (s : State) (d : Nat) (x : Die) : (s.setDie d x).cfg = s.cfg := rfl
@[simp] theorem State.setDie_host (s : State) (d : Nat) (x : Die) : (s.setDie d x).host = s.host := rfl

/-! ### State.modDie -/

@[simp] theorem State.modDie_agenda (s : State) (d : Nat) (f : Die → Die) : (s.modDie d f).agenda = s.agenda := rfl
@[simp] theorem State.modDie_order (s : State) (d : Nat) (f : Die → Die) : (s.modDie d f).order = s.order := rfl
@[simp] theorem State.modDie_turn (s : State) (d : Nat) (f : Die → Die) : (s.modDie d f).turn = s.turn := rfl
@[simp] theorem State.modDie_nextKind (s : State) (d : Nat) (f : Die → Die) : (s.modDie d f).nextKind = s.nextKind := rfl
@[simp] theorem State.modDie_lastList (s : State) (d : Nat) (f : Die → Die) : (s.modDie d f).lastList = s.lastList := rfl
@[simp] theorem State.modDie_cur (s : State) (d : Nat) (f : Die → Die) : (s.modDie d f).cur = s.cur := rfl
@[simp] theorem State.modDie_ctx (s : State) (d : Nat) (f : Die → Die) : (s.modDie d f).ctx = s.ctx := rfl
@[simp] theorem State.modDie_slot (s : State) (d : Nat) (f : Die → Die) : (s.modDie d f).slot = s.slot := rfl
@[simp] theorem State.modDie_bun (s : State) (d : Nat) (f : Die → Die) : (s.modDie d f).bun = s.bun := rfl
@[simp] theorem State.modDie_kept (s : State) (d : Nat) (f : Die → Die) : (s.modDie d f).kept = s.kept := rfl
@[simp] theorem State.modDie_late (s : State) (d : Nat) (f : Die → Die) : (s.modDie d f).late = s.late := rfl
@[simp] theorem State.modDie_free (s : State) (d : Nat) (f : Die → Die) : (s.modDie d f).free = s.free := rfl
@[simp] theorem State.modDie_fresh (s : State) (d : Nat) (f : Die → Die) : (s.modDie d f).fresh = s.fresh := rfl
@[simp] theorem State.modDie_cores (s : State) (d : Nat) (f : Die → Die) : (s.modDie d f).cores = s.cores := rfl
@[simp] theorem State.modDie_lcores (s : State) (d : Nat) (f : Die → Die) : (s.modDie d f).lcores = s.lcores := rfl
@[simp] theorem State.modDie_clusters (s : State) (d : Nat) (f : Die → Die) : (s.modDie d f).clusters = s.clusters := rfl
@[simp] theorem State.modDie_mem (s : State) (d : Nat) (f : Die → Die) : (s.modDie d f).mem = s.mem := rfl
@[simp] theorem State.modDie_memGen (s : State) (d : Nat) (f : Die → Die) : (s.modDie d f).memGen = s.memGen := rfl
@[simp] theorem State.modDie_nearGen (s : State) (d : Nat) (f : Die → Die) : (s.modDie d f).nearGen = s.nearGen := rfl
@[simp] theorem State.modDie_rlines (s : State) (d : Nat) (f : Die → Die) : (s.modDie d f).rlines = s.rlines := rfl
@[simp] theorem State.modDie_regions (s : State) (d : Nat) (f : Die → Die) : (s.modDie d f).regions = s.regions := rfl
@[simp] theorem State.modDie_parts (s : State) (d : Nat) (f : Die → Die) : (s.modDie d f).parts = s.parts := rfl
@[simp] theorem State.modDie_fabric (s : State) (d : Nat) (f : Die → Die) : (s.modDie d f).fabric = s.fabric := rfl
@[simp] theorem State.modDie_launches (s : State) (d : Nat) (f : Die → Die) : (s.modDie d f).launches = s.launches := rfl
@[simp] theorem State.modDie_saved (s : State) (d : Nat) (f : Die → Die) : (s.modDie d f).saved = s.saved := rfl
@[simp] theorem State.modDie_savedH (s : State) (d : Nat) (f : Die → Die) : (s.modDie d f).savedH = s.savedH := rfl
@[simp] theorem State.modDie_got (s : State) (d : Nat) (f : Die → Die) : (s.modDie d f).got = s.got := rfl
@[simp] theorem State.modDie_station (s : State) (d : Nat) (f : Die → Die) : (s.modDie d f).station = s.station := rfl
@[simp] theorem State.modDie_away (s : State) (d : Nat) (f : Die → Die) : (s.modDie d f).away = s.away := rfl
@[simp] theorem State.modDie_shadow (s : State) (d : Nat) (f : Die → Die) : (s.modDie d f).shadow = s.shadow := rfl
@[simp] theorem State.modDie_lot (s : State) (d : Nat) (f : Die → Die) : (s.modDie d f).lot = s.lot := rfl
@[simp] theorem State.modDie_rows (s : State) (d : Nat) (f : Die → Die) : (s.modDie d f).rows = s.rows := rfl
@[simp] theorem State.modDie_cmds (s : State) (d : Nat) (f : Die → Die) : (s.modDie d f).cmds = s.cmds := rfl
@[simp] theorem State.modDie_cfg (s : State) (d : Nat) (f : Die → Die) : (s.modDie d f).cfg = s.cfg := rfl
@[simp] theorem State.modDie_host (s : State) (d : Nat) (f : Die → Die) : (s.modDie d f).host = s.host := rfl

/-! ### State.setTask -/

@[simp] theorem State.setTask_agenda (s : State) (i : Nat) (t : Task) : (s.setTask i t).agenda = s.agenda := rfl
@[simp] theorem State.setTask_order (s : State) (i : Nat) (t : Task) : (s.setTask i t).order = s.order := rfl
@[simp] theorem State.setTask_turn (s : State) (i : Nat) (t : Task) : (s.setTask i t).turn = s.turn := rfl
@[simp] theorem State.setTask_nextKind (s : State) (i : Nat) (t : Task) : (s.setTask i t).nextKind = s.nextKind := rfl
@[simp] theorem State.setTask_lastList (s : State) (i : Nat) (t : Task) : (s.setTask i t).lastList = s.lastList := rfl
@[simp] theorem State.setTask_cur (s : State) (i : Nat) (t : Task) : (s.setTask i t).cur = s.cur := rfl
@[simp] theorem State.setTask_ctx (s : State) (i : Nat) (t : Task) : (s.setTask i t).ctx = s.ctx := rfl
@[simp] theorem State.setTask_slot (s : State) (i : Nat) (t : Task) : (s.setTask i t).slot = s.slot := rfl
@[simp] theorem State.setTask_bun (s : State) (i : Nat) (t : Task) : (s.setTask i t).bun = s.bun := rfl
@[simp] theorem State.setTask_kept (s : State) (i : Nat) (t : Task) : (s.setTask i t).kept = s.kept := rfl
@[simp] theorem State.setTask_late (s : State) (i : Nat) (t : Task) : (s.setTask i t).late = s.late := rfl
@[simp] theorem State.setTask_free (s : State) (i : Nat) (t : Task) : (s.setTask i t).free = s.free := rfl
@[simp] theorem State.setTask_fresh (s : State) (i : Nat) (t : Task) : (s.setTask i t).fresh = s.fresh := rfl
@[simp] theorem State.setTask_cores (s : State) (i : Nat) (t : Task) : (s.setTask i t).cores = s.cores := rfl
@[simp] theorem State.setTask_lcores (s : State) (i : Nat) (t : Task) : (s.setTask i t).lcores = s.lcores := rfl
@[simp] theorem State.setTask_clusters (s : State) (i : Nat) (t : Task) : (s.setTask i t).clusters = s.clusters := rfl
@[simp] theorem State.setTask_mem (s : State) (i : Nat) (t : Task) : (s.setTask i t).mem = s.mem := rfl
@[simp] theorem State.setTask_memGen (s : State) (i : Nat) (t : Task) : (s.setTask i t).memGen = s.memGen := rfl
@[simp] theorem State.setTask_nearGen (s : State) (i : Nat) (t : Task) : (s.setTask i t).nearGen = s.nearGen := rfl
@[simp] theorem State.setTask_rlines (s : State) (i : Nat) (t : Task) : (s.setTask i t).rlines = s.rlines := rfl
@[simp] theorem State.setTask_regions (s : State) (i : Nat) (t : Task) : (s.setTask i t).regions = s.regions := rfl
@[simp] theorem State.setTask_parts (s : State) (i : Nat) (t : Task) : (s.setTask i t).parts = s.parts := rfl
@[simp] theorem State.setTask_fabric (s : State) (i : Nat) (t : Task) : (s.setTask i t).fabric = s.fabric := rfl
@[simp] theorem State.setTask_launches (s : State) (i : Nat) (t : Task) : (s.setTask i t).launches = s.launches := rfl
@[simp] theorem State.setTask_saved (s : State) (i : Nat) (t : Task) : (s.setTask i t).saved = s.saved := rfl
@[simp] theorem State.setTask_savedH (s : State) (i : Nat) (t : Task) : (s.setTask i t).savedH = s.savedH := rfl
@[simp] theorem State.setTask_got (s : State) (i : Nat) (t : Task) : (s.setTask i t).got = s.got := rfl
@[simp] theorem State.setTask_station (s : State) (i : Nat) (t : Task) : (s.setTask i t).station = s.station := rfl
@[simp] theorem State.setTask_away (s : State) (i : Nat) (t : Task) : (s.setTask i t).away = s.away := rfl
@[simp] theorem State.setTask_shadow (s : State) (i : Nat) (t : Task) : (s.setTask i t).shadow = s.shadow := rfl
@[simp] theorem State.setTask_lot (s : State) (i : Nat) (t : Task) : (s.setTask i t).lot = s.lot := rfl
@[simp] theorem State.setTask_rows (s : State) (i : Nat) (t : Task) : (s.setTask i t).rows = s.rows := rfl
@[simp] theorem State.setTask_cmds (s : State) (i : Nat) (t : Task) : (s.setTask i t).cmds = s.cmds := rfl
@[simp] theorem State.setTask_cfg (s : State) (i : Nat) (t : Task) : (s.setTask i t).cfg = s.cfg := rfl
@[simp] theorem State.setTask_host (s : State) (i : Nat) (t : Task) : (s.setTask i t).host = s.host := rfl

/-! ### State.modTask -/

@[simp] theorem State.modTask_agenda (s : State) (i : Nat) (f : Task → Task) : (s.modTask i f).agenda = s.agenda := rfl
@[simp] theorem State.modTask_order (s : State) (i : Nat) (f : Task → Task) : (s.modTask i f).order = s.order := rfl
@[simp] theorem State.modTask_turn (s : State) (i : Nat) (f : Task → Task) : (s.modTask i f).turn = s.turn := rfl
@[simp] theorem State.modTask_nextKind (s : State) (i : Nat) (f : Task → Task) : (s.modTask i f).nextKind = s.nextKind := rfl
@[simp] theorem State.modTask_lastList (s : State) (i : Nat) (f : Task → Task) : (s.modTask i f).lastList = s.lastList := rfl
@[simp] theorem State.modTask_cur (s : State) (i : Nat) (f : Task → Task) : (s.modTask i f).cur = s.cur := rfl
@[simp] theorem State.modTask_ctx (s : State) (i : Nat) (f : Task → Task) : (s.modTask i f).ctx = s.ctx := rfl
@[simp] theorem State.modTask_slot (s : State) (i : Nat) (f : Task → Task) : (s.modTask i f).slot = s.slot := rfl
@[simp] theorem State.modTask_bun (s : State) (i : Nat) (f : Task → Task) : (s.modTask i f).bun = s.bun := rfl
@[simp] theorem State.modTask_kept (s : State) (i : Nat) (f : Task → Task) : (s.modTask i f).kept = s.kept := rfl
@[simp] theorem State.modTask_late (s : State) (i : Nat) (f : Task → Task) : (s.modTask i f).late = s.late := rfl
@[simp] theorem State.modTask_free (s : State) (i : Nat) (f : Task → Task) : (s.modTask i f).free = s.free := rfl
@[simp] theorem State.modTask_fresh (s : State) (i : Nat) (f : Task → Task) : (s.modTask i f).fresh = s.fresh := rfl
@[simp] theorem State.modTask_cores (s : State) (i : Nat) (f : Task → Task) : (s.modTask i f).cores = s.cores := rfl
@[simp] theorem State.modTask_lcores (s : State) (i : Nat) (f : Task → Task) : (s.modTask i f).lcores = s.lcores := rfl
@[simp] theorem State.modTask_clusters (s : State) (i : Nat) (f : Task → Task) : (s.modTask i f).clusters = s.clusters := rfl
@[simp] theorem State.modTask_mem (s : State) (i : Nat) (f : Task → Task) : (s.modTask i f).mem = s.mem := rfl
@[simp] theorem State.modTask_memGen (s : State) (i : Nat) (f : Task → Task) : (s.modTask i f).memGen = s.memGen := rfl
@[simp] theorem State.modTask_nearGen (s : State) (i : Nat) (f : Task → Task) : (s.modTask i f).nearGen = s.nearGen := rfl
@[simp] theorem State.modTask_rlines (s : State) (i : Nat) (f : Task → Task) : (s.modTask i f).rlines = s.rlines := rfl
@[simp] theorem State.modTask_regions (s : State) (i : Nat) (f : Task → Task) : (s.modTask i f).regions = s.regions := rfl
@[simp] theorem State.modTask_parts (s : State) (i : Nat) (f : Task → Task) : (s.modTask i f).parts = s.parts := rfl
@[simp] theorem State.modTask_fabric (s : State) (i : Nat) (f : Task → Task) : (s.modTask i f).fabric = s.fabric := rfl
@[simp] theorem State.modTask_launches (s : State) (i : Nat) (f : Task → Task) : (s.modTask i f).launches = s.launches := rfl
@[simp] theorem State.modTask_saved (s : State) (i : Nat) (f : Task → Task) : (s.modTask i f).saved = s.saved := rfl
@[simp] theorem State.modTask_savedH (s : State) (i : Nat) (f : Task → Task) : (s.modTask i f).savedH = s.savedH := rfl
@[simp] theorem State.modTask_got (s : State) (i : Nat) (f : Task → Task) : (s.modTask i f).got = s.got := rfl
@[simp] theorem State.modTask_station (s : State) (i : Nat) (f : Task → Task) : (s.modTask i f).station = s.station := rfl
@[simp] theorem State.modTask_away (s : State) (i : Nat) (f : Task → Task) : (s.modTask i f).away = s.away := rfl
@[simp] theorem State.modTask_shadow (s : State) (i : Nat) (f : Task → Task) : (s.modTask i f).shadow = s.shadow := rfl
@[simp] theorem State.modTask_lot (s : State) (i : Nat) (f : Task → Task) : (s.modTask i f).lot = s.lot := rfl
@[simp] theorem State.modTask_rows (s : State) (i : Nat) (f : Task → Task) : (s.modTask i f).rows = s.rows := rfl
@[simp] theorem State.modTask_cmds (s : State) (i : Nat) (f : Task → Task) : (s.modTask i f).cmds = s.cmds := rfl
@[simp] theorem State.modTask_cfg (s : State) (i : Nat) (f : Task → Task) : (s.modTask i f).cfg = s.cfg := rfl
@[simp] theorem State.modTask_host (s : State) (i : Nat) (f : Task → Task) : (s.modTask i f).host = s.host := rfl

/-! ### State.modBun -/

@[simp] theorem State.modBun_agenda (s : State) (f : Bun → Bun) : (s.modBun f).agenda = s.agenda := rfl
@[simp] theorem State.modBun_order (s : State) (f : Bun → Bun) : (s.modBun f).order = s.order := rfl
@[simp] theorem State.modBun_turn (s : State) (f : Bun → Bun) : (s.modBun f).turn = s.turn := rfl
@[simp] theorem State.modBun_nextKind (s : State) (f : Bun → Bun) : (s.modBun f).nextKind = s.nextKind := rfl
@[simp] theorem State.modBun_lastList (s : State) (f : Bun → Bun) : (s.modBun f).lastList = s.lastList := rfl
@[simp] theorem State.modBun_cur (s : State) (f : Bun → Bun) : (s.modBun f).cur = s.cur := rfl
@[simp] theorem State.modBun_ctx (s : State) (f : Bun → Bun) : (s.modBun f).ctx = s.ctx := rfl
@[simp] theorem State.modBun_slot (s : State) (f : Bun → Bun) : (s.modBun f).slot = s.slot := rfl
@[simp] theorem State.modBun_kept (s : State) (f : Bun → Bun) : (s.modBun f).kept = s.kept := rfl
@[simp] theorem State.modBun_late (s : State) (f : Bun → Bun) : (s.modBun f).late = s.late := rfl
@[simp] theorem State.modBun_free (s : State) (f : Bun → Bun) : (s.modBun f).free = s.free := rfl
@[simp] theorem State.modBun_fresh (s : State) (f : Bun → Bun) : (s.modBun f).fresh = s.fresh := rfl
@[simp] theorem State.modBun_cores (s : State) (f : Bun → Bun) : (s.modBun f).cores = s.cores := rfl
@[simp] theorem State.modBun_lcores (s : State) (f : Bun → Bun) : (s.modBun f).lcores = s.lcores := rfl
@[simp] theorem State.modBun_clusters (s : State) (f : Bun → Bun) : (s.modBun f).clusters = s.clusters := rfl
@[simp] theorem State.modBun_dies (s : State) (f : Bun → Bun) : (s.modBun f).dies = s.dies := rfl
@[simp] theorem State.modBun_mem (s : State) (f : Bun → Bun) : (s.modBun f).mem = s.mem := rfl
@[simp] theorem State.modBun_memGen (s : State) (f : Bun → Bun) : (s.modBun f).memGen = s.memGen := rfl
@[simp] theorem State.modBun_nearGen (s : State) (f : Bun → Bun) : (s.modBun f).nearGen = s.nearGen := rfl
@[simp] theorem State.modBun_rlines (s : State) (f : Bun → Bun) : (s.modBun f).rlines = s.rlines := rfl
@[simp] theorem State.modBun_regions (s : State) (f : Bun → Bun) : (s.modBun f).regions = s.regions := rfl
@[simp] theorem State.modBun_parts (s : State) (f : Bun → Bun) : (s.modBun f).parts = s.parts := rfl
@[simp] theorem State.modBun_fabric (s : State) (f : Bun → Bun) : (s.modBun f).fabric = s.fabric := rfl
@[simp] theorem State.modBun_launches (s : State) (f : Bun → Bun) : (s.modBun f).launches = s.launches := rfl
@[simp] theorem State.modBun_saved (s : State) (f : Bun → Bun) : (s.modBun f).saved = s.saved := rfl
@[simp] theorem State.modBun_savedH (s : State) (f : Bun → Bun) : (s.modBun f).savedH = s.savedH := rfl
@[simp] theorem State.modBun_got (s : State) (f : Bun → Bun) : (s.modBun f).got = s.got := rfl
@[simp] theorem State.modBun_station (s : State) (f : Bun → Bun) : (s.modBun f).station = s.station := rfl
@[simp] theorem State.modBun_away (s : State) (f : Bun → Bun) : (s.modBun f).away = s.away := rfl
@[simp] theorem State.modBun_shadow (s : State) (f : Bun → Bun) : (s.modBun f).shadow = s.shadow := rfl
@[simp] theorem State.modBun_lot (s : State) (f : Bun → Bun) : (s.modBun f).lot = s.lot := rfl
@[simp] theorem State.modBun_rows (s : State) (f : Bun → Bun) : (s.modBun f).rows = s.rows := rfl
@[simp] theorem State.modBun_cmds (s : State) (f : Bun → Bun) : (s.modBun f).cmds = s.cmds := rfl
@[simp] theorem State.modBun_cfg (s : State) (f : Bun → Bun) : (s.modBun f).cfg = s.cfg := rfl
@[simp] theorem State.modBun_host (s : State) (f : Bun → Bun) : (s.modBun f).host = s.host := rfl

/-! ### State.bump -/

@[simp] theorem State.bump_agenda (s : State) : (s.bump).agenda = s.agenda := rfl
@[simp] theorem State.bump_order (s : State) : (s.bump).order = s.order := rfl
@[simp] theorem State.bump_turn (s : State) : (s.bump).turn = s.turn := rfl
@[simp] theorem State.bump_nextKind (s : State) : (s.bump).nextKind = s.nextKind := rfl
@[simp] theorem State.bump_lastList (s : State) : (s.bump).lastList = s.lastList := rfl
@[simp] theorem State.bump_cur (s : State) : (s.bump).cur = s.cur := rfl
@[simp] theorem State.bump_ctx (s : State) : (s.bump).ctx = s.ctx := rfl
@[simp] theorem State.bump_slot (s : State) : (s.bump).slot = s.slot := rfl
@[simp] theorem State.bump_bun (s : State) : (s.bump).bun = s.bun := rfl
@[simp] theorem State.bump_kept (s : State) : (s.bump).kept = s.kept := rfl
@[simp] theorem State.bump_late (s : State) : (s.bump).late = s.late := rfl
@[simp] theorem State.bump_free (s : State) : (s.bump).free = s.free := rfl
@[simp] theorem State.bump_cores (s : State) : (s.bump).cores = s.cores := rfl
@[simp] theorem State.bump_lcores (s : State) : (s.bump).lcores = s.lcores := rfl
@[simp] theorem State.bump_clusters (s : State) : (s.bump).clusters = s.clusters := rfl
@[simp] theorem State.bump_dies (s : State) : (s.bump).dies = s.dies := rfl
@[simp] theorem State.bump_mem (s : State) : (s.bump).mem = s.mem := rfl
@[simp] theorem State.bump_memGen (s : State) : (s.bump).memGen = s.memGen := rfl
@[simp] theorem State.bump_nearGen (s : State) : (s.bump).nearGen = s.nearGen := rfl
@[simp] theorem State.bump_rlines (s : State) : (s.bump).rlines = s.rlines := rfl
@[simp] theorem State.bump_regions (s : State) : (s.bump).regions = s.regions := rfl
@[simp] theorem State.bump_parts (s : State) : (s.bump).parts = s.parts := rfl
@[simp] theorem State.bump_fabric (s : State) : (s.bump).fabric = s.fabric := rfl
@[simp] theorem State.bump_launches (s : State) : (s.bump).launches = s.launches := rfl
@[simp] theorem State.bump_saved (s : State) : (s.bump).saved = s.saved := rfl
@[simp] theorem State.bump_savedH (s : State) : (s.bump).savedH = s.savedH := rfl
@[simp] theorem State.bump_got (s : State) : (s.bump).got = s.got := rfl
@[simp] theorem State.bump_station (s : State) : (s.bump).station = s.station := rfl
@[simp] theorem State.bump_away (s : State) : (s.bump).away = s.away := rfl
@[simp] theorem State.bump_shadow (s : State) : (s.bump).shadow = s.shadow := rfl
@[simp] theorem State.bump_lot (s : State) : (s.bump).lot = s.lot := rfl
@[simp] theorem State.bump_rows (s : State) : (s.bump).rows = s.rows := rfl
@[simp] theorem State.bump_cmds (s : State) : (s.bump).cmds = s.cmds := rfl
@[simp] theorem State.bump_cfg (s : State) : (s.bump).cfg = s.cfg := rfl
@[simp] theorem State.bump_host (s : State) : (s.bump).host = s.host := rfl

end Sys2Proof.Machine
end

