-- ==== Sys2Proof/Laws/Table.lean ====
section
/-! SUPPORT. Tables, sets and memories: reading after a change, and the canonical form of a memory, which every memory operation
keeps. -/

namespace Sys2Proof

/-! ### Tables -/

@[simp] theorem Tbl.get_nil {α : Type} (d : α) (k : Nat) : Tbl.get d [] k = d := rfl

@[simp] theorem Tbl.get_put_self {α : Type} (d v : α) (t : Tbl α) (k : Nat) : Tbl.get d (Tbl.put t k v) k = v := by
  induction t with
  | nil => simp [Tbl.put, Tbl.get]
  | cons h t ih =>
    simp only [Tbl.put]
    split
    · simp [Tbl.get]
    · split
      · simp [Tbl.get]
      · simp_all [Tbl.get]

theorem Tbl.get_put_ne {α : Type} (d v : α) (t : Tbl α) {k j : Nat} (h : j ≠ k) :
    Tbl.get d (Tbl.put t k v) j = Tbl.get d t j := by
  induction t with
  | nil => simp [Tbl.put, Tbl.get, h.symm]
  | cons a t ih =>
    obtain ⟨i, w⟩ := a
    simp only [Tbl.put]
    split
    · simp [Tbl.get, h.symm]
    · split
      · next hk => subst hk; simp [Tbl.get, h.symm]
      · simp [Tbl.get, ih]

theorem Tbl.get_del_ne {α : Type} (d : α) (t : Tbl α) {k j : Nat} (h : j ≠ k) : Tbl.get d (Tbl.del t k) j = Tbl.get d t j := by
  induction t with
  | nil => rfl
  | cons a t ih =>
    obtain ⟨i, w⟩ := a
    simp only [Tbl.del]
    split
    · next hk => subst hk; simp [Tbl.get, h.symm]
    · simp [Tbl.get, ih]

/-- A key below all others is not listed. -/
theorem Tbl.get_of_lt {α : Type} (d : α) (t : Tbl α) (k : Nat) (h : ∀ x ∈ t, k < x.1) : Tbl.get d t k = d := by
  induction t with
  | nil => rfl
  | cons a t ih =>
    have h1 : a.1 ≠ k := Nat.ne_of_gt (h a (by simp))
    simp only [Tbl.get, h1, if_false]
    exact ih fun x hx => h x (List.mem_cons_of_mem _ hx)

/-! ### Sets -/

@[simp] theorem NatSet.mem_insert (s : NatSet) (k j : Nat) : NatSet.mem (NatSet.insert s k) j = (k == j || NatSet.mem s j) := by
  induction s with
  | nil => simp [NatSet.insert, NatSet.mem]
  | cons a t ih =>
    simp only [NatSet.insert]
    split
    · simp [NatSet.mem]
    · split
      · next h => subst h; simp [NatSet.mem]
      · simp only [NatSet.mem, ih]
        cases (a == j) <;> simp

end Sys2Proof

namespace Sys2Proof.Machine

/-! ### The canonical form -/

/-- The canonical form as a statement about all entries. -/
theorem Memory.wf_iff (m : Memory) : Memory.wf m = true ↔ m.Pairwise (fun a b => a.1 < b.1) ∧ ∀ x ∈ m, x.2 ≠ 0 := by
  induction m with
  | nil => simp [Memory.wf]
  | cons a t ih =>
    cases t with
    | nil => simp [Memory.wf]
    | cons b t =>
      simp only [Memory.wf, Bool.and_eq_true, decide_eq_true_eq, bne_iff_ne, ih, List.pairwise_cons, List.mem_cons, forall_eq_or_imp]
      constructor
      · rintro ⟨⟨h1, h2⟩, ⟨h3, h4⟩, h5, h6⟩
        exact ⟨⟨⟨h1, fun x hx => Nat.lt_trans h1 (h3 x hx)⟩, h3, h4⟩, h2, h5, h6⟩
      · rintro ⟨⟨⟨h1, -⟩, h3, h4⟩, h2, h5, h6⟩
        exact ⟨⟨h1, h2⟩, ⟨h3, h4⟩, h5, h6⟩

theorem Tbl.mem_put {α : Type} {t : Tbl α} {k : Nat} {v : α} {x : Nat × α} (h : x ∈ Tbl.put t k v) : x = (k, v) ∨ x ∈ t := by
  induction t with
  | nil => simpa [Tbl.put] using h
  | cons a t ih =>
    simp only [Tbl.put] at h
    split at h
    · simpa using h
    · split at h
      · rcases List.mem_cons.1 h with h | h
        · exact .inl h
        · exact .inr (List.mem_cons_of_mem _ h)
      · rcases List.mem_cons.1 h with h | h
        · exact .inr (h ▸ List.mem_cons_self)
        · exact (ih h).imp id (List.mem_cons_of_mem _)

theorem Tbl.mem_del {α : Type} {t : Tbl α} {k : Nat} {x : Nat × α} (h : x ∈ Tbl.del t k) : x ∈ t := by
  induction t with
  | nil => exact h
  | cons a t ih =>
    simp only [Tbl.del] at h
    split at h
    · exact List.mem_cons_of_mem _ h
    · rcases List.mem_cons.1 h with h | h
      · exact h ▸ List.mem_cons_self
      · exact List.mem_cons_of_mem _ (ih h)

theorem Tbl.sorted_put {α : Type} {t : Tbl α} (h : t.Pairwise (fun a b => a.1 < b.1)) (k : Nat) (v : α) :
    (Tbl.put t k v).Pairwise (fun a b => a.1 < b.1) := by
  induction t with
  | nil => simp [Tbl.put]
  | cons a t ih =>
    obtain ⟨i, w⟩ := a
    rw [List.pairwise_cons] at h
    simp only [Tbl.put]
    split
    · next hk =>
      refine List.pairwise_cons.2 ⟨fun x hx => ?_, List.pairwise_cons.2 h⟩
      rcases List.mem_cons.1 hx with rfl | hx
      · exact hk
      · exact Nat.lt_trans hk (h.1 x hx)
    · split
      · next hk => subst hk; exact List.pairwise_cons.2 h
      · next h1 h2 =>
        refine List.pairwise_cons.2 ⟨fun x hx => ?_, ih h.2⟩
        rcases Tbl.mem_put hx with rfl | hx
        · exact Nat.lt_of_le_of_ne (Nat.le_of_not_lt h1) h2
        · exact h.1 x hx

theorem Tbl.sorted_del {α : Type} {t : Tbl α} (h : t.Pairwise (fun a b => a.1 < b.1)) (k : Nat) :
    (Tbl.del t k).Pairwise (fun a b => a.1 < b.1) := by
  induction t with
  | nil => simp [Tbl.del]
  | cons a t ih =>
    rw [List.pairwise_cons] at h
    simp only [Tbl.del]
    split
    · exact h.2
    · exact List.pairwise_cons.2 ⟨fun x hx => h.1 x (Tbl.mem_del hx), ih h.2⟩

theorem Memory.write_wf {m : Memory} (h : Memory.wf m = true) (a : Nat) (b : Byte) : Memory.wf (Memory.write m a b) = true := by
  rw [Memory.wf_iff] at h ⊢
  unfold Memory.write
  split
  · exact ⟨Tbl.sorted_del h.1 a, fun x hx => h.2 x (Tbl.mem_del hx)⟩
  · next hb =>
    refine ⟨Tbl.sorted_put h.1 a b, fun x hx => ?_⟩
    rcases Tbl.mem_put hx with rfl | hx
    · exact hb
    · exact h.2 x hx

theorem Memory.writeL_wf {m : Memory} (h : Memory.wf m = true) (l : List (Nat × Nat)) : Memory.wf (Memory.writeL m l) = true := by
  induction l generalizing m with
  | nil => exact h
  | cons a l ih => exact ih (Memory.write_wf h a.1 _)

theorem Memory.filter_wf {m : Memory} (h : Memory.wf m = true) (f : Host.Cell → Bool) : Memory.wf (m.filter f) = true := by
  rw [Memory.wf_iff] at h ⊢
  exact ⟨h.1.filter f, fun x hx => h.2 x (List.mem_filter.1 hx).1⟩

/-! ### Banks -/

theorem Bank.store_wf {k : Bank} (h : Memory.wf k.mem = true) (l : List (Nat × Nat)) : Memory.wf (k.store l).mem = true :=
  Memory.writeL_wf h l

theorem Bank.storePois_wf {k : Bank} (h : Memory.wf k.mem = true) (l : List (Nat × Nat)) : Memory.wf (k.storePois l).mem = true :=
  Memory.writeL_wf h l

@[simp] theorem Bank.fill_mem (k : Bank) (l : List Nat) : (k.fill l).mem = k.mem := rfl
@[simp] theorem Bank.drain_mem (k : Bank) (l : List Nat) : (k.drain l).mem = k.mem := rfl

/-! ### Reading after a write -/

@[simp] theorem Memory.read_nil (a : Nat) : Memory.read [] a = 0 := rfl

theorem Memory.read_write_ne (m : Memory) {a c : Nat} (b : Byte) (h : c ≠ a) :
    Memory.read (Memory.write m a b) c = Memory.read m c := by
  unfold Memory.read Memory.write
  split
  · exact Tbl.get_del_ne _ _ h
  · exact Tbl.get_put_ne _ _ _ h

theorem Tbl.get_del_self {α : Type} (d : α) {t : Tbl α} (h : t.Pairwise (fun a b => a.1 < b.1)) (k : Nat) :
    Tbl.get d (Tbl.del t k) k = d := by
  induction t with
  | nil => rfl
  | cons a t ih =>
    obtain ⟨i, w⟩ := a
    rw [List.pairwise_cons] at h
    simp only [Tbl.del]
    split
    · next hk => subst hk; exact Tbl.get_of_lt _ _ _ h.1
    · next hk => simp [Tbl.get, hk, ih h.2]

end Sys2Proof.Machine
end

