-- ==== Sys2Proof/Laws/Access.lean ====
section
/-! SUPPORT. Reading a unit, a context, a register after an update of one. -/

namespace Sys2Proof.Machine

/-! ### Units -/

@[simp] theorem State.core_setCore_self (s : State) (p : Nat) (c : PCore) : (s.setCore p c).core p = c := by
  simp [State.core, State.setCore]
theorem State.core_setCore_ne (s : State) (c : PCore) {p q : Nat} (h : q ≠ p) : (s.setCore p c).core q = s.core q :=
  Tbl.get_put_ne _ _ _ h
@[simp] theorem State.core_modCore_self (s : State) (p : Nat) (f : PCore → PCore) : (s.modCore p f).core p = f (s.core p) := by
  simp [State.modCore]
theorem State.core_modCore_ne (s : State) (f : PCore → PCore) {p q : Nat} (h : q ≠ p) : (s.modCore p f).core q = s.core q :=
  Tbl.get_put_ne _ _ _ h

@[simp] theorem State.lcore_setLcore_self (s : State) (l : Nat) (c : LCore) : (s.setLcore l c).lcore l = c := by
  simp [State.lcore, State.setLcore]
theorem State.lcore_setLcore_ne (s : State) (c : LCore) {l k : Nat} (h : k ≠ l) : (s.setLcore l c).lcore k = s.lcore k :=
  Tbl.get_put_ne _ _ _ h
@[simp] theorem State.lcore_modLcore_self (s : State) (l : Nat) (f : LCore → LCore) : (s.modLcore l f).lcore l = f (s.lcore l) := by
  simp [State.modLcore]
theorem State.lcore_modLcore_ne (s : State) (f : LCore → LCore) {l k : Nat} (h : k ≠ l) : (s.modLcore l f).lcore k = s.lcore k :=
  Tbl.get_put_ne _ _ _ h

@[simp] theorem State.die_setDie_self (s : State) (d : Nat) (x : Die) : (s.setDie d x).die d = x := by
  simp [State.die, State.setDie]
theorem State.die_setDie_ne (s : State) (x : Die) {d e : Nat} (h : e ≠ d) : (s.setDie d x).die e = s.die e :=
  Tbl.get_put_ne _ _ _ h
@[simp] theorem State.die_modDie_self (s : State) (d : Nat) (f : Die → Die) : (s.modDie d f).die d = f (s.die d) := by
  simp [State.modDie]
theorem State.die_modDie_ne (s : State) (f : Die → Die) {d e : Nat} (h : e ≠ d) : (s.modDie d f).die e = s.die e :=
  Tbl.get_put_ne _ _ _ h

@[simp] theorem State.task_setTask_self (s : State) (i : Nat) (t : Task) : (s.setTask i t).task i = t := by
  simp [State.task, State.setTask]
@[simp] theorem State.task_modTask_self (s : State) (i : Nat) (f : Task → Task) : (s.modTask i f).task i = f (s.task i) := by
  simp [State.modTask]

/-! ### Contexts -/

@[simp] theorem State.ctxAt_setCtxAt_self (s : State) (p c : Nat) (k : Ctx) : (s.setCtxAt p c k).ctxAt p c = k := by
  simp [State.ctxAt, State.setCtxAt]
theorem State.ctxAt_setCtxAt_ne (s : State) (k : Ctx) {p c q d : Nat} (h : q ≠ p ∨ d ≠ c) :
    (s.setCtxAt p c k).ctxAt q d = s.ctxAt q d := by
  unfold State.ctxAt State.setCtxAt
  by_cases e : q = p
  · subst e
    have hd : d ≠ c := h.resolve_left (fun n => n rfl)
    simp [Tbl.get_put_ne _ _ _ hd]
  · rw [State.core_modCore_ne _ _ e]

@[simp] theorem State.cx_setCx (s : State) (k : Ctx) : (s.setCx k).cx = k := by simp [State.cx, State.setCx]
@[simp] theorem State.cx_modCx (s : State) (f : Ctx → Ctx) : (s.modCx f).cx = f s.cx := by simp [State.modCx]
@[simp] theorem State.ar_setAr (s : State) (a : Arch) : (s.setAr a).ar = a := by simp [State.ar, State.setAr]
@[simp] theorem State.ar_modAr (s : State) (f : Arch → Arch) : (s.modAr f).ar = f s.ar := by simp [State.modAr]
@[simp] theorem State.cx_setAr (s : State) (a : Arch) : (s.setAr a).cx = { s.cx with arch := a } := by simp [State.setAr]
@[simp] theorem State.cx_modAr (s : State) (f : Arch → Arch) : (s.modAr f).cx = { s.cx with arch := f s.ar } := by
  simp [State.modAr]
@[simp] theorem State.modBun_bun (s : State) (f : Bun → Bun) : (s.modBun f).bun = f s.bun := rfl
@[simp] theorem State.modBun_cx (s : State) (f : Bun → Bun) : (s.modBun f).cx = s.cx := rfl
@[simp] theorem State.modBun_ar (s : State) (f : Bun → Bun) : (s.modBun f).ar = s.ar := rfl

/-- An update of the issuing context leaves every other context as it is. -/
theorem State.ctxAt_modCx_ne (s : State) (f : Ctx → Ctx) {q d : Nat} (h : q ≠ s.cur ∨ d ≠ s.ctx) :
    (s.modCx f).ctxAt q d = s.ctxAt q d := State.ctxAt_setCtxAt_ne s _ h
theorem State.ctxAt_modAr_ne (s : State) (f : Arch → Arch) {q d : Nat} (h : q ≠ s.cur ∨ d ≠ s.ctx) :
    (s.modAr f).ctxAt q d = s.ctxAt q d := State.ctxAt_setCtxAt_ne s _ h

/-! ### Registers -/

@[simp] theorem Arch.getX_zero (a : Arch) : a.getX 0 = 0 := rfl
@[simp] theorem Arch.setX_zero (a : Arch) (v : Word) : a.setX 0 v = a := rfl
@[simp] theorem Arch.getP_zero (a : Arch) : a.getP 0 = BitVec.allOnes 256 := rfl
@[simp] theorem Arch.setP_zero (a : Arch) (v : Pred) : a.setP 0 v = a := rfl

theorem Arch.getX_setX_self (a : Arch) {n : Nat} (v : Word) (h : n ≠ 0) : (a.setX n v).getX n = v := by
  simp [Arch.getX, Arch.setX, h]
theorem Arch.getX_setX_ne (a : Arch) {n m : Nat} (v : Word) (h : m ≠ n) : (a.setX n v).getX m = a.getX m := by
  unfold Arch.getX Arch.setX
  split
  · rfl
  · split
    · rfl
    · exact Tbl.get_put_ne _ _ _ h
theorem Arch.getP_setP_self (a : Arch) {n : Nat} (v : Pred) (h : n ≠ 0) : (a.setP n v).getP n = v := by
  simp [Arch.getP, Arch.setP, h]
@[simp] theorem Arch.getSr_setSr_self (a : Arch) (n : Nat) (v : Word) : (a.setSr n v).getSr n = v := by
  simp [Arch.getSr, Arch.setSr]
theorem Arch.getSr_setSr_ne (a : Arch) {n m : Nat} (v : Word) (h : m ≠ n) : (a.setSr n v).getSr m = a.getSr m :=
  Tbl.get_put_ne _ _ _ h

end Sys2Proof.Machine
end

