-- ==== Sys2Proof/Laws/Issue.lean ====
section
/-! SUPPORT. Everything that the operations shared by the instructions can do: issuing one, a result in flight, an operation kept for
its commit, a landing. -/

namespace Sys2Proof.Machine

/-! ### Issuing one operation -/

/-- An operation of a bundle whose checks have been made has its effect. -/
theorem State.runOp_checked (i : Instr) (f : State → State) (s : State) (h : s.bun.checked = true) : s.runOp i f = .next (f s) := by
  simp [State.runOp, h]

/-- An operation that passes its own checks has its effect. -/
theorem State.runOp_ok (i : Instr) (f : State → State) (s : State) (h : s.opCheck i = .ok) : s.runOp i f = .next (f s) := by
  simp [State.runOp, h]

/-- An operation that passes its checks, made now or with its bundle's, has its effect. -/
theorem State.runOp_go (i : Instr) (f : State → State) (s : State) (h : s.bun.checked = true ∨ s.opCheck i = .ok) :
    s.runOp i f = .next (f s) := h.elim (State.runOp_checked i f s) (State.runOp_ok i f s)

/-- An operation always answers a next state. -/
theorem State.runOp_next (i : Instr) (f : State → State) (s : State) : ∃ t, s.runOp i f = .next t := by
  unfold State.runOp
  split
  · exact ⟨_, rfl⟩
  · split <;> exact ⟨_, rfl⟩

/-- The three things that an operation can do. -/
theorem State.runOp_cases {i : Instr} {f : State → State} {s t : State} (h : s.runOp i f = .next t) :
    t = f s ∨ (∃ w, s.opCheck i = .wait w ∧ t = (s.holdOp i w).tick) ∨ (∃ e, s.opCheck i = .trap e ∧ t = s.stopOp i e) := by
  unfold State.runOp at h
  split at h
  · exact .inl (by cases h; rfl)
  · split at h
    · exact .inl (by cases h; rfl)
    · next w hw => exact .inr (.inl ⟨w, hw, by cases h; rfl⟩)
    · next e he => exact .inr (.inr ⟨e, he, by cases h; rfl⟩)

/-! ### A result in flight -/

/-- A scalar, predicate or other plain result: the live state gains one entry of the results in flight, and nothing else changes. -/
theorem State.ar_out (s : State) {k : RKind} (n lat v : Nat) (p : Option Nat) (h : k ≠ .v) :
    (s.out k n lat v p).ar = { s.ar with inflight := insertLanding ⟨s.cyc + lat, s.cyc, s.slot, s.bun.pc, k, n, v, p⟩ s.ar.inflight } := by
  simp [State.out, h]

/-- A vector result also takes storage for its register. -/
theorem State.ar_outV (s : State) (d lat v : Nat) :
    (s.outV d lat v).ar = { s.ar.allocV s.cyc d with
      inflight := insertLanding ⟨s.cyc + lat, s.cyc, s.slot, s.bun.pc, .v, d, v, none⟩ (s.ar.allocV s.cyc d).inflight } := by
  simp [State.outV, State.out]

/-- A result in flight is a change of the issuing context's registers alone. -/
theorem State.out_eq (s : State) (k : RKind) (n lat v : Nat) (p : Option Nat) : ∃ f, s.out k n lat v p = s.modAr f := ⟨_, rfl⟩

theorem insertLanding_mem {l m : Landing} {ls : List Landing} : m ∈ insertLanding l ls ↔ m = l ∨ m ∈ ls := by
  induction ls with
  | nil => simp [insertLanding]
  | cons a t ih =>
    simp only [insertLanding]
    split
    · simp
    · simp only [List.mem_cons, ih]; tauto

/-! ### Operations kept for the commit -/

theorem State.defer_eq (s : State) (i : Instr) (vals : List Nat) :
    s.defer i vals = { s with bun := { s.bun with ops := s.bun.ops ++ [⟨s.slot, i, vals, 0, none⟩] } } := rfl

/-! ### A landing (R60, R95) -/

/-- A landing changes no scalar register but its own. -/
theorem Arch.getX_landReg_ne (a : Arch) (l : Landing) {n : Nat} (h : l.kind = .x → n ≠ l.num) : (a.landReg l).getX n = a.getX n := by
  unfold Arch.landReg
  split
  · next hk =>
    have hn : n ≠ l.num := h hk
    split
    · rfl
    · split
      · rfl
      · exact Arch.getX_setX_ne _ _ hn
  · cases l.pois <;> rfl
  · simp only [Arch.setP]; split <;> rfl
  all_goals rfl

/-- A clean scalar landing writes its register and clears its poison mark. -/
theorem Arch.getX_landReg_self (a : Arch) (l : Landing) (hk : l.kind = .x) (hn : l.num ≠ 0) (hp : l.pois = none) :
    (a.landReg l).getX l.num = BitVec.ofNat 64 l.val := by
  unfold Arch.landReg
  rw [hk]
  simp [hn, hp, Arch.getX, Arch.setX]

/-- A landing in x0 changes no register. -/
theorem Arch.landReg_x0 (a : Arch) (l : Landing) (hk : l.kind = .x) (hn : l.num = 0) : a.landReg l = a := by
  unfold Arch.landReg
  rw [hk]
  simp [hn]

end Sys2Proof.Machine
end

