-- ==== Sys2Proof/Laws/Check.lean ====
section
/-! SUPPORT. When the checks of an operation pass: its registers are ready, no acquire holds it back, its own checks pass. -/

namespace Sys2Proof.Machine

@[simp] theorem Chk.ok_andThen (c : Chk) : Chk.ok.andThen c = c := rfl
@[simp] theorem Chk.when_false (c : Chk) : Chk.when false c = .ok := rfl
@[simp] theorem Chk.when_true (c : Chk) : Chk.when true c = c := rfl
@[simp] theorem Chk.ofRes_ok {α : Type} (f : α → Chk) (a : α) : Chk.ofRes f (.ok a) = f a := rfl
@[simp] theorem Chk.ofRes_error {α : Type} (f : α → Chk) (t : Trap) : Chk.ofRes f (.error t) = .trap t := rfl

theorem Chk.all_ok : ∀ {l : List Chk}, (∀ c ∈ l, c = .ok) → Chk.all l = .ok
  | [], _ => rfl
  | c :: l, h => by
    rw [Chk.all, h c (List.mem_cons_self ..)]
    exact Chk.all_ok (fun d hd => h d (List.mem_cons_of_mem _ hd))

/-- The same where a wait among the answers goes before a trap. -/
theorem Chk.join_ok {l : List Chk} (h : ∀ c ∈ l, c = .ok) : Chk.join l = .ok := by
  have hw : l.find? (fun c => c.waits && !c.replays) = none := List.find?_eq_none.2 (fun c hc => by simp [h c hc, Chk.waits])
  have hs : l.find? Chk.isStale = none := List.find?_eq_none.2 (fun c hc => by simp [h c hc, Chk.isStale])
  have hf : l.find? Chk.waits = none := List.find?_eq_none.2 (fun c hc => by simp [h c hc, Chk.waits])
  rw [Chk.join, hw, hs, hf]
  exact Chk.all_ok h

/-- A scalar register whose loads have arrived and that carries no mark can be read. -/
theorem State.chkX_ok {s : State} {n : Nat} (h : s.ar.awaited .x n = none) (hp : Tbl.has s.ar.xpois n = false) : s.chkX n = .ok := by
  simp [State.chkX, State.chkAwaited, h, hp]

/-- A vector source that is ready can be read. -/
theorem State.chkV_ok {s : State} {l : List Nat} (h : s.vReady l) {n : Nat} (hn : n ∈ l) : s.chkV n = .ok := by
  have q := h n hn
  unfold State.chkV
  split
  · next hs => simpa [hs] using q
  · next hs =>
    simp only [hs, if_false] at q
    simp [State.chkAwaited, q.1, q.2.1, q.2.2]

/-- The registers of an operation can be read and written. -/
theorem State.chkReads_ok {s : State} {i : Instr} (hx : s.xReady i.xsrcs) (hv : s.vReady i.vsrcs) (hp : s.pReady i.psrcs)
    (hd : s.dReady i.vdests) :
    s.chkReads i = .ok := by
  refine Chk.join_ok (fun c hc => ?_)
  simp only [List.mem_append, List.mem_map, List.mem_filter, decide_eq_true_eq] at hc
  obtain ((⟨n, hn, rfl⟩ | ⟨n, hn, rfl⟩) | ⟨n, hn, rfl⟩) | ⟨n, ⟨hn, hs⟩, rfl⟩ := hc
  · exact State.chkX_ok (hx n hn).1 (hx n hn).2
  · exact State.chkV_ok hv hn
  · simp [State.chkP, hp n hn]
  · exact hd n hn hs

/-- An operation other than MMAP whose registers are ready and whose own checks pass may issue. -/
theorem State.opCheck_ok {s : State} {i : Instr} (h : s.ReadyFor i) (ho : s.chkOp i = .ok) (hj : s.chkJump i = .ok)
    (hm : ∀ x b n w, i ≠ .mmap x b n w) : s.opCheck i = .ok := by
  have hr := State.chkReads_ok h.x h.v h.p h.d
  have ha : (if i.accesses then s.chkAcquired else .ok) = Chk.ok := by
    split
    · next e => simp [State.chkAcquired, h.acq e]
    · rfl
  have hq : (i.needsMatrix && !s.matFree) = false := by
    cases e : i.needsMatrix
    · rfl
    · simp [h.mat e]
  rw [State.opCheck]
  · simp only [hq, ha, hr, ho, hj, Chk.ok_andThen, Bool.false_eq_true, if_false]
  · exact fun x b n w he => hm x b n w he

/-- An operation that is ready has its effect, whether its checks are made now or with its bundle's. -/
theorem State.runOp_ready {s : State} {i : Instr} (f : State → State) (h : s.ReadyFor i) (ho : s.chkOp i = .ok) (hj : s.chkJump i = .ok)
    (hm : ∀ x b n w, i ≠ .mmap x b n w) : s.runOp i f = .next (f s) := State.runOp_go i f s (.inr (State.opCheck_ok h ho hj hm))

/-- An operation on scalar registers alone is ready where its sources are. -/
theorem State.ReadyFor.of_x {s : State} {i : Instr} (hx : s.xReady i.xsrcs) (hv : i.vsrcs = []) (hd : i.vdests = [])
    (hm : i.accesses = false) (hc : i.needsMatrix = false) (hp : i.psrcs = [] := by rfl) : s.ReadyFor i :=
  ⟨hx, by simp [State.vReady, hv], by simp [State.pReady, hp], by simp [State.dReady, hd], by simp [hm], by simp [hc]⟩

/-- The same of an operation that accesses memory, with no acquire pending. -/
theorem State.ReadyFor.of_mem {s : State} {i : Instr} (hx : s.xReady i.xsrcs) (hv : i.vsrcs = []) (hd : i.vdests = [])
    (ha : s.acquires = []) (hc : i.needsMatrix = false) (hp : i.psrcs = [] := by rfl) : s.ReadyFor i :=
  ⟨hx, by simp [State.vReady, hv], by simp [State.pReady, hp], by simp [State.dReady, hd], fun _ => ha, by simp [hc]⟩

/-- A release that no unperformed access holds back may be made, in whatever cycle and slot. -/
theorem State.openBefore_ok {s : State} (h : s.releaseReady) (c n : Nat) : s.openBefore c n = false := by
  have hl : s.ar.loads.any (fun q => q.area % 2 == 1 && (q.waits || q.cyc ≤ s.ar.scyc) && before q.iss q.slot c n) = false := by
    simp only [List.any_eq_false, Bool.and_eq_true, beq_iff_eq, Bool.or_eq_true, decide_eq_true_eq, not_and, Bool.not_eq_true]
    intro q hq ha
    have := h.loads q hq ha.1
    have hw := ha.2
    simp only [this.1, Bool.false_eq_true, false_or] at hw
    omega
  have hf : s.cx.frameLoads.any (fun q => q.area % 2 == 1) = false := by
    simp only [List.any_eq_false, beq_iff_eq]
    exact fun q hq => by simp [h.frames q hq]
  have hp : s.parts.any (fun p => p.task == s.tid && p.cmd == 0 && before p.iss p.slot c n) = false := by
    simp only [List.any_eq_false, Bool.and_eq_true, beq_iff_eq, not_and]
    intro p hp ht
    rcases h.parts p hp with g | g
    · exact absurd ht.1 g
    · exact absurd ht.2 g
  rw [State.openBefore, hl, hf, h.fabric, h.tickets, hp]
  rfl

theorem State.chkReleased_ok {s : State} (h : s.releaseReady) : s.chkReleased = .ok := by
  simp [State.chkReleased, State.openBefore_ok h]

end Sys2Proof.Machine
end

