-- ==== Sys2Proof/Laws/Fields.lean ====
section
/-! SUPPORT. Fields of words that the encoder builds. -/

namespace Sys2Proof

/-- A field lies above the low part of a sum. -/
theorem fld_high {x y k hi lo : Nat} (hy : y < 2 ^ k) (h : k ≤ lo) (h' : lo ≤ hi) :
    fld (x * 2 ^ k + y) hi lo = fld x (hi - k) (lo - k) := by
  unfold fld
  have e : 2 ^ lo = 2 ^ k * 2 ^ (lo - k) := by rw [← Nat.pow_add]; congr 1; omega
  rw [e, ← Nat.div_div_eq_div_mul, Nat.mul_comm x, Nat.mul_add_div (Nat.two_pow_pos k), Nat.div_eq_of_lt hy, Nat.add_zero]
  congr 2
  omega

/-- A field lies in the low part of a sum. -/
theorem fld_low {x y k hi lo : Nat} (h : hi < k) (h' : lo ≤ hi) : fld (x * 2 ^ k + y) hi lo = fld y hi lo := by
  unfold fld
  have e : 2 ^ k = 2 ^ (k - lo) * 2 ^ lo := by rw [← Nat.pow_add]; congr 1; omega
  have e2 : 2 ^ (k - lo) = 2 ^ (hi + 1 - lo) * 2 ^ (k - hi - 1) := by rw [← Nat.pow_add]; congr 1; omega
  rw [e, ← Nat.mul_assoc, Nat.add_comm, Nat.add_mul_div_right _ _ (Nat.two_pow_pos lo), e2,
    Nat.mul_left_comm, Nat.add_mul_mod_self_left]

/-- A field that takes the whole of a small number. -/
theorem fld_whole {x hi : Nat} (h : x < 2 ^ (hi + 1)) : fld x hi 0 = x := by
  unfold fld
  simpa using Nat.mod_eq_of_lt h

/-- A field of zero. -/
@[simp] theorem fld_zero (hi lo : Nat) : fld 0 hi lo = 0 := by simp [fld]

end Sys2Proof
end

