-- ==== Sys2Proof/Laws/PerInstr.lean ====
section
/-! SUPPORT. One fact about the encoding of each instruction: its words. -/

namespace Sys2Proof.Laws.Shape

/-- No instruction has more than two words, and one of a slot has at least one (R39). -/
def Statement (i : Instr) : Prop :=
  (encode i).length ≤ 2 ∧ (i.cls.isSome = true → encode i ≠ [])

theorem nop (bh ck ic ilv : Nat) : Statement (.nop bh ck ic ilv) := ⟨Nat.le_of_ble_eq_true rfl, fun h => Bool.noConfusion h⟩
theorem add (d a b : Nat) : Statement (.add d a b) := ⟨Nat.le_of_ble_eq_true rfl, fun _ => List.cons_ne_nil _ _⟩
theorem sub (d a b : Nat) : Statement (.sub d a b) := ⟨Nat.le_of_ble_eq_true rfl, fun _ => List.cons_ne_nil _ _⟩
theorem mul (d a b : Nat) : Statement (.mul d a b) := ⟨Nat.le_of_ble_eq_true rfl, fun _ => List.cons_ne_nil _ _⟩
theorem mulh (d a b : Nat) : Statement (.mulh d a b) := ⟨Nat.le_of_ble_eq_true rfl, fun _ => List.cons_ne_nil _ _⟩
theorem div (d a b : Nat) : Statement (.div d a b) := ⟨Nat.le_of_ble_eq_true rfl, fun _ => List.cons_ne_nil _ _⟩
theorem divn (d a b : Nat) : Statement (.divn d a b) := ⟨Nat.le_of_ble_eq_true rfl, fun _ => List.cons_ne_nil _ _⟩
theorem rem (d a b : Nat) : Statement (.rem d a b) := ⟨Nat.le_of_ble_eq_true rfl, fun _ => List.cons_ne_nil _ _⟩
theorem remn (d a b : Nat) : Statement (.remn d a b) := ⟨Nat.le_of_ble_eq_true rfl, fun _ => List.cons_ne_nil _ _⟩
theorem and (d a b : Nat) : Statement (.and d a b) := ⟨Nat.le_of_ble_eq_true rfl, fun _ => List.cons_ne_nil _ _⟩
theorem or (d a b : Nat) : Statement (.or d a b) := ⟨Nat.le_of_ble_eq_true rfl, fun _ => List.cons_ne_nil _ _⟩
theorem xor (d a b : Nat) : Statement (.xor d a b) := ⟨Nat.le_of_ble_eq_true rfl, fun _ => List.cons_ne_nil _ _⟩
theorem shl (d a b : Nat) : Statement (.shl d a b) := ⟨Nat.le_of_ble_eq_true rfl, fun _ => List.cons_ne_nil _ _⟩
theorem shrl (d a b : Nat) : Statement (.shrl d a b) := ⟨Nat.le_of_ble_eq_true rfl, fun _ => List.cons_ne_nil _ _⟩
theorem shra (d a b : Nat) : Statement (.shra d a b) := ⟨Nat.le_of_ble_eq_true rfl, fun _ => List.cons_ne_nil _ _⟩
theorem min (d a b : Nat) : Statement (.min d a b) := ⟨Nat.le_of_ble_eq_true rfl, fun _ => List.cons_ne_nil _ _⟩
theorem max (d a b : Nat) : Statement (.max d a b) := ⟨Nat.le_of_ble_eq_true rfl, fun _ => List.cons_ne_nil _ _⟩
theorem minn (d a b : Nat) : Statement (.minn d a b) := ⟨Nat.le_of_ble_eq_true rfl, fun _ => List.cons_ne_nil _ _⟩
theorem maxn (d a b : Nat) : Statement (.maxn d a b) := ⟨Nat.le_of_ble_eq_true rfl, fun _ => List.cons_ne_nil _ _⟩
theorem cmp (d a b c : Nat) : Statement (.cmp d a b c) := ⟨Nat.le_of_ble_eq_true rfl, fun _ => List.cons_ne_nil _ _⟩
theorem sel (d a b xc : Nat) : Statement (.sel d a b xc) := ⟨Nat.le_of_ble_eq_true rfl, fun _ => List.cons_ne_nil _ _⟩
theorem clz (d a : Nat) : Statement (.clz d a) := ⟨Nat.le_of_ble_eq_true rfl, fun _ => List.cons_ne_nil _ _⟩
theorem popc (d a : Nat) : Statement (.popc d a) := ⟨Nat.le_of_ble_eq_true rfl, fun _ => List.cons_ne_nil _ _⟩
theorem bfx (d a pos lm1 sx : Nat) : Statement (.bfx d a pos lm1 sx) := ⟨Nat.le_of_ble_eq_true rfl, fun _ => List.cons_ne_nil _ _⟩
theorem bfi (d a b pos lm1 : Nat) : Statement (.bfi d a b pos lm1) := ⟨Nat.le_of_ble_eq_true rfl, fun _ => List.cons_ne_nil _ _⟩
theorem addi (d a i : Nat) : Statement (.addi d a i) := ⟨Nat.le_of_ble_eq_true rfl, fun _ => List.cons_ne_nil _ _⟩
theorem andi (d a i : Nat) : Statement (.andi d a i) := ⟨Nat.le_of_ble_eq_true rfl, fun _ => List.cons_ne_nil _ _⟩
theorem ori (d a i : Nat) : Statement (.ori d a i) := ⟨Nat.le_of_ble_eq_true rfl, fun _ => List.cons_ne_nil _ _⟩
theorem xori (d a i : Nat) : Statement (.xori d a i) := ⟨Nat.le_of_ble_eq_true rfl, fun _ => List.cons_ne_nil _ _⟩
theorem shli (d a n : Nat) : Statement (.shli d a n) := ⟨Nat.le_of_ble_eq_true rfl, fun _ => List.cons_ne_nil _ _⟩
theorem shrli (d a n : Nat) : Statement (.shrli d a n) := ⟨Nat.le_of_ble_eq_true rfl, fun _ => List.cons_ne_nil _ _⟩
theorem shrai (d a n : Nat) : Statement (.shrai d a n) := ⟨Nat.le_of_ble_eq_true rfl, fun _ => List.cons_ne_nil _ _⟩
theorem li (d i : Nat) (w : Option Nat) : Statement (.li d i w) :=
  match w with
  | none => ⟨Nat.le_of_ble_eq_true rfl, fun _ => List.cons_ne_nil _ _⟩
  | some _ => ⟨Nat.le_of_ble_eq_true rfl, fun _ => List.cons_ne_nil _ _⟩
theorem lih (d i : Nat) : Statement (.lih d i) := ⟨Nat.le_of_ble_eq_true rfl, fun _ => List.cons_ne_nil _ _⟩
theorem fadd (d a b r : Nat) : Statement (.fadd d a b r) := ⟨Nat.le_of_ble_eq_true rfl, fun _ => List.cons_ne_nil _ _⟩
theorem fmul (d a b r : Nat) : Statement (.fmul d a b r) := ⟨Nat.le_of_ble_eq_true rfl, fun _ => List.cons_ne_nil _ _⟩
theorem ffma (d a b xc r : Nat) : Statement (.ffma d a b xc r) := ⟨Nat.le_of_ble_eq_true rfl, fun _ => List.cons_ne_nil _ _⟩
theorem fcmp (d a b c : Nat) : Statement (.fcmp d a b c) := ⟨Nat.le_of_ble_eq_true rfl, fun _ => List.cons_ne_nil _ _⟩
theorem fcvt (d a : Nat) (w : CW) : Statement (.fcvt d a w) := ⟨Nat.le_of_ble_eq_true rfl, fun _ => List.cons_ne_nil _ _⟩
theorem movs (d n : Nat) : Statement (.movs d n) := ⟨Nat.le_of_ble_eq_true rfl, fun _ => List.cons_ne_nil _ _⟩
theorem movd (a n : Nat) : Statement (.movd a n) := ⟨Nat.le_of_ble_eq_true rfl, fun _ => List.cons_ne_nil _ _⟩
theorem engctlResume (p c k : Nat) : Statement (.engctlResume p c k) := ⟨Nat.zero_le 2, fun h => Bool.noConfusion h⟩
theorem engctlCancel (p c k : Nat) : Statement (.engctlCancel p c k) := ⟨Nat.zero_le 2, fun h => Bool.noConfusion h⟩
theorem sete (a k s i : Nat) : Statement (.sete a k s i) := ⟨Nat.le_of_ble_eq_true rfl, fun _ => List.cons_ne_nil _ _⟩
theorem ldg (z d a i : Nat) (w : Option MW) : Statement (.ldg z d a i w) :=
  match w with
  | none => ⟨Nat.le_of_ble_eq_true rfl, fun _ => List.cons_ne_nil _ _⟩
  | some _ => ⟨Nat.le_of_ble_eq_true rfl, fun _ => List.cons_ne_nil _ _⟩
theorem stg (z s a i : Nat) (w : Option MW) : Statement (.stg z s a i w) :=
  match w with
  | none => ⟨Nat.le_of_ble_eq_true rfl, fun _ => List.cons_ne_nil _ _⟩
  | some _ => ⟨Nat.le_of_ble_eq_true rfl, fun _ => List.cons_ne_nil _ _⟩
theorem ldl (z d a i : Nat) (w : Option MW) : Statement (.ldl z d a i w) :=
  match w with
  | none => ⟨Nat.le_of_ble_eq_true rfl, fun _ => List.cons_ne_nil _ _⟩
  | some _ => ⟨Nat.le_of_ble_eq_true rfl, fun _ => List.cons_ne_nil _ _⟩
theorem stl (z s a i : Nat) (w : Option MW) : Statement (.stl z s a i w) :=
  match w with
  | none => ⟨Nat.le_of_ble_eq_true rfl, fun _ => List.cons_ne_nil _ _⟩
  | some _ => ⟨Nat.le_of_ble_eq_true rfl, fun _ => List.cons_ne_nil _ _⟩
theorem br (a b c off : Nat) : Statement (.br a b c off) := ⟨Nat.le_of_ble_eq_true rfl, fun _ => List.cons_ne_nil _ _⟩
theorem j (o : Nat) : Statement (.j o) := ⟨Nat.le_of_ble_eq_true rfl, fun _ => List.cons_ne_nil _ _⟩
theorem call (o : Nat) : Statement (.call o) := ⟨Nat.le_of_ble_eq_true rfl, fun _ => List.cons_ne_nil _ _⟩
theorem jr (a : Nat) : Statement (.jr a) := ⟨Nat.le_of_ble_eq_true rfl, fun _ => List.cons_ne_nil _ _⟩
theorem callr (d a : Nat) : Statement (.callr d a) := ⟨Nat.le_of_ble_eq_true rfl, fun _ => List.cons_ne_nil _ _⟩
theorem ret (a : Nat) : Statement (.ret a) := ⟨Nat.le_of_ble_eq_true rfl, fun _ => List.cons_ne_nil _ _⟩
theorem brt (ca cb cc neg cd off : Nat) : Statement (.brt ca cb cc neg cd off) := ⟨Nat.le_of_ble_eq_true rfl, fun _ => List.cons_ne_nil _ _⟩
theorem loop (d a lvl src tripi last : Nat) : Statement (.loop d a lvl src tripi last) := ⟨Nat.le_of_ble_eq_true rfl, fun _ => List.cons_ne_nil _ _⟩
theorem bsw (a i : Nat) : Statement (.bsw a i) := ⟨Nat.le_of_ble_eq_true rfl, fun _ => List.cons_ne_nil _ _⟩
theorem ifence : Statement .ifence := ⟨Nat.le_of_ble_eq_true rfl, fun _ => List.cons_ne_nil _ _⟩
theorem barinit (s a : Nat) : Statement (.barinit s a) := ⟨Nat.le_of_ble_eq_true rfl, fun _ => List.cons_ne_nil _ _⟩
theorem bararr (d a n : Nat) : Statement (.bararr d a n) := ⟨Nat.le_of_ble_eq_true rfl, fun _ => List.cons_ne_nil _ _⟩
theorem barwait (d a p : Nat) : Statement (.barwait d a p) := ⟨Nat.le_of_ble_eq_true rfl, fun _ => List.cons_ne_nil _ _⟩
theorem waitcc (c n : Nat) : Statement (.waitcc c n) := ⟨Nat.le_of_ble_eq_true rfl, fun _ => List.cons_ne_nil _ _⟩
theorem fenceL : Statement .fenceL := ⟨Nat.le_of_ble_eq_true rfl, fun _ => List.cons_ne_nil _ _⟩
theorem fenceE : Statement .fenceE := ⟨Nat.le_of_ble_eq_true rfl, fun _ => List.cons_ne_nil _ _⟩
theorem gbar (d g : Nat) : Statement (.gbar d g) := ⟨Nat.le_of_ble_eq_true rfl, fun _ => List.cons_ne_nil _ _⟩
theorem gleave (g : Nat) : Statement (.gleave g) := ⟨Nat.le_of_ble_eq_true rfl, fun _ => List.cons_ne_nil _ _⟩
theorem tdec (d a n : Nat) : Statement (.tdec d a n) := ⟨Nat.le_of_ble_eq_true rfl, fun _ => List.cons_ne_nil _ _⟩
theorem endt : Statement .endt := ⟨Nat.le_of_ble_eq_true rfl, fun _ => List.cons_ne_nil _ _⟩
theorem yield : Statement .yield := ⟨Nat.le_of_ble_eq_true rfl, fun _ => List.cons_ne_nil _ _⟩
theorem tkopen (d a b td : Nat) : Statement (.tkopen d a b td) := ⟨Nat.le_of_ble_eq_true rfl, fun _ => List.cons_ne_nil _ _⟩
theorem tkadd (a b xt td : Nat) : Statement (.tkadd a b xt td) := ⟨Nat.le_of_ble_eq_true rfl, fun _ => List.cons_ne_nil _ _⟩
theorem tkmin (a b xt td : Nat) : Statement (.tkmin a b xt td) := ⟨Nat.le_of_ble_eq_true rfl, fun _ => List.cons_ne_nil _ _⟩
theorem tkmax (a b xt td : Nat) : Statement (.tkmax a b xt td) := ⟨Nat.le_of_ble_eq_true rfl, fun _ => List.cons_ne_nil _ _⟩
theorem tkskip (d a b td : Nat) : Statement (.tkskip d a b td) := ⟨Nat.le_of_ble_eq_true rfl, fun _ => List.cons_ne_nil _ _⟩
theorem tkdrain (d a td : Nat) : Statement (.tkdrain d a td) := ⟨Nat.le_of_ble_eq_true rfl, fun _ => List.cons_ne_nil _ _⟩
theorem tkstat (d a sel td : Nat) : Statement (.tkstat d a sel td) := ⟨Nat.le_of_ble_eq_true rfl, fun _ => List.cons_ne_nil _ _⟩
theorem tkclose (d a f td : Nat) : Statement (.tkclose d a f td) := ⟨Nat.le_of_ble_eq_true rfl, fun _ => List.cons_ne_nil _ _⟩
theorem aadd (d a b typ : Nat) : Statement (.aadd d a b typ) := ⟨Nat.le_of_ble_eq_true rfl, fun _ => List.cons_ne_nil _ _⟩
theorem amin (d a b typ : Nat) : Statement (.amin d a b typ) := ⟨Nat.le_of_ble_eq_true rfl, fun _ => List.cons_ne_nil _ _⟩
theorem amax (d a b typ : Nat) : Statement (.amax d a b typ) := ⟨Nat.le_of_ble_eq_true rfl, fun _ => List.cons_ne_nil _ _⟩
theorem axchg (d a b typ : Nat) : Statement (.axchg d a b typ) := ⟨Nat.le_of_ble_eq_true rfl, fun _ => List.cons_ne_nil _ _⟩
theorem acas (d a b xc typ : Nat) : Statement (.acas d a b xc typ) := ⟨Nat.le_of_ble_eq_true rfl, fun _ => List.cons_ne_nil _ _⟩
theorem xferOwned (a b n1 : Nat) : Statement (.xferOwned a b n1) := ⟨Nat.le_of_ble_eq_true rfl, fun _ => List.cons_ne_nil _ _⟩
theorem xferShared (a b n1 : Nat) : Statement (.xferShared a b n1) := ⟨Nat.le_of_ble_eq_true rfl, fun _ => List.cons_ne_nil _ _⟩
theorem xferEngine (a b n1 : Nat) : Statement (.xferEngine a b n1) := ⟨Nat.le_of_ble_eq_true rfl, fun _ => List.cons_ne_nil _ _⟩
theorem xferComplete (p c : Nat) : Statement (.xferComplete p c) := ⟨Nat.zero_le 2, fun h => Bool.noConfusion h⟩
theorem lock (d a b : Nat) : Statement (.lock d a b) := ⟨Nat.le_of_ble_eq_true rfl, fun _ => List.cons_ne_nil _ _⟩
theorem unlock (d a b : Nat) : Statement (.unlock d a b) := ⟨Nat.le_of_ble_eq_true rfl, fun _ => List.cons_ne_nil _ _⟩
theorem tokacq (d a b : Nat) : Statement (.tokacq d a b) := ⟨Nat.le_of_ble_eq_true rfl, fun _ => List.cons_ne_nil _ _⟩
theorem tokrel (d a b : Nat) : Statement (.tokrel d a b) := ⟨Nat.le_of_ble_eq_true rfl, fun _ => List.cons_ne_nil _ _⟩
theorem qbind (n a dir fek add ai : Nat) (depth : Option Nat) : Statement (.qbind n a dir fek add ai depth) :=
  match depth with
  | none => ⟨Nat.le_of_ble_eq_true rfl, fun _ => List.cons_ne_nil _ _⟩
  | some _ => ⟨Nat.le_of_ble_eq_true rfl, fun _ => List.cons_ne_nil _ _⟩
theorem qunbind (n : Nat) : Statement (.qunbind n) := ⟨Nat.le_of_ble_eq_true rfl, fun _ => List.cons_ne_nil _ _⟩
theorem qsync (n : Nat) : Statement (.qsync n) := ⟨Nat.le_of_ble_eq_true rfl, fun _ => List.cons_ne_nil _ _⟩
theorem qstat (d n : Nat) : Statement (.qstat d n) := ⟨Nat.le_of_ble_eq_true rfl, fun _ => List.cons_ne_nil _ _⟩
theorem trap (n : Nat) : Statement (.trap n) := ⟨Nat.le_of_ble_eq_true rfl, fun _ => List.cons_ne_nil _ _⟩
theorem rett : Statement .rett := ⟨Nat.le_of_ble_eq_true rfl, fun _ => List.cons_ne_nil _ _⟩
theorem brk (n : Nat) : Statement (.brk n) := ⟨Nat.le_of_ble_eq_true rfl, fun _ => List.cons_ne_nil _ _⟩
theorem vadd (t d a b p : Nat) (w : Option VW) : Statement (.vadd t d a b p w) :=
  match w with
  | none => ⟨Nat.le_of_ble_eq_true rfl, fun _ => List.cons_ne_nil _ _⟩
  | some _ => ⟨Nat.le_of_ble_eq_true rfl, fun _ => List.cons_ne_nil _ _⟩
theorem vsub (t d a b p : Nat) (w : Option VW) : Statement (.vsub t d a b p w) :=
  match w with
  | none => ⟨Nat.le_of_ble_eq_true rfl, fun _ => List.cons_ne_nil _ _⟩
  | some _ => ⟨Nat.le_of_ble_eq_true rfl, fun _ => List.cons_ne_nil _ _⟩
theorem vmul (t d a b p : Nat) (w : Option VW) : Statement (.vmul t d a b p w) :=
  match w with
  | none => ⟨Nat.le_of_ble_eq_true rfl, fun _ => List.cons_ne_nil _ _⟩
  | some _ => ⟨Nat.le_of_ble_eq_true rfl, fun _ => List.cons_ne_nil _ _⟩
theorem vfma (t d a b p : Nat) (w : VW) : Statement (.vfma t d a b p w) := ⟨Nat.le_of_ble_eq_true rfl, fun _ => List.cons_ne_nil _ _⟩
theorem vmin (t d a b p : Nat) : Statement (.vmin t d a b p) := ⟨Nat.le_of_ble_eq_true rfl, fun _ => List.cons_ne_nil _ _⟩
theorem vmax (t d a b p : Nat) : Statement (.vmax t d a b p) := ⟨Nat.le_of_ble_eq_true rfl, fun _ => List.cons_ne_nil _ _⟩
theorem vabs (t d a p : Nat) (w : Option VW) : Statement (.vabs t d a p w) :=
  match w with
  | none => ⟨Nat.le_of_ble_eq_true rfl, fun _ => List.cons_ne_nil _ _⟩
  | some _ => ⟨Nat.le_of_ble_eq_true rfl, fun _ => List.cons_ne_nil _ _⟩
theorem vneg (t d a p : Nat) (w : Option VW) : Statement (.vneg t d a p w) :=
  match w with
  | none => ⟨Nat.le_of_ble_eq_true rfl, fun _ => List.cons_ne_nil _ _⟩
  | some _ => ⟨Nat.le_of_ble_eq_true rfl, fun _ => List.cons_ne_nil _ _⟩
theorem vcmp (t d a b p cond : Nat) : Statement (.vcmp t d a b p cond) := ⟨Nat.le_of_ble_eq_true rfl, fun _ => List.cons_ne_nil _ _⟩
theorem vred (t d a o p : Nat) : Statement (.vred t d a o p) := ⟨Nat.le_of_ble_eq_true rfl, fun _ => List.cons_ne_nil _ _⟩
theorem vscan (t d a o p : Nat) : Statement (.vscan t d a o p) := ⟨Nat.le_of_ble_eq_true rfl, fun _ => List.cons_ne_nil _ _⟩
theorem vshl (w d a b p : Nat) : Statement (.vshl w d a b p) := ⟨Nat.le_of_ble_eq_true rfl, fun _ => List.cons_ne_nil _ _⟩
theorem vshrI (w d a b p : Nat) : Statement (.vshrI w d a b p) := ⟨Nat.le_of_ble_eq_true rfl, fun _ => List.cons_ne_nil _ _⟩
theorem vshrN (w d a b p : Nat) : Statement (.vshrN w d a b p) := ⟨Nat.le_of_ble_eq_true rfl, fun _ => List.cons_ne_nil _ _⟩
theorem vand (d a b p : Nat) : Statement (.vand d a b p) := ⟨Nat.le_of_ble_eq_true rfl, fun _ => List.cons_ne_nil _ _⟩
theorem vor (d a b p : Nat) : Statement (.vor d a b p) := ⟨Nat.le_of_ble_eq_true rfl, fun _ => List.cons_ne_nil _ _⟩
theorem vxor (d a b p : Nat) : Statement (.vxor d a b p) := ⟨Nat.le_of_ble_eq_true rfl, fun _ => List.cons_ne_nil _ _⟩
theorem vnot (d a p : Nat) : Statement (.vnot d a p) := ⟨Nat.le_of_ble_eq_true rfl, fun _ => List.cons_ne_nil _ _⟩
theorem vsel (w d a b p : Nat) : Statement (.vsel w d a b p) := ⟨Nat.le_of_ble_eq_true rfl, fun _ => List.cons_ne_nil _ _⟩
theorem vmov (w d a p : Nat) : Statement (.vmov w d a p) := ⟨Nat.le_of_ble_eq_true rfl, fun _ => List.cons_ne_nil _ _⟩
theorem vbcast (w d x p : Nat) : Statement (.vbcast w d x p) := ⟨Nat.le_of_ble_eq_true rfl, fun _ => List.cons_ne_nil _ _⟩
theorem vrot (w d x b p : Nat) : Statement (.vrot w d x b p) := ⟨Nat.le_of_ble_eq_true rfl, fun _ => List.cons_ne_nil _ _⟩
theorem vperm (w d a b p : Nat) : Statement (.vperm w d a b p) := ⟨Nat.le_of_ble_eq_true rfl, fun _ => List.cons_ne_nil _ _⟩
theorem vshuf (w d a b p : Nat) : Statement (.vshuf w d a b p) := ⟨Nat.le_of_ble_eq_true rfl, fun _ => List.cons_ne_nil _ _⟩
theorem vcompr (w d a b p : Nat) : Statement (.vcompr w d a b p) := ⟨Nat.le_of_ble_eq_true rfl, fun _ => List.cons_ne_nil _ _⟩
theorem vexpd (w d a b p : Nat) : Statement (.vexpd w d a b p) := ⟨Nat.le_of_ble_eq_true rfl, fun _ => List.cons_ne_nil _ _⟩
theorem vbcmp (d a b p : Nat) (w : Option SW) : Statement (.vbcmp d a b p w) :=
  match w with
  | none => ⟨Nat.le_of_ble_eq_true rfl, fun _ => List.cons_ne_nil _ _⟩
  | some _ => ⟨Nat.le_of_ble_eq_true rfl, fun _ => List.cons_ne_nil _ _⟩
theorem vbfind (d a b p : Nat) (w : Option SW) : Statement (.vbfind d a b p w) :=
  match w with
  | none => ⟨Nat.le_of_ble_eq_true rfl, fun _ => List.cons_ne_nil _ _⟩
  | some _ => ⟨Nat.le_of_ble_eq_true rfl, fun _ => List.cons_ne_nil _ _⟩
theorem vhash (d a b p : Nat) (fin : Option Nat) : Statement (.vhash d a b p fin) :=
  match fin with
  | none => ⟨Nat.le_of_ble_eq_true rfl, fun _ => List.cons_ne_nil _ _⟩
  | some _ => ⟨Nat.le_of_ble_eq_true rfl, fun _ => List.cons_ne_nil _ _⟩
theorem vcrc (d a b p : Nat) (nb : Option Nat) : Statement (.vcrc d a b p nb) :=
  match nb with
  | none => ⟨Nat.le_of_ble_eq_true rfl, fun _ => List.cons_ne_nil _ _⟩
  | some _ => ⟨Nat.le_of_ble_eq_true rfl, fun _ => List.cons_ne_nil _ _⟩
theorem vld (d a k p : Nat) (w : Option MW) : Statement (.vld d a k p w) :=
  match w with
  | none => ⟨Nat.le_of_ble_eq_true rfl, fun _ => List.cons_ne_nil _ _⟩
  | some _ => ⟨Nat.le_of_ble_eq_true rfl, fun _ => List.cons_ne_nil _ _⟩
theorem vst (s a k p : Nat) (w : Option MW) : Statement (.vst s a k p w) :=
  match w with
  | none => ⟨Nat.le_of_ble_eq_true rfl, fun _ => List.cons_ne_nil _ _⟩
  | some _ => ⟨Nat.le_of_ble_eq_true rfl, fun _ => List.cons_ne_nil _ _⟩
theorem vlda (d a k p : Nat) (w : Option MW) : Statement (.vlda d a k p w) :=
  match w with
  | none => ⟨Nat.le_of_ble_eq_true rfl, fun _ => List.cons_ne_nil _ _⟩
  | some _ => ⟨Nat.le_of_ble_eq_true rfl, fun _ => List.cons_ne_nil _ _⟩
theorem vsta (s a k p : Nat) (w : Option MW) : Statement (.vsta s a k p w) :=
  match w with
  | none => ⟨Nat.le_of_ble_eq_true rfl, fun _ => List.cons_ne_nil _ _⟩
  | some _ => ⟨Nat.le_of_ble_eq_true rfl, fun _ => List.cons_ne_nil _ _⟩
theorem vstaAdd (s a k p : Nat) (w : Option MW) : Statement (.vstaAdd s a k p w) :=
  match w with
  | none => ⟨Nat.le_of_ble_eq_true rfl, fun _ => List.cons_ne_nil _ _⟩
  | some _ => ⟨Nat.le_of_ble_eq_true rfl, fun _ => List.cons_ne_nil _ _⟩
theorem vtkadd (s a k p xt td : Nat) : Statement (.vtkadd s a k p xt td) := ⟨Nat.le_of_ble_eq_true rfl, fun _ => List.cons_ne_nil _ _⟩
theorem vtkmin (s a k p xt td : Nat) : Statement (.vtkmin s a k p xt td) := ⟨Nat.le_of_ble_eq_true rfl, fun _ => List.cons_ne_nil _ _⟩
theorem vtkmax (s a k p xt td : Nat) : Statement (.vtkmax s a k p xt td) := ⟨Nat.le_of_ble_eq_true rfl, fun _ => List.cons_ne_nil _ _⟩
theorem vaadd (s a k p vr ret uns : Nat) : Statement (.vaadd s a k p vr ret uns) := ⟨Nat.le_of_ble_eq_true rfl, fun _ => List.cons_ne_nil _ _⟩
theorem vamin (s a k p vr ret uns : Nat) : Statement (.vamin s a k p vr ret uns) := ⟨Nat.le_of_ble_eq_true rfl, fun _ => List.cons_ne_nil _ _⟩
theorem vamax (s a k p vr ret uns : Nat) : Statement (.vamax s a k p vr ret uns) := ⟨Nat.le_of_ble_eq_true rfl, fun _ => List.cons_ne_nil _ _⟩
theorem vaxchg (s a k p vr ret uns : Nat) : Statement (.vaxchg s a k p vr ret uns) := ⟨Nat.le_of_ble_eq_true rfl, fun _ => List.cons_ne_nil _ _⟩
theorem vexp2 (t d a p : Nat) : Statement (.vexp2 t d a p) := ⟨Nat.le_of_ble_eq_true rfl, fun _ => List.cons_ne_nil _ _⟩
theorem vlog2 (t d a p : Nat) : Statement (.vlog2 t d a p) := ⟨Nat.le_of_ble_eq_true rfl, fun _ => List.cons_ne_nil _ _⟩
theorem vrcp (t d a p : Nat) : Statement (.vrcp t d a p) := ⟨Nat.le_of_ble_eq_true rfl, fun _ => List.cons_ne_nil _ _⟩
theorem vrsq (t d a p : Nat) : Statement (.vrsq t d a p) := ⟨Nat.le_of_ble_eq_true rfl, fun _ => List.cons_ne_nil _ _⟩
theorem vtanh (t d a p : Nat) : Statement (.vtanh t d a p) := ⟨Nat.le_of_ble_eq_true rfl, fun _ => List.cons_ne_nil _ _⟩
theorem vsigm (t d a p : Nat) : Statement (.vsigm t d a p) := ⟨Nat.le_of_ble_eq_true rfl, fun _ => List.cons_ne_nil _ _⟩
theorem vcvt (d a pv pq : Nat) (w : CW) : Statement (.vcvt d a pv pq w) := ⟨Nat.le_of_ble_eq_true rfl, fun _ => List.cons_ne_nil _ _⟩
theorem vrng (d m p : Nat) : Statement (.vrng d m p) := ⟨Nat.le_of_ble_eq_true rfl, fun _ => List.cons_ne_nil _ _⟩
theorem pand (d a b : Nat) : Statement (.pand d a b) := ⟨Nat.le_of_ble_eq_true rfl, fun _ => List.cons_ne_nil _ _⟩
theorem por (d a b : Nat) : Statement (.por d a b) := ⟨Nat.le_of_ble_eq_true rfl, fun _ => List.cons_ne_nil _ _⟩
theorem pxor (d a b : Nat) : Statement (.pxor d a b) := ⟨Nat.le_of_ble_eq_true rfl, fun _ => List.cons_ne_nil _ _⟩
theorem pnot (d a : Nat) : Statement (.pnot d a) := ⟨Nat.le_of_ble_eq_true rfl, fun _ => List.cons_ne_nil _ _⟩
theorem pcnt (d a w p : Nat) : Statement (.pcnt d a w p) := ⟨Nat.le_of_ble_eq_true rfl, fun _ => List.cons_ne_nil _ _⟩
theorem rowpred (d a b p : Nat) (w : RowW) : Statement (.rowpred d a b p w) := ⟨Nat.le_of_ble_eq_true rfl, fun _ => List.cons_ne_nil _ _⟩
theorem rcwupd (d a b c : Nat) (blk : Option Nat) : Statement (.rcwupd d a b c blk) :=
  match blk with
  | none => ⟨Nat.le_of_ble_eq_true rfl, fun _ => List.cons_ne_nil _ _⟩
  | some _ => ⟨Nat.le_of_ble_eq_true rfl, fun _ => List.cons_ne_nil _ _⟩
theorem rcwadv (d a p : Nat) (blk : Option Nat) : Statement (.rcwadv d a p blk) :=
  match blk with
  | none => ⟨Nat.le_of_ble_eq_true rfl, fun _ => List.cons_ne_nil _ _⟩
  | some _ => ⟨Nat.le_of_ble_eq_true rfl, fun _ => List.cons_ne_nil _ _⟩
theorem rcwld (d a t p : Nat) (blk : Option Nat) : Statement (.rcwld d a t p blk) :=
  match blk with
  | none => ⟨Nat.le_of_ble_eq_true rfl, fun _ => List.cons_ne_nil _ _⟩
  | some _ => ⟨Nat.le_of_ble_eq_true rfl, fun _ => List.cons_ne_nil _ _⟩
theorem rcpdef (d s : Nat) : Statement (.rcpdef d s) := ⟨Nat.le_of_ble_eq_true rfl, fun _ => List.cons_ne_nil _ _⟩
theorem rcpdefEmbedded (d a : Nat) (w : RcpW) : Statement (.rcpdefEmbedded d a w) := ⟨Nat.le_of_ble_eq_true rfl, fun _ => List.cons_ne_nil _ _⟩
theorem drop (d : Nat) : Statement (.drop d) := ⟨Nat.le_of_ble_eq_true rfl, fun _ => List.cons_ne_nil _ _⟩
theorem rcpclr (d : Nat) : Statement (.rcpclr d) := ⟨Nat.le_of_ble_eq_true rfl, fun _ => List.cons_ne_nil _ _⟩
theorem rcpclrAll : Statement .rcpclrAll := ⟨Nat.le_of_ble_eq_true rfl, fun _ => List.cons_ne_nil _ _⟩
theorem rcpstat (d a : Nat) : Statement (.rcpstat d a) := ⟨Nat.le_of_ble_eq_true rfl, fun _ => List.cons_ne_nil _ _⟩
theorem ttw (a : Nat) (w : TileW) : Statement (.ttw a w) := ⟨Nat.le_of_ble_eq_true rfl, fun _ => List.cons_ne_nil _ _⟩
theorem ttr (d : Nat) (w : TileW) : Statement (.ttr d w) := ⟨Nat.le_of_ble_eq_true rfl, fun _ => List.cons_ne_nil _ _⟩
theorem mma (s b n : Nat) (w : MmaW) : Statement (.mma s b n w) := ⟨Nat.le_of_ble_eq_true rfl, fun _ => List.cons_ne_nil _ _⟩
theorem mmap (s b n : Nat) (w : MmaW) : Statement (.mmap s b n w) := ⟨Nat.le_of_ble_eq_true rfl, fun _ => List.cons_ne_nil _ _⟩
theorem mscl (n a : Nat) : Statement (.mscl n a) := ⟨Nat.le_of_ble_eq_true rfl, fun _ => List.cons_ne_nil _ _⟩
theorem mzero (n : Nat) : Statement (.mzero n) := ⟨Nat.le_of_ble_eq_true rfl, fun _ => List.cons_ne_nil _ _⟩
theorem mtile (n a : Nat) : Statement (.mtile n a) := ⟨Nat.le_of_ble_eq_true rfl, fun _ => List.cons_ne_nil _ _⟩
theorem mtileImm (n w : Nat) : Statement (.mtileImm n w) := ⟨Nat.le_of_ble_eq_true rfl, fun _ => List.cons_ne_nil _ _⟩
theorem copy (h : CHdr) : Statement (.copy h) := ⟨Nat.le_of_ble_eq_true rfl, fun _ => List.cons_ne_nil _ _⟩
theorem gath (h : CHdr) : Statement (.gath h) := ⟨Nat.le_of_ble_eq_true rfl, fun _ => List.cons_ne_nil _ _⟩
theorem exsave (h : CHdr) : Statement (.exsave h) := ⟨Nat.le_of_ble_eq_true rfl, fun _ => List.cons_ne_nil _ _⟩
theorem trunc (h : CHdr) : Statement (.trunc h) := ⟨Nat.le_of_ble_eq_true rfl, fun _ => List.cons_ne_nil _ _⟩
theorem sieve (h : CHdr) : Statement (.sieve h) := ⟨Nat.le_of_ble_eq_true rfl, fun _ => List.cons_ne_nil _ _⟩
theorem resto (h : CHdr) : Statement (.resto h) := ⟨Nat.le_of_ble_eq_true rfl, fun _ => List.cons_ne_nil _ _⟩
theorem fillGap (h : CHdr) : Statement (.fillGap h) := ⟨Nat.le_of_ble_eq_true rfl, fun _ => List.cons_ne_nil _ _⟩
theorem fillSeal (h : CHdr) : Statement (.fillSeal h) := ⟨Nat.le_of_ble_eq_true rfl, fun _ => List.cons_ne_nil _ _⟩
theorem fillRequant (h : CHdr) : Statement (.fillRequant h) := ⟨Nat.le_of_ble_eq_true rfl, fun _ => List.cons_ne_nil _ _⟩
theorem fillUnseal (h : CHdr) : Statement (.fillUnseal h) := ⟨Nat.le_of_ble_eq_true rfl, fun _ => List.cons_ne_nil _ _⟩
theorem coll (h : CHdr) : Statement (.coll h) := ⟨Nat.le_of_ble_eq_true rfl, fun _ => List.cons_ne_nil _ _⟩
theorem noteSend (h : CHdr) : Statement (.noteSend h) := ⟨Nat.le_of_ble_eq_true rfl, fun _ => List.cons_ne_nil _ _⟩
theorem noteRegister (h : CHdr) : Statement (.noteRegister h) := ⟨Nat.le_of_ble_eq_true rfl, fun _ => List.cons_ne_nil _ _⟩
theorem noteDeregister (h : CHdr) : Statement (.noteDeregister h) := ⟨Nat.le_of_ble_eq_true rfl, fun _ => List.cons_ne_nil _ _⟩
theorem notePurge (h : CHdr) : Statement (.notePurge h) := ⟨Nat.le_of_ble_eq_true rfl, fun _ => List.cons_ne_nil _ _⟩
theorem implicitCheckpoint (p c : Nat) : Statement (.implicitCheckpoint p c) := ⟨Nat.zero_le 2, fun h => Bool.noConfusion h⟩
theorem commandStart (q : QRef) : Statement (.commandStart q) := ⟨Nat.zero_le 2, fun h => Bool.noConfusion h⟩
theorem engineCompletion (q : QRef) : Statement (.engineCompletion q) := ⟨Nat.zero_le 2, fun h => Bool.noConfusion h⟩
theorem engineFault (q : QRef) : Statement (.engineFault q) := ⟨Nat.zero_le 2, fun h => Bool.noConfusion h⟩
theorem loadDataArrive (p c n : Nat) : Statement (.loadDataArrive p c n) := ⟨Nat.zero_le 2, fun h => Bool.noConfusion h⟩
theorem lateData (p c n : Nat) : Statement (.lateData p c n) := ⟨Nat.zero_le 2, fun h => Bool.noConfusion h⟩
theorem feWaitSatisfy (p c n : Nat) : Statement (.feWaitSatisfy p c n) := ⟨Nat.zero_le 2, fun h => Bool.noConfusion h⟩
theorem streamFetch (p c q : Nat) : Statement (.streamFetch p c q) := ⟨Nat.zero_le 2, fun h => Bool.noConfusion h⟩
theorem recipeReplay (p c r : Nat) : Statement (.recipeReplay p c r) := ⟨Nat.zero_le 2, fun h => Bool.noConfusion h⟩
theorem matrixResultWrite (p n : Nat) : Statement (.matrixResultWrite p n) := ⟨Nat.zero_le 2, fun h => Bool.noConfusion h⟩
theorem pairTimeout (p c : Nat) : Statement (.pairTimeout p c) := ⟨Nat.zero_le 2, fun h => Bool.noConfusion h⟩
theorem flowstoneDemand (d : Nat) : Statement (.flowstoneDemand d) := ⟨Nat.zero_le 2, fun h => Bool.noConfusion h⟩
theorem ticketPartArrive (n : Nat) : Statement (.ticketPartArrive n) := ⟨Nat.zero_le 2, fun h => Bool.noConfusion h⟩
theorem ticketPartRetry (n : Nat) : Statement (.ticketPartRetry n) := ⟨Nat.zero_le 2, fun h => Bool.noConfusion h⟩
theorem ticketGap (l td : Nat) : Statement (.ticketGap l td) := ⟨Nat.zero_le 2, fun h => Bool.noConfusion h⟩
theorem asyncTrap (p c : Nat) : Statement (.asyncTrap p c) := ⟨Nat.zero_le 2, fun h => Bool.noConfusion h⟩
theorem selectorPromotion (p c : Nat) : Statement (.selectorPromotion p c) := ⟨Nat.zero_le 2, fun h => Bool.noConfusion h⟩
theorem waitYield (p c : Nat) : Statement (.waitYield p c) := ⟨Nat.zero_le 2, fun h => Bool.noConfusion h⟩
theorem taskDispatch (p c : Nat) : Statement (.taskDispatch p c) := ⟨Nat.zero_le 2, fun h => Bool.noConfusion h⟩
theorem launchComplete (d n : Nat) : Statement (.launchComplete d n) := ⟨Nat.zero_le 2, fun h => Bool.noConfusion h⟩
theorem preempt (p c : Nat) : Statement (.preempt p c) := ⟨Nat.zero_le 2, fun h => Bool.noConfusion h⟩
theorem taskTerminate (p c : Nat) : Statement (.taskTerminate p c) := ⟨Nat.zero_le 2, fun h => Bool.noConfusion h⟩
theorem memoryError (code : ErrCode) (space : ErrPlace) (unit addr : Nat) (correctable : Bool) : Statement (.memoryError code space unit addr correctable) := ⟨Nat.zero_le 2, fun h => Bool.noConfusion h⟩
theorem thermalSample (d : Nat) (temps : List Int) (forecast : Int) : Statement (.thermalSample d temps forecast) := ⟨Nat.zero_le 2, fun h => Bool.noConfusion h⟩
theorem blackboxMirror (d : Nat) : Statement (.blackboxMirror d) := ⟨Nat.zero_le 2, fun h => Bool.noConfusion h⟩
theorem ceilingChangeApply (d : Nat) : Statement (.ceilingChangeApply d) := ⟨Nat.zero_le 2, fun h => Bool.noConfusion h⟩
theorem hbSend (d : Nat) : Statement (.hbSend d) := ⟨Nat.zero_le 2, fun h => Bool.noConfusion h⟩
theorem silenceTest (d : Nat) : Statement (.silenceTest d) := ⟨Nat.zero_le 2, fun h => Bool.noConfusion h⟩
theorem evictTimeout (d : Nat) : Statement (.evictTimeout d) := ⟨Nat.zero_le 2, fun h => Bool.noConfusion h⟩
theorem raiseDeadline (d : Nat) : Statement (.raiseDeadline d) := ⟨Nat.zero_le 2, fun h => Bool.noConfusion h⟩
theorem joinDeadline (d : Nat) : Statement (.joinDeadline d) := ⟨Nat.zero_le 2, fun h => Bool.noConfusion h⟩
theorem hb (d : Nat) (m : ElwMsg) : Statement (.hb d m) := ⟨Nat.zero_le 2, fun h => Bool.noConfusion h⟩
theorem lower (d : Nat) (m : ElwMsg) : Statement (.lower d m) := ⟨Nat.zero_le 2, fun h => Bool.noConfusion h⟩
theorem raise (d : Nat) (m : ElwMsg) : Statement (.raise d m) := ⟨Nat.zero_le 2, fun h => Bool.noConfusion h⟩
theorem ack (d : Nat) (m : ElwMsg) : Statement (.ack d m) := ⟨Nat.zero_le 2, fun h => Bool.noConfusion h⟩
theorem commit (d : Nat) (m : ElwMsg) : Statement (.commit d m) := ⟨Nat.zero_le 2, fun h => Bool.noConfusion h⟩
theorem cancel (d : Nat) (m : ElwMsg) : Statement (.cancel d m) := ⟨Nat.zero_le 2, fun h => Bool.noConfusion h⟩
theorem join (d : Nat) (m : ElwMsg) : Statement (.join d m) := ⟨Nat.zero_le 2, fun h => Bool.noConfusion h⟩
theorem joinack (d : Nat) (m : ElwMsg) : Statement (.joinack d m) := ⟨Nat.zero_le 2, fun h => Bool.noConfusion h⟩
theorem joinabort (d : Nat) (m : ElwMsg) : Statement (.joinabort d m) := ⟨Nat.zero_le 2, fun h => Bool.noConfusion h⟩
theorem leave (d : Nat) (m : ElwMsg) : Statement (.leave d m) := ⟨Nat.zero_le 2, fun h => Bool.noConfusion h⟩
theorem evict (d : Nat) (m : ElwMsg) : Statement (.evict d m) := ⟨Nat.zero_le 2, fun h => Bool.noConfusion h⟩
theorem elwBadOp (d : Nat) (m : ElwMsg) : Statement (.elwBadOp d m) := ⟨Nat.zero_le 2, fun h => Bool.noConfusion h⟩
theorem rdreq (m : Msg) : Statement (.rdreq m) := ⟨Nat.zero_le 2, fun h => Bool.noConfusion h⟩
theorem rdrsp (m : Msg) : Statement (.rdrsp m) := ⟨Nat.zero_le 2, fun h => Bool.noConfusion h⟩
theorem wrreq (m : Msg) : Statement (.wrreq m) := ⟨Nat.zero_le 2, fun h => Bool.noConfusion h⟩
theorem wrack (m : Msg) : Statement (.wrack m) := ⟨Nat.zero_le 2, fun h => Bool.noConfusion h⟩
theorem tkpart (m : Msg) : Statement (.tkpart m) := ⟨Nat.zero_le 2, fun h => Bool.noConfusion h⟩
theorem tkack (m : Msg) : Statement (.tkack m) := ⟨Nat.zero_le 2, fun h => Bool.noConfusion h⟩
theorem aareq (m : Msg) : Statement (.aareq m) := ⟨Nat.zero_le 2, fun h => Bool.noConfusion h⟩
theorem aarsp (m : Msg) : Statement (.aarsp m) := ⟨Nat.zero_le 2, fun h => Bool.noConfusion h⟩
theorem nack (m : Msg) : Statement (.nack m) := ⟨Nat.zero_le 2, fun h => Bool.noConfusion h⟩
theorem tkconf (m : Msg) : Statement (.tkconf m) := ⟨Nat.zero_le 2, fun h => Bool.noConfusion h⟩
theorem notice (m : Msg) : Statement (.notice m) := ⟨Nat.zero_le 2, fun h => Bool.noConfusion h⟩
theorem noteack (m : Msg) : Statement (.noteack m) := ⟨Nat.zero_le 2, fun h => Bool.noConfusion h⟩
theorem tokreq (m : Msg) : Statement (.tokreq m) := ⟨Nat.zero_le 2, fun h => Bool.noConfusion h⟩
theorem tokgrant (m : Msg) : Statement (.tokgrant m) := ⟨Nat.zero_le 2, fun h => Bool.noConfusion h⟩
theorem tokrecall (m : Msg) : Statement (.tokrecall m) := ⟨Nat.zero_le 2, fun h => Bool.noConfusion h⟩
theorem tokreturn (m : Msg) : Statement (.tokreturn m) := ⟨Nat.zero_le 2, fun h => Bool.noConfusion h⟩
theorem collrdy (m : Msg) : Statement (.collrdy m) := ⟨Nat.zero_le 2, fun h => Bool.noConfusion h⟩
theorem flitCrcRetry (d hop : Nat) : Statement (.flitCrcRetry d hop) := ⟨Nat.zero_le 2, fun h => Bool.noConfusion h⟩
theorem hopDown (d hop : Nat) : Statement (.hopDown d hop) := ⟨Nat.zero_le 2, fun h => Bool.noConfusion h⟩
theorem flitUnknownKind (m : Msg) : Statement (.flitUnknownKind m) := ⟨Nat.zero_le 2, fun h => Bool.noConfusion h⟩
theorem launch (d n : Nat) : Statement (.launch d n) := ⟨Nat.zero_le 2, fun h => Bool.noConfusion h⟩
theorem launchi (d n : Nat) : Statement (.launchi d n) := ⟨Nat.zero_le 2, fun h => Bool.noConfusion h⟩
theorem waitc (d n : Nat) : Statement (.waitc d n) := ⟨Nat.zero_le 2, fun h => Bool.noConfusion h⟩
theorem waitcObserved (d n : Nat) : Statement (.waitcObserved d n) := ⟨Nat.zero_le 2, fun h => Bool.noConfusion h⟩
theorem signalAdd (d n : Nat) : Statement (.signalAdd d n) := ⟨Nat.zero_le 2, fun h => Bool.noConfusion h⟩
theorem signalSet (d n : Nat) : Statement (.signalSet d n) := ⟨Nat.zero_le 2, fun h => Bool.noConfusion h⟩
theorem signalTdec (d n : Nat) : Statement (.signalTdec d n) := ⟨Nat.zero_le 2, fun h => Bool.noConfusion h⟩
theorem skipif (d n : Nat) : Statement (.skipif d n) := ⟨Nat.zero_le 2, fun h => Bool.noConfusion h⟩
theorem listJump (d n : Nat) : Statement (.listJump d n) := ⟨Nat.zero_le 2, fun h => Bool.noConfusion h⟩
theorem listCall (d n : Nat) : Statement (.listCall d n) := ⟨Nat.zero_le 2, fun h => Bool.noConfusion h⟩
theorem listRet (d n : Nat) : Statement (.listRet d n) := ⟨Nat.zero_le 2, fun h => Bool.noConfusion h⟩
theorem listLoop (d n : Nat) : Statement (.listLoop d n) := ⟨Nat.zero_le 2, fun h => Bool.noConfusion h⟩
theorem listXfer (d n : Nat) : Statement (.listXfer d n) := ⟨Nat.zero_le 2, fun h => Bool.noConfusion h⟩
theorem listFlush (d n : Nat) : Statement (.listFlush d n) := ⟨Nat.zero_le 2, fun h => Bool.noConfusion h⟩
theorem listFence (d n : Nat) : Statement (.listFence d n) := ⟨Nat.zero_le 2, fun h => Bool.noConfusion h⟩
theorem submitGo (d n : Nat) : Statement (.submitGo d n) := ⟨Nat.zero_le 2, fun h => Bool.noConfusion h⟩
theorem nmcfgWrite (d v : Nat) : Statement (.nmcfgWrite d v) := ⟨Nat.zero_le 2, fun h => Bool.noConfusion h⟩
theorem carveoutComplete (d : Nat) : Statement (.carveoutComplete d) := ⟨Nat.zero_le 2, fun h => Bool.noConfusion h⟩
theorem xlinvAll (d : Nat) : Statement (.xlinvAll d) := ⟨Nat.zero_le 2, fun h => Bool.noConfusion h⟩
theorem xlinvAsid (d asid : Nat) : Statement (.xlinvAsid d asid) := ⟨Nat.zero_le 2, fun h => Bool.noConfusion h⟩
theorem xlinvPage (d asid va : Nat) : Statement (.xlinvPage d asid va) := ⟨Nat.zero_le 2, fun h => Bool.noConfusion h⟩
theorem xlinvDone (d : Nat) : Statement (.xlinvDone d) := ⟨Nat.zero_le 2, fun h => Bool.noConfusion h⟩
theorem xlresume (d n : Nat) : Statement (.xlresume d n) := ⟨Nat.zero_le 2, fun h => Bool.noConfusion h⟩
theorem accsvSave (p td : Nat) : Statement (.accsvSave p td) := ⟨Nat.zero_le 2, fun h => Bool.noConfusion h⟩
theorem domainSaveDone (p : Nat) : Statement (.domainSaveDone p) := ⟨Nat.zero_le 2, fun h => Bool.noConfusion h⟩
theorem accsvRestore (p td : Nat) : Statement (.accsvRestore p td) := ⟨Nat.zero_le 2, fun h => Bool.noConfusion h⟩
theorem elwctlJoin (d : Nat) : Statement (.elwctlJoin d) := ⟨Nat.zero_le 2, fun h => Bool.noConfusion h⟩
theorem elwctlLeave (d : Nat) : Statement (.elwctlLeave d) := ⟨Nat.zero_le 2, fun h => Bool.noConfusion h⟩
theorem elwctlCap (d mhz : Nat) : Statement (.elwctlCap d mhz) := ⟨Nat.zero_le 2, fun h => Bool.noConfusion h⟩
theorem elwevtPop (d : Nat) : Statement (.elwevtPop d) := ⟨Nat.zero_le 2, fun h => Bool.noConfusion h⟩
theorem hevtPop (d : Nat) : Statement (.hevtPop d) := ⟨Nat.zero_le 2, fun h => Bool.noConfusion h⟩
theorem dbgStop (p c : Nat) : Statement (.dbgStop p c) := ⟨Nat.zero_le 2, fun h => Bool.noConfusion h⟩
theorem dbgUnstop (p c : Nat) : Statement (.dbgUnstop p c) := ⟨Nat.zero_le 2, fun h => Bool.noConfusion h⟩
theorem dbgdataRead (d : Nat) : Statement (.dbgdataRead d) := ⟨Nat.zero_le 2, fun h => Bool.noConfusion h⟩
theorem rbaseWrite (d r v : Nat) : Statement (.rbaseWrite d r v) := ⟨Nat.zero_le 2, fun h => Bool.noConfusion h⟩
theorem registerWrite (d : RegPort) (off v : Nat) : Statement (.registerWrite d off v) := ⟨Nat.zero_le 2, fun h => Bool.noConfusion h⟩
theorem resetRelease (f : StartFind) : Statement (.resetRelease f) := ⟨Nat.zero_le 2, fun h => Bool.noConfusion h⟩
theorem warmReset (f : StartFind) : Statement (.warmReset f) := ⟨Nat.zero_le 2, fun h => Bool.noConfusion h⟩
theorem hdmWrite (h : Nat) (bytes : List Nat) : Statement (.hdmWrite h bytes) := ⟨Nat.zero_le 2, fun h => Bool.noConfusion h⟩
theorem hdmRead (h n : Nat) : Statement (.hdmRead h n) := ⟨Nat.zero_le 2, fun h => Bool.noConfusion h⟩
theorem configRequest : Statement .configRequest := ⟨Nat.zero_le 2, fun h => Bool.noConfusion h⟩
theorem readSensors (r : Sensors) : Statement (.readSensors r) := ⟨Nat.zero_le 2, fun h => Bool.noConfusion h⟩
theorem setPowerCap (payload : Req) : Statement (.setPowerCap payload) := ⟨Nat.zero_le 2, fun h => Bool.noConfusion h⟩
theorem attest (nonce : Req) : Statement (.attest nonce) := ⟨Nat.zero_le 2, fun h => Bool.noConfusion h⟩
theorem readIdentity (payload : Req) : Statement (.readIdentity payload) := ⟨Nat.zero_le 2, fun h => Bool.noConfusion h⟩
theorem worulmonWarmReset (payload : Req) (f : StartFind) : Statement (.worulmonWarmReset payload f) := ⟨Nat.zero_le 2, fun h => Bool.noConfusion h⟩
theorem setEndpointId (n : Nat) : Statement (.setEndpointId n) := ⟨Nat.zero_le 2, fun h => Bool.noConfusion h⟩
theorem getEndpointId : Statement .getEndpointId := ⟨Nat.zero_le 2, fun h => Bool.noConfusion h⟩
theorem getMctpVersionSupport : Statement .getMctpVersionSupport := ⟨Nat.zero_le 2, fun h => Bool.noConfusion h⟩
theorem getMessageTypeSupport : Statement .getMessageTypeSupport := ⟨Nat.zero_le 2, fun h => Bool.noConfusion h⟩
theorem getVendorDefinedMessageSupport : Statement .getVendorDefinedMessageSupport := ⟨Nat.zero_le 2, fun h => Bool.noConfusion h⟩
theorem mctpOtherType (t : Nat) : Statement (.mctpOtherType t) := ⟨Nat.zero_le 2, fun h => Bool.noConfusion h⟩
theorem resumption (task : Nat) : Statement (.resumption task) := ⟨Nat.zero_le 2, fun h => Bool.noConfusion h⟩
theorem retryAfterCancel (d : Nat) : Statement (.retryAfterCancel d) := ⟨Nat.zero_le 2, fun h => Bool.noConfusion h⟩
theorem powerCapReached (d : Nat) : Statement (.powerCapReached d) := ⟨Nat.zero_le 2, fun h => Bool.noConfusion h⟩
theorem powerRemoved : Statement .powerRemoved := ⟨Nat.zero_le 2, fun h => Bool.noConfusion h⟩
theorem cxlLinkTrained (lanes : Nat) : Statement (.cxlLinkTrained lanes) := ⟨Nat.zero_le 2, fun h => Bool.noConfusion h⟩
theorem unknownCommand (msg : List Nat) : Statement (.unknownCommand msg) := ⟨Nat.zero_le 2, fun h => Bool.noConfusion h⟩

end Sys2Proof.Laws.Shape
end

