-- ==== Sys2Proof/Tests/Slice0.lean ====
section
/-! SUPPORT. Tests of one decode, one check or one step each, and witnesses that the hypotheses of the claims can be met. Expected values are the
manual's worked examples and tables, or are computed by hand from the rules named. -/

open Sys2Proof Sys2Proof.Machine

namespace Sys2Proof.Tests

set_option Elab.async false

/-! ### States for the tests -/

/-- A running context with these scalar registers. -/
def tX (xs : List (Nat × Nat)) : State := ({} : State).modAr (fun a => { a with x := xs.map (fun t => (t.1, BitVec.ofNat 64 t.2)) })

/-- The same context with these vector and predicate registers too. -/
def tV (xs vs ps : List (Nat × Nat)) : State :=
  (tX xs).modAr (fun a =>
    { a with
      v := vs.map (fun t => (t.1, BitVec.ofNat 2048 t.2))
      vst := vs.map (fun t => (t.1, 1))
      p := ps.map (fun t => (t.1, BitVec.ofNat 256 t.2)) })

/-- TLB entries: virtual pages 0 and 1 are bulk memory, page 2 is core 0's accumulator window, the page at 2 MiB lies on package 1. -/
def pages : List TlbEnt := [⟨0, 0, 7 * 2 ^ 61, 3, none⟩, ⟨0, 1, 7 * 2 ^ 61 + 0x1_0000, 3, none⟩,
  ⟨0, 2, 7 * 2 ^ 61 + 0x500_0000_0000, 3, none⟩, ⟨0, 0x20, 7 * 2 ^ 61 + 2 ^ 44, 3, none⟩]

/-- These pages in core 0's TLB, in a machine of two packages. -/
def withPages (s : State) : State := (s.modCore 0 (fun c => { c with tlb := pages })).modDie 0 (fun d => { d with npkgm1 := 1 })

/-- A running context with these scalar registers and these pages. -/
def tG (xs : List (Nat × Nat)) : State := withPages (tX xs)

/-- A walk for address space 0: the ASID entry, three tables and leaves for virtual pages 0 and 1 as they stand and 2 in core 0's accumulator
window (R79, R80). -/
def withWalk (s : State) : State :=
  (s.memStore (spread 0x10_0000 8 (2 ^ 63 + 0x12_0000) ++ spread 0x12_0000 8 (2 ^ 63 + 0x14_0000) ++ spread 0x14_0000 8 (2 ^ 63 + 0x15_0000) ++
    spread 0x15_0000 8 (2 ^ 63 + 0x16_0000) ++ spread 0x16_0000 8 (7 * 2 ^ 61) ++ spread 0x16_0008 8 (7 * 2 ^ 61 + 0x1_0000) ++
    spread 0x16_0010 8 (7 * 2 ^ 61 + 0x500_0000_0000)) false).modDie 0 (fun d => { d with xlAsidBase := 0x10_0000 })

/-- 24 one-word bundles that do nothing, from a code address. -/
def withNops (c : LCore) (a : Nat) : LCore := { c with code := c.code.store (wordBytes a (List.replicate 24 0x8000_0000)) }

/-- A running context with these scalar registers and bundles that do nothing in either bank. -/
def tP (xs : List (Nat × Nat)) : State := ((tX xs).modLcore 0 (fun c => withNops (withNops c 0) (2 ^ 17))).withTask

/-- The state that an instruction leaves; the state before it where it leaves none. -/
def after (i : Instr) (s : State) : State :=
  match exec i s with
  | .next t => t
  | _ => s

/-- Number, landing cycle and value of the results in flight. -/
def flight (s : State) : List (Nat × Nat × Nat) := s.ar.inflight.map (fun l => (l.num, l.cyc, l.val))

/-- The value of the first result in flight. -/
def firstVal (s : State) : Nat := ((s.ar.inflight.map (fun l => l.val)).head?).getD 0

/-- With a in x2, b in x3 and c in x4, the instruction leaves one result for x1, after `lat` context cycles. -/
def gives (t : Instr × Nat × Nat × Nat × Nat) : Bool := flight (after t.1 (tX [(2, t.2.1), (3, t.2.2.1), (4, 7)])) == [(1, t.2.2.2.1 + 1, t.2.2.2.2)]

/-- `n` equal elements of `w` bits. -/
def splat (n w v : Nat) : Nat := (List.range n).foldl (fun a k => a + v * 2 ^ (k * w)) 0

/-- The trap that was taken: cause and detail words 0 and 1 of the bundle's trap. -/
def causeOf (i : Instr) (s : State) : Option (Nat × Nat × Nat) :=
  match s.opCheck i with
  | .trap t => some (t.cause, t.d0, t.d1)
  | _ => none

/-- The words, in slot S0 of a bundle of 16 words, decode to the instruction. -/
def reads (c : Cls) (t : Nat × Nat × Instr) : Bool :=
  match decodeSlot c false 16 t.1 t.2.1 with
  | .ok i => i == t.2.2
  | .error _ => false

/-- The readiness of an operation's registers as a test. -/
def readyB (s : State) (i : Instr) : Bool :=
  i.xsrcs.all (fun n => s.ar.awaited .x n == none && !Tbl.has s.ar.xpois n) &&
  i.vsrcs.all (fun n => if 56 ≤ n then s.chkStreamRead (n - 56) == .ok
    else s.ar.awaited .v n == none && !Tbl.has s.ar.vpois n && decide (Tbl.get 0 s.ar.vst n < 2)) &&
  i.psrcs.all (fun n => !Tbl.has s.ar.ppois n) &&
  i.vdests.all (fun n => decide (n < 56) || s.chkAppend (n - 56) == .ok) && s.acquires.isEmpty && (!i.needsMatrix || s.matFree)

theorem readyB_ok {s : State} {i : Instr} (h : readyB s i = true) : s.ReadyFor i := by
  simp only [readyB, Bool.and_eq_true, List.all_eq_true, Bool.not_eq_true', beq_iff_eq, Bool.or_eq_true, decide_eq_true_eq, List.isEmpty_iff] at h
  obtain ⟨⟨⟨⟨⟨hx, hv⟩, hp⟩, hd⟩, ha⟩, hm⟩ := h
  refine ⟨fun n hn => hx n hn, fun n hn => ?_, fun n hn => hp n hn, fun n hn h56 => ?_, fun _ => ha, fun h => hm.resolve_left (by simp [h])⟩
  · have q := hv n hn
    split
    · next h56 => simpa [h56] using q
    · next h56 => simpa [h56, and_assoc] using q
  · rcases hd n hn with h | h
    · omega
    · exact h

/-- With no load open and no message to an accumulator window a release may be made. -/
theorem released {s : State} (hl : s.ar.loads = []) (hf : s.cx.frameLoads = []) (ha : s.farAcc = false)
    (ht : s.farOpen (fun k => k.m.kind == 5) = false) (hp : s.parts = []) : s.releaseReady :=
  ⟨by simp [hl], by simp [hf], ha, ht, by simp [hp]⟩

/-- Scalar arithmetic (R251 to R257). -/
theorem test_decode_scalar_arithmetic : ([
    (0b0_0_00000000_000001_000010_000011_0000, 0, .add 1 2 3),
    (0b0_0_00000111_111111_000000_100000_0000, 0, .remn 63 0 32),
    (0b0_0_00010000_000100_000101_000110_0000, 0, .minn 4 5 6),
    (0b0_0_00010010_000100_000101_000110_0111, 0, .cmp 4 5 6 7),
    (0b0_1_00010011_000100_000101_000110_0000, 0b00_000111_000000000000000000000000, .sel 4 5 6 7),
    (0b0_0_00010100_000100_000101_000000_0000, 0, .clz 4 5),
    (0b0_1_00010110_000100_000101_000000_0000, 0b00_001100_011110_1_00000000000000000, .bfx 4 5 12 30 1),
    (0b0_0_00011000_000100_000101_1111111111, 0, .addi 4 5 1023),
    (0b0_0_00011101_000100_000101_0000111111, 0, .shrli 4 5 63),
    (0b0_0_00100000_000100_1010101111001101, 0, .li 4 0xABCD none),
    (0b0_1_00100000_000100_1010101111001101, 0b00_000000000000000000000000000101, .li 4 0xABCD (some 5))] : List (Nat × Nat × Instr)).all (reads .s) = true := by decide +kernel

/-- Floats, moves, staging (R259 to R262, R217). -/
theorem test_decode_floats_and_moves : ([
    (0b0_0_00101001_000100_000101_000110_0011, 0, .fmul 4 5 6 3),
    (0b0_0_00101011_000100_000101_000110_0110, 0, .fcmp 4 5 6 6),
    (0b0_1_00101100_000101_000110_000000_0000, 0b00_0000_0011_100_1_0_00000000000000000, .fcvt 5 6 ⟨0, 3, 4, 1, 0⟩),
    (0b0_0_00110000_001001_000000_0001000100, 0, .movs 9 0x44),
    (0b0_0_00110001_000000_001001_0000001101, 0, .movd 9 0x0D),
    (0b0_0_00110010_000000_001001_101_1_001111, 0, .sete 9 5 1 15)] : List (Nat × Nat × Instr)).all (reads .s) = true := by decide +kernel

/-- Loads and stores (R93, R124). -/
theorem test_decode_loads_and_stores : ([
    (0b0_0_01000100_000100_000101_0000001001, 0, .ldg 4 4 5 9 none),
    (0b0_1_01001011_000100_000101_0000001001, 0b00_000_000000000000000000001001101, .stg 3 4 5 9 (some ⟨0, 77⟩)),
    (0b0_1_01010000_000100_000101_0000001001, 0b00_011_000000000000000000000000001, .ldl 0 4 5 9 (some ⟨3, 1⟩)),
    (0b0_1_01011010_000100_000101_0000001001, 0b00_010_000000000000000000000000001, .stl 2 4 5 9 (some ⟨2, 1⟩))] : List (Nat × Nat × Instr)).all (reads .s) = true := by decide +kernel

/-- Control flow (R356 to R366). -/
theorem test_decode_control_flow : ([
    (0b0_1_01100000_000000_000101_000110_1001, 0b00_111111111111111111111111111101, .br 5 6 9 (2 ^ 30 - 3)),
    (0b0_0_01100001_1111111111111111111111, 0, .j (2 ^ 22 - 1)),
    (0b0_0_01100010_000000_000101_000000_0000, 0, .jr 5),
    (0b0_0_01100011_0000000000000000000111, 0, .call 7),
    (0b0_0_01100100_000101_000110_000000_0000, 0, .callr 5 6),
    (0b0_0_01100101_000000_111111_000000_0000, 0, .ret 63),
    (0b0_0_01101000_000000_000101_1111111100, 0, .bsw 5 1020),
    (0b0_0_01101001_000000_000000_000000_0000, 0, .ifence)] : List (Nat × Nat × Instr)).all (reads .s) = true := by decide +kernel

/-- Barriers, tasks and traps (R131 to R135, R387 to R392, R408, R409). -/
theorem test_decode_barriers_tasks_traps : ([
    (0b0_0_01110000_000101_000110_0000000000, 0, .barinit 5 6),
    (0b0_0_01110001_000101_000110_0000000011, 0, .bararr 5 6 3),
    (0b0_0_01110010_000101_000110_0000000001, 0, .barwait 5 6 1),
    (0b0_0_01110100_000000_000000_000000_0000, 0, .fenceL),
    (0b0_0_01110101_000000_000000_000000_0000, 0, .fenceE),
    (0x1E04_0000, 0, .gbar 4 0),
    (0x1E40_0002, 0, .gleave 2),
    (0b0_0_01111010_000101_000110_0000000001, 0, .tdec 5 6 1),
    (0x1EC0_0000, 0, .endt),
    (0x1F00_0000, 0, .yield),
    (0b0_0_11110000_000000_000000_0000000111, 0, .trap 7),
    (0b0_0_11110001_000000_000000_0000000000, 0, .rett),
    (0b0_0_11110010_000000_000000_1111111111, 0, .brk 1023)] : List (Nat × Nat × Instr)).all (reads .s) = true := by decide +kernel

/-- Tickets and atomics (R325 to R335). -/
theorem test_decode_tickets_and_atomics : ([
    (0b0_1_10000000_000101_000110_000111_0000, 0b00_000000_111111_000000000000000000, .tkopen 5 6 7 63),
    (0x6040_1050, 0x060C_0000, .tkadd 4 5 6 3),
    (0b0_1_10000100_000101_000110_000111_0000, 0b00_000000_000010_000000000000000000, .tkskip 5 6 7 2),
    (0b0_0_10000101_000101_000110_0000_111111, 0, .tkdrain 5 6 63),
    (0b0_0_10000110_000101_000110_0100_000111, 0, .tkstat 5 6 4 7),
    (0b0_0_10000111_000101_000110_0001_000111, 0, .tkclose 5 6 1 7),
    (0x6203_2090, 0x0080_0000, .aadd 3 8 9 2),
    (0b0_1_10001100_000011_001000_001001_0000, 0b00_001010_11_0000000000000000000000, .acas 3 8 9 10 3)] : List (Nat × Nat × Instr)).all (reads .s) = true := by decide +kernel

/-- Ownership, locks, tokens, streams (R99, R102, R427, R158 to R164). -/
theorem test_decode_ownership_and_streams : ([
    (0b0_1_10010000_000000_000110_000111_0000, 0b00_001_11111111111_0000000000000000, .xferShared 6 7 2047),
    (0b0_0_10010001_000101_000110_000111_0000, 0, .lock 5 6 7),
    (0b0_0_10010010_000101_000110_000111_0000, 0, .unlock 5 6 7),
    (0x2603_2090, 0, .tokacq 3 8 9),
    (0x2643_2090, 0, .tokrel 3 8 9),
    (0x2802_3001, 0, .qbind 2 12 1 0 0 0 none),
    (0b0_1_10100000_000111_001000_0000000010, 0b00_000000000000000000000000001000, .qbind 7 8 0 1 0 0 (some 8)),
    (0b0_0_10100001_000111_000000_0000000000, 0, .qunbind 7),
    (0b0_0_10100010_000111_000000_0000000000, 0, .qsync 7),
    (0b0_0_10100011_000101_000000_0000000111, 0, .qstat 5 7)] : List (Nat × Nat × Instr)).all (reads .s) = true := by decide +kernel

/-- Typed and bitwise vector operations (R265 to R274). -/
theorem test_decode_vector_operations : ([
    (0b0_0_00000000_000001_000010_000011_0100, 0, .vadd 0 1 2 3 4 none),
    (0b0_1_00011000_000001_000010_000011_0000, 0b00_000000_000_1_00000000000000000000, .vsub 8 1 2 3 0 (some ⟨0, 0, 1⟩)),
    (0b0_1_00110001_000001_000010_000011_1111, 0b00_001001_011_0_00000000000000000000, .vfma 1 1 2 3 15 ⟨9, 3, 0⟩),
    (0b0_0_01100110_000001_000010_000001_0000, 0, .vneg 6 1 2 0 none),
    (0b0_1_01110000_000101_000010_000011_0000, 0b00_0110_00000000000000000000000000, .vcmp 0 5 2 3 0 6),
    (0b0_0_10000000_000001_000010_000010_0000, 0, .vred 0 1 2 2 0),
    (0b0_0_10100110_000001_000010_000011_0000, 0, .vshrI 2 1 2 3 0),
    (0b0_0_10101111_000001_000010_000000_0101, 0, .vnot 1 2 5),
    (0b0_0_10110010_000001_000010_000011_0101, 0, .vsel 2 1 2 3 5),
    (0b0_0_10111010_000001_001001_000000_0000, 0, .vbcast 2 1 9 0),
    (0b0_0_11000101_000001_000010_000011_0000, 0, .vshuf 1 1 2 3 0)] : List (Nat × Nat × Instr)).all (reads .v) = true := by decide +kernel

/-- Strings, hashes, vector memory (R275 to R280, R333, R335). -/
theorem test_decode_vector_strings_and_memory : ([
    (0x7406_0830, 0x0800_0000, .vbcmp 6 2 3 0 (some ⟨1, 0, 0, 0⟩)),
    (0b0_1_11010001_000001_000010_000011_0000, 0b00_110_0_00000000_111_000000000000000, .vbfind 1 2 3 0 (some ⟨6, 0, 0, 7⟩)),
    (0b0_1_11010010_000001_000010_000011_0000, 0b00_1_00000000000000000000000000000, .vhash 1 2 3 0 (some 1)),
    (0b0_0_11010011_000001_000010_000011_0000, 0, .vcrc 1 2 3 0 none),
    (0x3807_5030, 0, .vld 7 20 3 0 none),
    (0b0_0_11100100_000111_010100_111111_0010, 0, .vstaAdd 7 20 63 2 none),
    (0x7C08_5000, 0x0608_0000, .vtkadd 8 20 0 0 6 2),
    (0b0_1_11110111_001000_010100_000001_0000, 0b00_110111_1_1_0000000000000000000000, .vaxchg 8 20 1 0 55 1 1)] : List (Nat × Nat × Instr)).all (reads .v) = true := by decide +kernel

/-- Special functions, conversions, predicates, rows (R198, R281 to R289). -/
theorem test_decode_special_operations : ([
    (0x0004_1400, 0, .vexp2 0 4 5 0),
    (0x0389_0803, 0, .vrsq 2 9 2 3),
    (0b0_1_00100000_000100_000101_000001_0111, 0b00_0011_0000_001_0_1_00000000000000000, .vcvt 4 5 1 7 ⟨3, 0, 1, 0, 1⟩),
    (0x0847_0010, 0, .vrng 7 1 0),
    (0b0_0_00110001_000001_000010_000011_0000, 0, .por 1 2 3),
    (0b0_0_00110011_000001_000010_000000_0000, 0, .pnot 1 2),
    (0b0_0_00110100_001001_000010_000010_0011, 0, .pcnt 9 2 2 3),
    (0b0_1_00111000_000001_000010_000011_0100, 0b00_0010_1000_11_1_0000000000000000000, .rowpred 1 2 3 4 ⟨2, 8, 3, 1⟩),
    (0b0_1_00111001_000001_000010_000011_0100, 0b00_11111111_0000000000000000000000, .rcwupd 1 2 3 4 (some 255)),
    (0b0_0_00111010_000001_000010_000000_0100, 0, .rcwadv 1 2 4 none),
    (0b0_0_00111011_000001_000010_000011_0100, 0, .rcwld 1 2 3 4 none)] : List (Nat × Nat × Instr)).all (reads .x) = true := by decide +kernel

/-- Recipes and the transpose tile (R219, R224, R310). -/
theorem test_decode_recipes_and_tile : ([
    (0b0_0_01000000_001100_000000_000001_0000, 0, .rcpdef 12 1),
    (0x500C_2C20, 0x0400_0000, .rcpdefEmbedded 12 11 ⟨0x10, 0, 0, 0, 0, 0⟩),
    (0b0_0_01000001_001100_000000_000000_0000, 0, .drop 12),
    (0b0_0_01000010_001100_000000_000000_0000, 0, .rcpclr 12),
    (0x1080_0010, 0, .rcpclrAll),
    (0b0_0_01000011_001001_001100_000000_0000, 0, .rcpstat 9 12),
    (0x5200_1400, 0x2038_0000, .ttw 5 ⟨2, 0, 0, 7, 0⟩),
    (0x5246_0000, 0x2038_0000, .ttr 6 ⟨2, 0, 0, 7, 0⟩)] : List (Nat × Nat × Instr)).all (reads .x) = true := by decide +kernel

/-- The matrix engine (R293, R303 to R306). -/
theorem test_decode_matrix : ([
    (0x4014_5800, 0x0CCF_F800, .mma 20 22 0 ⟨3, 3, 3, 127, 0, 0, 0⟩),
    (0b0_1_00000001_010100_010110_111_0000000, 0b00_1000_1000_1111_0000000_1_0_0_00000011, .mmap 20 22 7 ⟨8, 8, 15, 0, 1, 0, 3⟩),
    (0x0200_2800, 0, .mscl 0 10),
    (0x0400_0180, 0, .mzero 3),
    (0b0_0_00011000_000000_001001_010_0000000, 0, .mtile 2 9),
    (0x4600_0000, 0x0008_0000, .mtileImm 0 0x0008_0000)] : List (Nat × Nat × Instr)).all (reads .m) = true := by decide +kernel

/-- Engine commands (R54, R59). -/
theorem test_decode_commands : ([
    (0b00_0000_0000_1_111111_11_111_0000000000, 0, .copy ⟨1, 63, 3, 7⟩),
    (0x0400_6400, 0, .gath ⟨0, 0, 3, 1⟩),
    (0b00_0001_0001_0000000000000000000000, 0, .exsave ⟨0, 0, 0, 0⟩),
    (0b00_0001_0010_0000000000000000000000, 0, .trunc ⟨0, 0, 0, 0⟩),
    (0x0800_2400, 0, .sieve ⟨0, 0, 1, 1⟩),
    (0b00_0010_0001_0000000000000000000000, 0, .resto ⟨0, 0, 0, 0⟩),
    (0x0C20_4000, 0, .fillGap ⟨1, 0, 2, 0⟩),
    (0x1000_2800, 0, .coll ⟨0, 0, 1, 2⟩),
    (0x1420_4000, 0, .noteSend ⟨1, 0, 2, 0⟩)] : List (Nat × Nat × Instr)).all (reads .c) = true := by decide +kernel
/-! ### Ill-formed terms: one for each check, which the check refuses -/

/-- Register, immediate and code fields of the scalar arithmetic. -/
theorem test_wf_refuses_scalar : ([.nop 3 0 0 0, .nop 0 0 0 1, .add 64 0 0, .add 0 64 0, .add 0 0 64, .cmp 0 0 0 10, .sel 0 0 0 64, .clz 0 64,
    .bfx 0 0 60 4 0, .bfx 0 0 0 0 2, .bfi 0 0 0 63 1, .addi 0 0 1024, .shli 0 0 64, .li 0 65536 none, .li 0 0 (some (2 ^ 30)), .lih 0 65536,
    .fadd 0 0 0 4, .ffma 0 0 0 64 0, .fcmp 0 0 0 8, .fcvt 0 0 ⟨5, 0, 0, 0, 0⟩, .fcvt 0 0 ⟨0, 13, 0, 0, 0⟩, .fcvt 0 0 ⟨0, 0, 5, 0, 0⟩,
    .movs 0 0x32, .movd 0 0x45, .sete 0 6 0 0, .sete 0 0 0 16] : List Instr).all (fun i => !i.wf) = true := by decide +kernel

/-- Memory, control, barriers, tasks, tickets, ownership, streams and traps. -/
theorem test_wf_refuses_memory_and_control : ([.ldg 7 0 0 0 none, .ldg 0 0 0 0 (some ⟨1, 0⟩), .stg 4 0 0 0 none, .ldl 0 0 0 0 (some ⟨4, 0⟩),
    .stl 0 0 0 0 (some ⟨3, 0⟩), .stl 0 0 0 0 (some ⟨0, 2 ^ 27⟩), .br 0 0 10 0, .br 0 0 0 (2 ^ 30), .j (2 ^ 22), .jr 64, .brt 0 0 0 16 0 0,
    .brt 0 0 0 0 0 (2 ^ 24), .loop 0 0 6 0 1 4, .loop 0 0 0 4 0 4, .loop 0 1 0 0 1 4, .loop 0 1 0 1 1 4, .loop 0 0 0 0 1 16384, .bsw 64 0, .barinit 64 0,
    .barwait 0 0 2, .waitcc 8 0, .gbar 0 4, .gleave 4, .tdec 0 0 0, .tkopen 0 0 0 64, .tkadd 0 0 0 64, .tkdrain 0 0 64, .tkstat 0 0 5 0, .tkclose 0 0 2 0,
    .aadd 0 0 0 4, .acas 0 0 0 64 0, .xferOwned 0 0 2048, .lock 64 0 0, .tokacq 0 0 64, .qbind 8 0 0 0 0 0 none, .qbind 0 2 0 0 0 0 none,
    .qbind 0 0 1 1 0 0 none, .qbind 0 0 0 0 0 0 (some 9), .qunbind 8, .qstat 0 8, .trap 1024] : List Instr).all (fun i => !i.wf) = true := by
  decide +kernel

/-- Vector, special and matrix operations. -/
theorem test_wf_refuses_vector : ([.vadd 3 0 0 0 0 none, .vadd 0 0 0 0 16 none, .vadd 0 0 0 0 0 (some ⟨1, 0, 0⟩), .vadd 0 0 0 0 0 (some ⟨0, 4, 0⟩),
    .vadd 0 0 0 0 0 (some ⟨0, 0, 1⟩), .vfma 6 0 0 0 0 ⟨0, 1, 0⟩, .vmin 13 0 0 0 0, .vabs 10 0 0 0 none, .vcmp 0 16 0 0 0 0, .vcmp 0 0 0 0 0 8,
    .vcmp 6 0 0 0 0 6, .vred 0 0 0 3 0, .vshl 3 0 0 0 0, .vshuf 0 56 0 0 0, .vand 64 0 0 0, .vnot 0 0 16, .vmov 3 0 0 0, .vbcmp 0 0 0 0 (some ⟨7, 0, 0, 0⟩),
    .vbcmp 0 0 0 0 (some ⟨0, 0, 0, 1⟩), .vbfind 0 0 0 0 (some ⟨0, 1, 0, 0⟩), .vhash 0 0 0 0 (some 2), .vcrc 0 0 0 0 (some 3), .vld 0 1 0 0 none,
    .vld 0 0 0 0 (some ⟨4, 0⟩), .vst 0 0 0 0 (some ⟨3, 0⟩), .vstaAdd 0 0 0 0 (some ⟨1, 0⟩), .vtkadd 0 0 0 0 0 64, .vaadd 0 0 0 0 56 1 0, .vaadd 0 0 0 0 1 0 0,
    .vexp2 3 0 0 0, .vcvt 0 0 1 0 ⟨0, 0, 0, 0, 0⟩, .vcvt 4 0 4 0 ⟨0, 5, 0, 0, 0⟩, .vrng 0 3 0, .pand 16 0 0, .pnot 0 16, .pcnt 0 0 3 0,
    .rowpred 0 0 0 0 ⟨0, 0, 1, 0⟩, .rowpred 0 0 0 0 ⟨0, 5, 0, 0⟩, .rcwupd 0 0 0 0 (some 256), .rcwadv 0 64 0 none, .rcwld 0 0 4 0 none, .rcpdef 56 0, .rcpdef 0 2,
    .rcpdefEmbedded 0 0 ⟨3, 0, 0, 0, 0, 0⟩, .rcpdefEmbedded 0 0 ⟨0x20, 0, 5, 0, 0, 0⟩, .drop 56, .rcpclr 56, .rcpstat 0 56, .ttw 0 ⟨2, 1, 0, 0, 0⟩,
    .ttr 0 ⟨0, 0, 1, 1, 0⟩, .mma 1 0 0 ⟨3, 3, 0, 0, 0, 0, 0⟩, .mma 0 0 0 ⟨3, 1, 0, 0, 0, 0, 0⟩, .mma 0 0 0 ⟨5, 5, 4, 0, 0, 0, 0⟩, .mma 0 0 0 ⟨3, 3, 3, 127, 0, 1, 0⟩,
    .mma 0 0 0 ⟨3, 3, 0, 0, 0, 0, 1⟩, .mmap 0 0 0 ⟨3, 3, 0, 0, 0, 0, 4⟩, .mscl 4 0, .mzero 8, .mtile 0 64, .mtileImm 0 (7 * 2 ^ 16), .copy ⟨2, 0, 0, 0⟩, .copy ⟨0, 0, 0, 1⟩,
    .fillSeal ⟨0, 64, 0, 0⟩] : List Instr).all (fun i => !i.wf) = true := by decide +kernel

/-- Units and fields of the events. -/
theorem test_wf_refuses_events : ([.engctlResume 768 0 0, .engctlCancel 0 0 6, .implicitCheckpoint 0 4, .streamFetch 0 0 8, .recipeReplay 0 0 56, .commandStart ⟨6, 0, 0⟩,
    .engineFault ⟨1, 32, 0⟩, .matrixResultWrite 768 0, .accsvSave 0 64, .ticketGap 768 0, .hbSend 8, .thermalSample 8 [] 0, .xlinvAsid 0 4096, .xlresume 0 256,
    .elwctlCap 0 1024, .rbaseWrite 0 3 0, .flitCrcRetry 0 4, .memoryError ⟨16, 0, 0⟩ .glob 0 0 true, .registerWrite (.fw 8) 0 0, .launch 0 64, .hdmWrite 0 [256], .setEndpointId 256, .mctpOtherType 0x7F]
    : List Instr).all (fun i => !i.wf) = true := by decide +kernel

/-- Terms at the top of their ranges stand. -/
theorem test_wf_takes_limits : ([.nop 2 1 2 5, .add 63 63 63, .cmp 63 63 63 9, .bfx 63 63 63 0 1, .addi 63 63 1023, .shrai 63 63 63, .loop 63 63 5 1 0 16383,
    .mma 54 62 7 ⟨3, 4, 3, 3, 1, 1, 0⟩, .mtileImm 7 (2 ^ 29 - 2 ^ 13 * 7 - 1), .vcvt 63 63 55 3 ⟨5, 2, 4, 1, 1⟩, .coll ⟨1, 63, 3, 7⟩] : List Instr).all Instr.wf = true := by
  decide +kernel
/-! ### Effects: scalar instructions -/

/-- R251, R252: wraps, signs, extremes, whole shift amounts. -/
theorem test_integer : ([(.add 1 2 3, 2 ^ 64 - 1, 2, 1, 1), (.sub 1 2 3, 1, 2, 1, 2 ^ 64 - 1), (.mul 1 2 3, 2 ^ 63 + 1, 2, 3, 2),
    (.mulh 1 2 3, 2 ^ 64 - 1, 2 ^ 64 - 1, 3, 0), (.mulh 1 2 3, 2 ^ 63, 2, 3, 2 ^ 64 - 1), (.and 1 2 3, 12, 10, 1, 8), (.or 1 2 3, 12, 10, 1, 14), (.xor 1 2 3, 12, 10, 1, 6),
    (.shl 1 2 3, 3, 63, 1, 2 ^ 63), (.shl 1 2 3, 3, 64, 1, 0), (.shrl 1 2 3, 2 ^ 63, 63, 1, 1), (.shrl 1 2 3, 2 ^ 63, 2 ^ 40, 1, 0),
    (.shra 1 2 3, 2 ^ 63, 62, 1, 2 ^ 64 - 2), (.shra 1 2 3, 2 ^ 63, 2 ^ 40, 1, 2 ^ 64 - 1), (.min 1 2 3, 2 ^ 64 - 1, 0, 1, 2 ^ 64 - 1), (.max 1 2 3, 2 ^ 64 - 1, 0, 1, 0),
    (.minn 1 2 3, 2 ^ 64 - 1, 0, 1, 0), (.maxn 1 2 3, 2 ^ 64 - 1, 0, 1, 2 ^ 64 - 1)] : List _).all gives = true := by decide +kernel

/-- The table of R253. -/
theorem test_division : ([(.div 1 2 3, 7, 0, 20, 0xFFFF_FFFF_FFFF_FFFF), (.divn 1 2 3, 7, 0, 20, 0xFFFF_FFFF_FFFF_FFFF), (.rem 1 2 3, 7, 0, 20, 7),
    (.remn 1 2 3, 7, 0, 20, 7), (.div 1 2 3, 2 ^ 64 - 7, 2, 20, 2 ^ 64 - 3), (.divn 1 2 3, 2 ^ 64 - 7, 2, 20, 0x7FFF_FFFF_FFFF_FFFC), (.rem 1 2 3, 2 ^ 64 - 7, 2, 20, 2 ^ 64 - 1),
    (.remn 1 2 3, 2 ^ 64 - 7, 2, 20, 1), (.div 1 2 3, 2 ^ 63, 2 ^ 64 - 1, 20, 2 ^ 63), (.rem 1 2 3, 2 ^ 63, 2 ^ 64 - 1, 20, 0)] : List _).all gives = true := by decide +kernel

/-- R49, R254, R255: signed and unsigned conditions, SEL, counts. -/
theorem test_compare_select_count : ([(.cmp 1 2 3 2, 2 ^ 64 - 1, 0, 1, 1), (.cmp 1 2 3 6, 2 ^ 64 - 1, 0, 1, 0), (.cmp 1 2 3 9, 2 ^ 64 - 1, 0, 1, 1), (.cmp 1 2 3 4, 5, 5, 1, 1),
    (.sel 1 2 3 4, 5, 6, 1, 5), (.sel 1 2 3 0, 5, 6, 1, 6), (.clz 1 2, 0, 0, 1, 64), (.clz 1 2, 2 ^ 63, 0, 1, 0), (.clz 1 2, 1, 0, 1, 63),
    (.popc 1 2, 2 ^ 64 - 1, 0, 1, 64), (.popc 1 2, 0x8001, 0, 1, 2)] : List _).all gives = true := by decide +kernel

/-- R256, R257, R258: fields, sign-extended immediates, and the two forms of LI. -/
theorem test_fields_and_immediates : ([(.bfx 1 2 4 7 0, 0xABC0, 0, 1, 0xBC), (.bfx 1 2 4 7 1, 0xABC0, 0, 1, 2 ^ 64 - 0x44), (.bfi 1 2 3 27 1, 0, 2, 1, 2 ^ 28),
    (.bfi 1 2 3 0 63, 5, 9, 1, 9), (.addi 1 2 1023, 0, 0, 1, 2 ^ 64 - 1), (.andi 1 2 1023, 77, 0, 1, 77), (.ori 1 2 512, 1, 0, 1, 2 ^ 64 - 511), (.xori 1 2 1023, 0, 0, 1, 2 ^ 64 - 1),
    (.shli 1 2 63, 3, 0, 1, 2 ^ 63), (.shrli 1 2 63, 2 ^ 63, 0, 1, 1), (.shrai 1 2 63, 2 ^ 63, 0, 1, 2 ^ 64 - 1), (.li 1 0x8000 none, 0, 0, 1, 2 ^ 64 - 0x8000),
    (.li 1 0x8000 (some 5), 0, 0, 1, 0x58000), (.li 1 0 (some (2 ^ 29)), 0, 0, 1, 2 ^ 64 - 2 ^ 45)] : List _).all gives = true := by decide +kernel

theorem test_lih : flight (after (.lih 4 0xBEEF) (tX [(4, 0x1_0000_0000_0001)])) = [(4, 2, 0x1_BEEF)] := by decide +kernel

/-- The tables of R259, the conditions of R260, the example of R261. -/
theorem test_scalar_float : ([(.fadd 1 2 3 0, 0x7F80_0000, 0xFF80_0000, 4, 0x7FC0_0000), (.fmul 1 2 3 0, 0x8000_0000, 0x40A0_0000, 4, 0x8000_0000),
    (.fadd 1 2 3 3, 0, 0x8000_0000, 4, 0x8000_0000), (.fadd 1 2 3 1, 0x7F7F_FFFF, 0x7F7F_FFFF, 4, 0x7F7F_FFFF), (.fadd 1 2 3 0, 0x3F80_0000, 0x4000_0000, 4, 0x4040_0000),
    (.fcmp 1 2 3 0, 0x8000_0000, 0, 2, 1), (.fcmp 1 2 3 1, 0x7FC0_0000, 0, 2, 1), (.fcmp 1 2 3 6, 0, 0x7FC0_0000, 2, 1), (.fcmp 1 2 3 2, 0xBF80_0000, 0, 2, 1),
    (.fcvt 1 2 ⟨0, 3, 0, 1, 0⟩, 0x4396_0000, 0, 4, 0x79), (.fcvt 1 2 ⟨6, 0, 0, 0, 0⟩, 2 ^ 32 - 3, 0, 4, 0xC040_0000)] : List _).all gives = true := by decide +kernel

theorem test_ffma_nan : flight (after (.ffma 1 2 3 5 0) (tX [(2, 0), (3, 0x7F80_0000), (5, 0x7FA0_0001)])) = [(1, 5, 0x7FE0_0001)] := by decide +kernel
/-! ### Effects: vectors, special functions, predicates, rows -/

/-- With va in v2, vb in v3, vc in v4 and v1 all ones, p1 enabling byte 0 to 3 alone, the instruction leaves a vector for v1 with this element and latency. -/
def leaves (t : Instr × Nat × Nat × Nat × Nat × Nat × Nat) : Bool :=
  match t with
  | (i, a, b, lat, w, k, r) =>
    match flight (after i (tV [(2, 3), (3, 2 ^ 32 + 7)] [(1, 2 ^ 2048 - 1), (2, a), (3, b), (4, splat 64 32 0x3F80_0000)] [(1, 15)])) with
    | [(1, n, v)] => n == lat + 1 && el w v k == r
    | _ => false

/-- R264, R266 to R268: floats and integers, saturation, and an inactive element that keeps vd. -/
theorem test_vector_arithmetic : ([(.vadd 0 1 2 3 0 none, splat 64 32 0x3F80_0000, splat 64 32 0x4000_0000, 4, 32, 63, 0x4040_0000),
    (.vadd 0 1 2 3 1 none, 0, 0, 4, 32, 1, 2 ^ 32 - 1), (.vadd 8 1 2 3 0 (some ⟨0, 0, 1⟩), 0x7F, 1, 4, 8, 0, 0x7F), (.vsub 12 1 2 3 0 none, 0, 1, 4, 8, 0, 255),
    (.vmul 7 1 2 3 0 none, 0xFFFF, 2, 4, 16, 0, 0xFFFE), (.vfma 0 1 2 3 0 ⟨4, 0, 0⟩, 0x4000_0000, 0x4000_0000, 4, 32, 0, 0x40A0_0000),
    (.vmin 8 1 2 3 0, 0x80, 1, 4, 8, 0, 0x80), (.vmax 12 1 2 3 0, 0x80, 1, 4, 8, 0, 0x80), (.vabs 6 1 2 0 none, 2 ^ 32 - 5, 0, 4, 32, 0, 5),
    (.vneg 0 1 2 0 none, 0x3F80_0000, 0, 4, 32, 0, 0xBF80_0000)] : List _).all leaves = true := by decide +kernel

/-- R270, R271, R273: shifts by element, logic by byte, selection and movement by index. -/
theorem test_vector_bits_and_moves : ([(.vshl 0 1 2 3 0, 3, 7, 4, 8, 0, 0x80), (.vshl 0 1 2 3 0, 3, 8, 4, 8, 0, 0), (.vshrI 1 1 2 3 0, 0x8000, 20, 4, 16, 0, 0xFFFF),
    (.vshrN 2 1 2 3 0, 2 ^ 31, 31, 4, 32, 0, 1), (.vand 1 2 3 0, 12, 10, 4, 8, 0, 8), (.vor 1 2 3 0, 12, 10, 4, 8, 0, 14), (.vxor 1 2 3 0, 12, 10, 4, 8, 0, 6),
    (.vnot 1 2 0, 12, 0, 4, 8, 0, 243), (.vsel 2 1 2 3 1, splat 64 32 5, splat 64 32 6, 4, 32, 0, 5), (.vsel 2 1 2 3 1, splat 64 32 5, splat 64 32 6, 4, 32, 1, 6),
    (.vmov 2 1 2 1, splat 64 32 5, 0, 4, 32, 0, 5), (.vbcast 0 1 3 0, 0, 0, 4, 8, 255, 7), (.vrot 2 1 2 3 0, 0, 2 ^ 96 * 9, 6, 32, 0, 9),
    (.vperm 2 1 2 3 0, 2 ^ 32 * 8, 1, 6, 32, 0, 8), (.vperm 2 1 2 3 0, 2 ^ 32 * 8, 64, 6, 32, 0, 0), (.vcompr 2 1 2 3 1, 5, 0, 6, 32, 0, 5), (.vexpd 2 1 2 3 1, 5, 0, 6, 32, 0, 5)]
    : List _).all leaves = true := by decide +kernel

/-- R246, R247, R272: the program of 2^24 and 63 ones. -/
theorem test_reduce_and_scan : ([(.vred 0 1 2 0 0, splat 64 32 0x3F80_0000 - 0x3F80_0000 + 0x4B80_0000, 0, 6, 32, 0, 0x4B80_001F),
    (.vscan 0 1 2 0 0, splat 64 32 0x3F80_0000 - 0x3F80_0000 + 0x4B80_0000, 0, 6, 32, 63, 0x4B80_0000), (.vred 6 1 2 1 0, 2 ^ 31, 0, 6, 32, 0, 0)] : List _).all leaves = true := by
  decide +kernel

/-- R275: "apple" and "apply" in segments of 8; a needle of one byte. R277: one step towards the check value. -/
theorem test_strings_and_crc : ([(.vbcmp 1 2 3 0 (some ⟨1, 0, 0, 0⟩), 0x65_6C70_7061, 0x79_6C70_7061, 6, 32, 0, 0x0001_0004),
    (.vbcmp 1 2 3 0 (some ⟨1, 0, 0, 0⟩), 0x65_6C70_7061, 0x79_6C70_7061, 6, 32, 31, 8), (.vbcmp 1 2 3 0 (some ⟨1, 0, 0, 0⟩), 0x65_6C70_7061, 0x79_6C70_7061, 6, 32, 32, 0),
    (.vbfind 1 2 3 0 none, 0x65_6C70_7061, 0x6C, 6, 32, 0, 0x8000_0003), (.vcrc 1 2 3 0 (some 1), 0, 1, 6, 32, 0, 0xF26B_8303), (.vhash 1 2 3 0 none, 0, 0, 4, 32, 0, 0x297A_2D39)]
    : List _).all leaves = true := by decide +kernel

/-- R282, R283: the manual's results. -/
theorem test_special_functions : ([(.vexp2 0 1 2 0, 0x4040_0000, 0, 12, 32, 0, 0x4100_0000), (.vexp2 0 1 2 0, 0xC316_0000, 0, 12, 32, 0, 0), (.vlog2 2 1 2 0, 1, 0, 12, 16, 0, 0xCE00),
    (.vrcp 1 1 2 0, 0x0040, 0, 12, 16, 0, 0x7F00), (.vrsq 0 1 2 0, 0x8000_0000, 0, 12, 32, 0, 0xFF80_0000), (.vtanh 1 1 2 0, 0x8000, 0, 12, 16, 0, 0x8000),
    (.vsigm 0 1 2 0, 0x8000_0000, 0, 12, 32, 0, 0x3F00_0000)] : List _).all leaves = true := by decide +kernel

/-- R240, R242, R286: 304.0 and 70,000.0 to E4M3, to nearest and under SR with seed 0x0123_4567_89AB_CDEF. R289: words of the generator. -/
theorem test_convert : ([(.vcvt 1 2 0 0 ⟨0, 3, 0, 1, 0⟩, 0x4398_0000, 0, 4, 8, 0, 0x7A), (.vcvt 1 2 0 0 ⟨0, 3, 0, 0, 0⟩, 0x4788_B800, 0, 4, 8, 0, 0x7F),
    (.vcvt 1 2 1 0 ⟨0, 3, 0, 1, 0⟩, 0x4788_B800, 0, 4, 8, 64, 0x7E)] : List _).all leaves = true := by decide +kernel

theorem test_generator : (let s := (tV [] [(2, 0x4398_0000)] []).modAr (fun a => { a with sr := [(0x006, 0x0123_4567_89AB_CDEF)] })
    el 32 (firstVal (after (.vrng 1 0 0) s)) 0 = 0xEBB5_112C ∧
    el 8 (firstVal (after (.vcvt 1 2 0 0 ⟨0, 3, 4, 1, 0⟩) s)) 0 = 0x79) := by decide +kernel

/-- R199: logic and counts of predicates. R269: a comparison of bytes. -/
theorem test_predicates : (let s := tV [] [(2, 5), (3, 6)] [(1, 12), (2, 10)]
    flight (after (.pand 3 1 2) s) = [(3, 3, 8)] ∧ flight (after (.por 3 1 2) s) = [(3, 3, 14)] ∧ flight (after (.pxor 3 1 2) s) = [(3, 3, 6)] ∧
    flight (after (.pnot 3 0) s) = [(3, 3, 0)] ∧ flight (after (.pcnt 9 1 0 0) s) = [(9, 7, 2)] ∧ flight (after (.vcmp 12 3 2 3 0 2) s) = [(3, 5, 1)]) := by decide +kernel


/-- R200 to R203: rows compared with a scalar, a live word moved to EXIT, a skipping word past its block, a test of VALID and GAP. -/
theorem test_rows : (let s : State := (tV [(8, 0x3F66_6666)] [(2, 0x3F73_3333), (3, 0x8000_0000), (4, 0x8000_0005)] [(1, 15)]).modAr (fun a => { a with sr := [(0x004, 0x4_0006), (0x005, 0x2822_8855_8888_8808)] })
    flight (after (.rowpred 1 2 8 0 ⟨3, 0, 0, 1⟩) s) = [(1, 5, 15)] ∧
    el 32 (firstVal (after (.rcwupd 5 3 1 1 none) s)) 0 = 0xA000_0C02 ∧ el 32 (firstVal (after (.rcwadv 5 4 0 none) s)) 0 % 32 = 1 ∧
    flight (after (.rcwld 1 3 1 0 none) s) = [(1, 5, 0)]) := by decide +kernel
/-! ### Witnesses: states and operands that meet the hypotheses of the claims, clause by clause -/

/-- `P` of every member, for the readiness predicates of the claims. -/
theorem readyX {s : State} (hl : s.ar.loads = []) (hp : s.ar.xpois = []) (l : List Nat) : s.xReady l :=
  fun n _ => ⟨by simp [Arch.awaited, hl], by simp [hp, Tbl.has]⟩

theorem ready_tX (xs : List (Nat × Nat)) (l : List Nat) : (tX xs).xReady l := readyX rfl rfl l

theorem wit_EncodeDecodeScalarClass : (Instr.loop 63 63 5 1 0 16383).wf = true ∧ (Instr.loop 63 63 5 1 0 16383).cls = some .s ∧
    (Instr.loop 63 63 5 1 0 16383).fitsBundle 16 = true ∧ (Instr.add 63 63 63).wf = true ∧
    s0Only (fld ((encode (.add 63 63 63)).headD 0) 29 22) = false := by decide +kernel

theorem wit_EncodeDecodeVectorClass : (Instr.vfma 2 63 63 63 15 ⟨63, 3, 0⟩).wf = true ∧ (Instr.vfma 2 63 63 63 15 ⟨63, 3, 0⟩).cls = some .v := by decide +kernel

theorem wit_EncodeDecodeSpecialClass : (Instr.vcvt 63 63 55 3 ⟨5, 2, 4, 1, 1⟩).wf = true ∧ (Instr.vcvt 63 63 55 3 ⟨5, 2, 4, 1, 1⟩).cls = some .x := by decide +kernel

theorem wit_EncodeDecodeMatrixAndCommandClasses : (Instr.mma 54 62 7 ⟨3, 4, 3, 3, 1, 1, 0⟩).wf = true ∧ (Instr.mma 54 62 7 ⟨3, 4, 3, 3, 1, 1, 0⟩).cls = some .m ∧
    (Instr.notePurge ⟨1, 63, 3, 7⟩).wf = true ∧ (Instr.notePurge ⟨1, 63, 3, 7⟩).cls = some .c := by decide +kernel

theorem wit_HeaderLegality : hdrFault 0x8000_0000 = none ∧ hdrFault 0x8000_0001 = some 1 ∧ hdrFault 0x8080_8000 = some 2 := by decide +kernel

theorem wit_KeepNeedsFitImage : (let h : Hdr := ⟨0, 0xFF, 0, false, 0, 0⟩
    slotSet h.pres 7 = false ∧ slotSet h.keep 7 = true ∧ ([(0, 0, 0, Instr.endt)] : List (Nat × Nat × Nat × Instr)).find? (fun t => t.1 == 7) = none ∧
    ([(0, 0, 0, Instr.endt)] : List (Nat × Nat × Nat × Instr)).find? (fun t => t.1 == 0) = some (0, 0, 0, .endt) ∧ Instr.unfitKeep .endt = true ∧
    Instr.unfitKeep (.tdec 0 0 1) = false ∧ Instr.irrevocable (.tdec 0 0 1) = true ∧ Instr.unfitKeep (.add 0 0 0) = false ∧ Instr.irrevocable (.add 0 0 0) = false) := by decide +kernel

theorem wit_DecodedBundle_keptRecipe : (let h : Hdr := ⟨0, 0xFF, 0, false, 0, 0⟩
    slotSet h.pres 4 = false ∧ slotSet h.keep 4 = true ∧ ([(4, 0, 0, Instr.rcpdef 5 0)] : List (Nat × Nat × Nat × Instr)).find? (fun t => t.1 == 4) = some (4, 0, 0, .rcpdef 5 0) ∧
    Instr.unfitKeep (.rcpdef 5 0) = false ∧ rcpdefOk [] (.rcpdef 5 0) = false) := by decide +kernel

theorem wit_DecodedBundle : (match decodeBundle [0xC000_0000, 0x0001_0830] [] with
    | .ok b => b.words == 2 && !b.hdr.ck && b.ops.length == 1
    | .error _ => false) = true := by decide +kernel

theorem wit_StepRunsDueEvent : ({ agenda := [.configRequest, .powerRemoved] } : State).agenda = .configRequest :: [.powerRemoved] := rfl

theorem wit_Shifts : (tX [(2, 1), (3, 2 ^ 64 - 1)]).xReady [2, 3] ∧ 63 < 64 ∧ (tX [(3, 2 ^ 63)]).xReady [3] := ⟨ready_tX _ _, by decide, ready_tX _ _⟩

theorem wit_IntegerArithmetic : (tX [(2, 1), (3, 2 ^ 64 - 1)]).xReady [2, 3] := ready_tX _ _

/-- A zero divisor, the overflow, and an ordinary pair. -/
theorem wit_Division : (tX [(2, 2 ^ 63), (3, 2 ^ 64 - 1)]).xReady [2, 3] ∧ (tX []).rx 3 = 0 ∧ ((tX [(2, 2 ^ 63)]).rx 2).toInt = -2 ^ 63 ∧
    ((tX [(3, 2 ^ 64 - 1)]).rx 3).toInt = -1 ∧ (tX [(3, 2)]).rx 3 ≠ 0 := ⟨ready_tX _ _, by decide +kernel, by decide +kernel, by decide +kernel, by decide +kernel⟩

theorem wit_CompareSelectAndBitFields : (tX [(2, 2 ^ 63), (3, 1)]).xReady [2, 3, 4] ∧ 9 ≤ 9 ∧ 1 ≤ 64 ∧ 0 + 64 ≤ 64 ∧ 63 + 1 ≤ 64 :=
  ⟨ready_tX _ _, by decide, by decide, by decide, by decide⟩

theorem wit_CountBits : (tX []).xReady [2] ∧ (tX []).rx 2 = 0 ∧ (tX [(2, 1)]).rx 2 ≠ 0 := ⟨ready_tX _ _, by decide +kernel, by decide +kernel⟩

theorem wit_ImmediateArithmetic : (tX [(2, 9)]).xReady [2] ∧ 511 < 1024 ∧ 512 < 1024 ∧ 1023 < 1024 := ⟨ready_tX _ _, by decide, by decide, by decide⟩

theorem wit_ScalarFloat : (tX [(2, 0x7FC0_0000), (3, 0xFF80_0000)]).xReady [2, 3, 4] ∧ isNan 0x7FC0_0000 0 = true ∧ isNan 0x7F80_0000 0 = false ∧ 7 ≤ 7 ∧
    (⟨0, 3, 4, 0, 0⟩ : CW).rm = 4 ∧ (⟨0, 3, 0, 0, 0⟩ : CW).rm ≠ 4 := ⟨ready_tX _ _, by decide +kernel, by decide +kernel, by decide, rfl, by decide⟩

theorem wit_OperationsWithoutResult : ((tX []).ar.getSr 0x017).toNat ≤ 0 ∧ (tX []).releaseReady ∧ (tX []).holdsCommands = false ∧ (tX []).cmdsOf (tX []).tid = [] :=
  ⟨by decide +kernel, released rfl rfl rfl rfl rfl, by decide +kernel, by decide +kernel⟩

theorem wit_MovesAndImmediates : (tX [(1, 5)]).xReady [1] ∧ (0x00D : Nat) ≠ 0x00C ∧ (⟨0, 0, 0, 0, .sr, 0x009, 2 ^ 13 - 1, none⟩ : Landing).kind = .sr ∧
    (⟨0, 0, 0, 0, .sr, 0x008, 15 * 2 ^ 16 + 16, none⟩ : Landing).val < 2 ^ 64 ∧ 2 ^ 16 - 1 < 2 ^ 16 ∧ 2 ^ 30 - 1 < 2 ^ 30 := ⟨ready_tX _ _, by decide, rfl, by decide, by decide, by decide⟩

theorem wit_RegisterInstructionFrame : (Instr.add 1 2 3).resultOnly = true ∧ (tX [(2, 5)]).opCheck (.add 1 2 3) = .ok ∧ (Instr.vcvt 1 2 3 0 ⟨0, 5, 0, 0, 0⟩).resultOnly = true ∧
    (tX []).opCheck (.vcvt 1 2 3 0 ⟨0, 5, 0, 0, 0⟩) = .ok ∧ ((tX []).modBun (fun b => { b with checked := true })).bun.checked = true := by decide +kernel

/-- Two results due for x5 in cycle 0, one for a later cycle. -/
theorem wit_LaterResultSurvives : (let l : Landing := ⟨0, 0, 1, 0, .x, 5, 1, none⟩
    let m : Landing := ⟨0, 0, 2, 0, .x, 5, 2, none⟩
    let k : Landing := ⟨4, 0, 0, 0, .x, 5, 3, none⟩
    let s := (tX []).modAr (fun a => { a with inflight := insertLanding m (insertLanding l [k]) })
    (5 ≠ 0 ∧ l.cyc = s.ar.scyc ∧ m.cyc = s.ar.scyc ∧ l.iss = m.iss ∧ l.slot < m.slot ∧ (∀ q ∈ [k], ¬ (q.kind = .x ∧ q.num = 5 ∧ q.cyc = s.ar.scyc))) ∧
    s.ar.inflight = insertLanding m (insertLanding l [k])) := by decide +kernel

theorem wit_ResultLandsAtItsCycle : (1 : Nat) ≠ 0 ∧ (63 : Nat) ≠ 0 := by decide

theorem wit_HardwiredRegisters : (⟨0, 0, 0, 0, .p, 0, 1, none⟩ : Landing).num = 0 ∧ (63 : Nat) < 2048 / 32 ∧ 56 ≤ 63 := by decide

theorem wit_PoisonedResult : (let a : Arch := { xpois := [(5, 0x40)] }
    (⟨0, 0, 0, 0, .x, 5, 1, some 0x40⟩ : Landing).kind = .x ∧ a.awaited .x 5 = none ∧ Tbl.has a.xpois 5 = true) := by decide +kernel
/-- The offer of a bundle that may issue. -/
def theOffer : Prep → Offer
  | .go o => o
  | _ => ⟨0, decodeHdr 0, 0, []⟩

def isGo : Prep → Bool
  | .go _ => true
  | _ => false

/-- `add x1, x2, x3` placed after reset; the opening of core 0's cycle; the cycle's start; the context that is asked. -/
def sAdd : State := State.reset.withFetchWord 32 0x0001_0830
def sOpen : State := ({ sAdd with order := [] ++ [0] } : State).cycleOpen 0
def sStart : State := sOpen.cycleStart 0
def sAsked : State := { sStart with cur := 0, ctx := 0 }

/-- Core 0 is due, its selector chooses context 0, whose bundle may issue, has room and can be committed. -/
theorem wit_StepRunsDecodedBundle : sAdd.agenda = [] ∧ sAdd.turn = false ∧ sAdd.order = 0 :: [] ∧ (sOpen.die (dieOf 0)).elw.halted = false ∧
    (sStart.core 0).joint = none ∧ (sStart.core 0).replay = false ∧ sStart.choose 0 (sStart.eligible 0) = some 0 ∧ isGo sAsked.prep = true ∧
    (theOffer sAsked.prep).pair = none ∧ (sAsked.issueRun (theOffer sAsked.prep)).stands = true ∧
    (theOffer sAsked.prep).ops.map (fun x => x.i) = [.add 1 2 3] ∧ Instr.actsAfter (.add 1 2 3) = false := by decide +kernel

/-- The same bundle as the context offers it: found at the pc, no packet of it poisoned, decoded, its condition met. -/
theorem wit_StepRunsDecodedBundle_offer : sAsked.seek seekFuel sAsked.ar.pc = .ok 0 ∧ (packetsTo sAsked.ar.pc 0).find? (fun k => sAsked.packetPois k) = none ∧
    (match decodeBundle (sAsked.wordsFrom 0) sAsked.ar.imgList with
     | .ok b => sAsked.condHolds b.hdr
     | .error _ => false) = true := by decide +kernel

/-- x1 holds 5, x2 holds 0. `br.ne x1, x2` goes on, `br.eq` falls through; the register targets are offset 0x40; BRT selects target 1. -/
theorem wit_TransfersLeaveTheirTarget : (let s := tP [(1, 5), (3, 0x40)]
    condI 1 (s.rx 1).toNat (s.rx 2).toNat = true ∧ condI 0 (s.rx 1).toNat (s.rx 2).toNat = false ∧ s.relTarget s.bun.pc (4 * sextI 30 16) = .ok 64 ∧
    s.relTarget s.bun.pc (4 * sextI 22 16) = .ok 64 ∧ s.regTarget (s.rx 3).toNat = .ok 64 ∧
    (∀ k, k < 4 → s.brtCond ([0, 0, 0, 0].getD k 0) 0 k = false) ∧
    s.brtCond ([0, 1, 0, 0].getD 1 0) 0 1 = true ∧ (∀ j, j < 1 → s.brtCond ([0, 1, 0, 0].getD j 0) 0 j = false) ∧ s.relTarget s.bun.pc (4 * sextI 24 0 + 64 * 1) = .ok 64 ∧
    s.bun.next % 2 ^ 17 < codeEnd) := by decide +kernel

theorem wit_LoopsAndBankSwitch : (let s := tP [(1, 5)]
    s.fallTarget 0 s.bun.pc s.bun.words = .ok 0 ∧ s.tripOf 0 0 3 ≠ 0 ∧ s.tripOf 1 1 0 ≠ 0 ∧ s.ar.endsAt s.bun.pc = [] ∧
    s.tripOf 0 0 0 = 0 ∧ (match s.fallTarget 0 (s.loopEnd 4) (s.bundleWords (s.loopEnd 4)) with
      | .ok _ => true
      | .error _ => false) = true ∧
    modI 64 (((s.rx 0).toNat : Int) + 4 * sextI 10 0) < 2 ^ 17 ∧ s.targetCheck 0 (1 - s.bun.pc / 2 ^ 17) 0 = .ok (2 ^ 17)) := by decide +kernel

/-- A transfer, and the end of a body that goes on: level 0 from 0x40 to 0x80 in iteration 0 of 2. -/
theorem wit_BundleEndMovesThePc : (let s := (tX []).modBun (fun b => { b with target := some 0x80 })
    let u := (tX []).modAr (fun a => { a with loops := [(0, ⟨0x40, 0x80, 0⟩)], sr := [(0x020, 2)] })
    s.bun.target = some 0x80 ∧ u.bun.noEnd = false ∧ u.bun.target = none ∧ (u.ar.endTest (u.ar.endsAt 0x80)).back = some 0x40) ∧
    (let s := (tX []).modBun (fun b => { b with words := 16 })
     s.bun.target = none ∧ (s.ar.endTest (s.ar.endsAt 0)).back = none ∧ (0 + 4 * s.bun.words) / 64 ≠ 0 / 64) ∧
    (let s := ((tX []).modBun (fun b => { b with words := 1 })).modLcore 0 (fun c => { c with code := c.code.store (wordBytes 4 [0x8000_0000]) })
     (0 + 4 * s.bun.words) / 64 = 0 / 64 ∧ s.word (0 + 4 * s.bun.words) ≠ 0) ∧ (∀ w ∈ (tX []).wordsFrom 4, w = 0) := by decide +kernel

theorem wit_IssueCondition : (let s := (tX []).modAr (fun a => { a with loops := [(0, ⟨0x40, 0x80, 0⟩)], sr := [(0x020, 2)] })
    (tX []).ar.inLoop 0 = false ∧ s.ar.inLoop 0 = true ∧ (match sAsked.bundleAt 0 with
      | .ok _ => true
      | .error _ => false) = true) := by decide +kernel

/-- The one-word bundle at 0 is for the first iteration of level 0, whose second iteration is in progress: its condition fails. -/
theorem wit_IssueCondition_fails :
    (let u := (tX []).modAr (fun a => { a with loops := [(0, ⟨0, 0x80, 0⟩)], sr := [(0x020, 2), (0x026, 1)] })
    let s := u.modLcore 0 (fun c => { c with code := c.code.store (wordBytes 0 [0x8000_0400]) })
    (match s.bundleAt 0 with
      | .ok b => b.hdr.ic == 1 && !s.condHolds b.hdr
      | .error _ => false) = true ∧ (match s.offered with
      | .ok o => o.a == 0 && o.ops.isEmpty
      | .error _ => false) = true) := by decide +kernel

/-- Each code at the least address or core at which it is given, and the last byte of the space. -/
theorem wit_ScratchpadAddressChecks : 2 ^ 27 ≤ 2 ^ 27 ∧ fld (24 * 2 ^ 21) 25 21 = 24 ∧ fld (24 * 2 ^ 21) 26 26 = 0 ∧ 0x18_0000 < fld 0x17_FFF9 20 0 + 8 ∧
    fld 1 20 0 + 8 ≤ 0x18_0000 ∧ 1 % 8 ≠ 0 ∧ fld 0x17_FFF8 20 0 + 8 ≤ 0x18_0000 ∧ 0x17_FFF8 % 8 = 0 := by decide +kernel

/-- One state for each clause: an address too large, one that is not aligned, one without a leaf, one of another task's region, a good one; regions of every state. -/
theorem wit_GlobalAddressChecks : (2 ^ 57 ≤ 2 ^ 57) ∧ (4 % 8 ≠ 0) ∧ (tG []).xlate (.core (tG []).cur) (tG []).asid 0x3_0000 false = .error 2 ∧
    (tG []).xlate (.core (tG []).cur) (tG []).asid 8 false = .ok ((tG []).phys 8) ∧
    ((tG []).setRegion 8 ⟨7, 0, 0, 0, 0, 0⟩).regionCheck 0 (((tG []).setRegion 8 ⟨7, 0, 0, 0, 0, 0⟩).phys 8) (tG []).tid (tG []).asid .plain false = some 1 ∧
    (tG []).regionCheck 0 ((tG []).phys 8) (tG []).tid (tG []).asid .plain false = none ∧
    (tG []).inHdm 8 = false ∧ ({ (tG []) with cfg := { (tG []).cfg with hdmSize := 2 ^ 24, hdmOff := 0 } } : State).inHdm 0x200_0000_0000 = true ∧
    ((tG []).phys 0x200_0000_0000).reg.owner ≠ 7 ∧ isAccWin 0x500_0000_0000 = true ∧ isAccWin 8 = false ∧ ((tG []).setRegion 8 ⟨7, 5, 3, 0, 0, 0⟩).region 8 = ⟨7, 5, 3, 0, 0, 0⟩ := by decide +kernel

/-- LDG of bulk memory at the last 8 bytes of its page; LDL weak and strong at the last 8 bytes of the scratchpad. -/
theorem wit_LoadsReturnMemory : 6 < 7 ∧ (tG [(1, 0xFFF8)]).xReady [1] ∧ (tG [(1, 0xFFF8)]).loadReady ∧ (tG [(1, 0xFFF8)]).late = [] ∧
    (tG [(1, 0xFFF8)]).globalAddr ((tG [(1, 0xFFF8)]).scalarEa 1 0 none) (Machine.sizeOf 3) false = .ok ((tG []).phys 0xFFF8) ∧
    (tG [(1, 0xFFF8)]).atOnce (dieOf (tG []).lc) 0xFFF8 (tG []).tid (tG [(1, 0xFFF8)]).fresh = true ∧ (tG []).home 0xFFF8 = .mem 0 ∧ (tG []).poisPA 0xFFF8 = false ∧
    qualOf none = 0 ∧ qualOf (some ⟨1, 0⟩) = 1 ∧ (tX []).strongHeld = false ∧
    spScalar (tX []).lc ((tX [(1, 0x17_FFF8)]).scalarEa 1 0 none) (Machine.sizeOf 3) (Machine.sizeOf 3) = .ok (0, 0x17_FFF8) ∧
    (tX []).spPois false 0 none 0x17_FFF8 (Machine.sizeOf 3) 1 = false :=
  ⟨by decide, readyX rfl rfl _, ⟨by decide +kernel, by decide +kernel⟩, rfl, by decide +kernel⟩

/-- The same for every scalar memory operation: the accumulator window too, barrier words of either kind, a BARWAIT whose phase has passed. -/
theorem wit_ScalarMemoryCompletes : (tG [(1, 0x2_0008)]).xReady [2, 1] ∧ (tG [(1, 0x2_0008)]).loadReady ∧ (tG []).acquires = [] ∧
    (tG [(1, 0x2_0008)]).globalAddr ((tG [(1, 0x2_0008)]).scalarEa 1 0 none) (Machine.sizeOf 3) false = .ok ((tG []).phys 0x500_0000_0008) ∧
    (tG []).home 0x500_0000_0008 = .acc 0 8 ∧ addTouches (tG []).cx.wbuf .acc 0 8 (Machine.sizeOf 3) = false ∧ (tG []).matMeet 0 8 (Machine.sizeOf 3) ≠ .wait ∧
    (tG [(1, 0x2_0008)]).globalAddr ((tG [(1, 0x2_0008)]).scalarEa 1 0 none) (Machine.sizeOf 3) true = .ok ((tG []).phys 0x500_0000_0008) ∧
    qualOf (some ⟨2, 0⟩) = 2 ∧ (tX []).strongHeld = false ∧ spScalar (tX []).lc ((tX [(1, 64)]).effAddr ((tX [(1, 64)]).rx 1).toNat) 8 8 = .ok (0, 64) ∧
    fld 0x0000_0001_0000_0000 31 10 = 0 ∧ fld 1 9 0 ≠ 0 ∧ fld (2 ^ 10) 31 10 ≠ 0 ∧ (tX []).bun.checked = false ∧
    fld ((tX [(1, 64)]).barWord ((tX [(1, 64)]).effAddr ((tX [(1, 64)]).rx 1).toNat)) 63 63 ≠ 1 :=
  ⟨readyX rfl rfl _, ⟨by decide +kernel, by decide +kernel⟩, by decide +kernel⟩

theorem wit_ScalarStoreFrame : ((tG [(1, 0xFFF8)]).modBun (fun b => { b with checked := true })).bun.checked = true ∧ (∀ e ∈ (tG []).cx.wbuf, e.line % 64 = 0) ∧
    spScalar (tX []).lc ((tX [(1, 0x17_FFF8)]).scalarEa 1 0 none) (Machine.sizeOf 3) (Machine.sizeOf 3) = .ok (0, 0x17_FFF8) ∧
    (tG [(1, 0xFFF8)]).globalAddr ((tG [(1, 0xFFF8)]).scalarEa 1 0 none) (Machine.sizeOf 3) true = .ok ((tG []).phys 0xFFF8) ∧ (tG []).home 0xFFF8 = .mem 0 := by decide +kernel

/-- The last line of a scratchpad, its last byte masked, under the block's own rotation code. -/
theorem wit_PerformedStoreFrame : ({} : State).memOk = true ∧ (let e : WEnt := ⟨.sp, 0, 0x17_FFC0, 2 ^ 63, 0, .weak, 4, 0, 0, 0, 0, 0, true⟩
    e.sp = .sp ∧ e.kind ≠ .addF ∧ e.kind ≠ .addI ∧ e.line % 64 = 0 ∧ e.line ≤ 0x17_FFFF ∧ 0x17_FFFF < e.line + 64 ∧ bit e.mask (0x17_FFFF - e.line) = true) := by decide +kernel

theorem wit_RotationCodes : 3 < 4 ∧ 31 < 32 ∧ bankOf 3 767 31 = bankOf 3 767 31 := by decide

theorem wit_GranuleState : (∃ t ∈ [(15, 1), (16, 2)], t.1 / 16 = 1) ∧ (∀ t ∈ [(15, 1)], t.1 / 16 ≠ 1) ∧ covers ((List.range 16).map (fun k => (k, 1))) 0 = true ∧
    covers [(15, 1)] 0 = false ∧ ([3, 5] : List Nat).Pairwise (fun a b => a < b) ∧ ([15] : List Nat) ≠ [] ∧ (∀ a ∈ [15], ∀ b ∈ [16], a / 16 ≠ b / 16) := by decide +kernel

theorem wit_MemoryReadAfterWrite : Memory.wf [(3, 1), (9, 255)] = true ∧ Memory.wf [] = true := by decide +kernel
theorem wit_VectorOperationsComplete : Instr.vecForm (.vadd 0 1 2 3 0 none) = some (1, 4) ∧ (tV [] [(2, 1), (3, 2)] []).ReadyFor (.vadd 0 1 2 3 0 none) :=
  ⟨rfl, readyB_ok (by decide +kernel)⟩

theorem wit_VectorElements : Instr.mergeForm (.vadd 0 1 2 3 1 none) = some (32, 1, 1) ∧ Instr.mergeForm (.vand 1 2 3 1) = some (8, 1, 1) ∧
    63 < 2048 / 32 ∧ 255 < 2048 / 8 ∧ act ((tV [] [] [(1, 15)]).vecIn.p 1) 32 63 = false ∧ act ((tV [] [] [(1, 15)]).vecIn.p 1) 32 0 = true ∧
    act ((tV [] [] [(1, 15)]).vecIn.p 0) 8 255 = true ∧ (tV [] [] []).vecIn.p 0 = 2 ^ 256 - 1 := by decide +kernel

theorem wit_PredicateAndSpecialOperations : (tV [] [(2, 1), (3, 2)] []).vReady [2, 3] ∧ typeWidth 0 = 32 ∧ typeWidth 12 = 8 ∧ 255 < 2048 / 8 ∧
    (tV [] [(2, 1), (3, 2)] []).ReadyFor (.vcvt 1 2 3 0 ⟨5, 0, 0, 0, 0⟩) ∧ (tX []).ReadyFor (.vrng 1 2 0) ∧
    (tV [(3, 9)] [(2, 1)] []).ReadyFor (.rowpred 1 2 3 0 ⟨0, 0, 0, 1⟩) ∧ (tV [] [(2, 1)] []).ReadyFor (.rcwupd 1 2 1 2 (some 255)) ∧
    (tV [] [(2, 1)] []).ReadyFor (.rcwadv 1 2 0 none) :=
  ⟨by unfold State.vReady; decide +kernel, by decide, by decide, by decide,
   readyB_ok (by decide +kernel),
   readyB_ok (by decide +kernel),
   readyB_ok (by decide +kernel),
   readyB_ok (by decide +kernel),
   readyB_ok (by decide +kernel)⟩

/-- A recipe of v5, and a table of 32 recipes. -/
def recipeOf (n : Nat) : Recipe := ⟨n, .vadd 0 n 2 3 0 none, 0, 0, [], 0, 0, false, 0, 0, 2, 0⟩

theorem wit_RecipeOperations : (let s := (tV [] [(2, 1), (3, 2)] []).modAr (fun a => { a with images := [(2, ⟨0, 0, .vadd 0 5 2 3 0 none, 0, []⟩)] })
    let f := (tX []).modAr (fun a => { a with recipes := (List.range 32).map recipeOf })
    s.ar.recipes.length < 32 ∧ s.ar.images.find? (fun t => t.1 == 2 + 0) = some (2 + 0, ⟨0, 0, .vadd 0 5 2 3 0 none, 0, []⟩) ∧
    (f.ar.recipe 31).isSome = true ∧ f.ar.recipe 32 = none ∧ 32 ≤ f.ar.recipes.length ∧ f.bun.checked = false) := by decide +kernel

theorem wit_RecipeOperations_embedded : (tV [] [(2, 1)] []).ReadyFor (.rcpdefEmbedded 1 2 ⟨0, 0, 0, 0, 0, 0⟩) :=
  readyB_ok (by decide +kernel)

theorem wit_TransposeTile : (tV [] [(2, 1)] []).ReadyFor (.ttw 2 ⟨2, 0, 0, 63, 0⟩) ∧ ((tV [] [(2, 1)] []).core (tV [] [(2, 1)] []).cur).ttBusy = false ∧
    (tV [(9, 63)] [(2, 1)] []).ReadyFor (.ttr 2 ⟨0, 3, 1, 0, 9⟩) ∧ (⟨0, 3, 1, 0, 9⟩ : TileW).wc ≤ 2 :=
  ⟨readyB_ok (by decide +kernel), by decide +kernel,
   readyB_ok (by decide +kernel), by decide⟩

/-- Rows of 256 bytes from offset 0: the base word in x20, the shape word in x21; the accumulator address of core 0 likewise in x22 and x23. -/
def sRows : State := tV [(20, 0), (21, 256), (22, 0), (23, 256)] [(8, 1)] []

theorem wit_VectorMemoryCompletes : sRows.ReadyFor (.vld 7 20 63 0 none) ∧ sRows.ReadyFor (.vlda 7 20 1 0 none) ∧ sRows.ReadyFor (.vst 8 20 1 0 none) ∧
    sRows.ReadyFor (.vsta 8 20 1 0 none) ∧ sRows.ReadyFor (.vstaAdd 8 20 1 0 none) ∧ sRows.ReadyFor (.vtkadd 8 20 1 0 3 63) ∧
    sRows.ReadyFor (.vaadd 8 20 1 0 7 1 0) ∧ sRows.ar.loads.length < 32 ∧ sRows.strongHeld = false ∧ sRows.vmRow false 20 1 none = .ok (0, 256, 0) ∧
    sRows.vmRow true 20 1 none = .ok (0, 256, 0) ∧ (∀ g ∈ activeGranules (sRows.rp 0).toNat, (sRows.lcore 0).tagFail 0 (256 + 16 * g) 16 = none) ∧
    (∀ g ∈ activeGranules (sRows.rp 0).toNat, addTouches sRows.cx.wbuf .acc 0 (256 + 16 * g) 16 = false ∧ sRows.matMeet 0 (256 + 16 * g) 16 ≠ .wait) ∧
    sRows.accRow 20 1 = .ok (256, false) ∧ sRows.laneFail (sRows.rp 0).toNat (256, false) = none :=
  ⟨readyB_ok (by decide +kernel), readyB_ok (by decide +kernel), readyB_ok (by decide +kernel), readyB_ok (by decide +kernel),
   readyB_ok (by decide +kernel), readyB_ok (by decide +kernel), readyB_ok (by decide +kernel), by decide +kernel⟩
/-- Descriptors of K = 32 E4M3 rows of A and B, and a tile of 128 rows 512 bytes apart. -/
def sMat : State := (tV [(20, 0), (21, 64), (22, 0x1_0000), (23, 64)] [(8, 1)] []).modAr (fun a => { a with tiles := [(0, 8 * 2 ^ 16)] })

def isOk {α β : Type} : Except α β → Bool
  | .ok _ => true
  | .error _ => false

def rowsOf : Except Trap (List (Nat × Nat × Nat)) → List (Nat × Nat × Nat)
  | .ok l => l
  | .error _ => []

theorem wit_MatrixOperationsComplete : sMat.ReadyFor (.mma 20 22 0 ⟨3, 3, 0, 127, 0, 0, 0⟩) ∧ tileBad (sMat.ar.tile 0) = none ∧ sMat.matFree = true ∧
    isOk (sMat.matRows (sMat.matBases 20 22).1 (sMat.rx 21).toNat (rowBytes 3 32) 128 0) = true ∧
    isOk (sMat.matRows (sMat.matBases 20 22).2 (sMat.rx 23).toNat (rowBytes 3 32) 128 0) = true ∧
    sMat.matTags (rowBytes 3 32) (rowsOf (sMat.matRows (sMat.matBases 20 22).1 (sMat.rx 21).toNat (rowBytes 3 32) 128 0)) = none ∧
    sMat.matTags (rowBytes 3 32) (rowsOf (sMat.matRows (sMat.matBases 20 22).2 (sMat.rx 23).toNat (rowBytes 3 32) 128 0)) = none ∧
    sMat.ReadyFor (.mma 8 22 0 ⟨3, 3, 0, 0, 0, 1, 0⟩) ∧ sMat.vReady [8] ∧ sMat.xReady [1] ∧
    ((tX [(1, 2 ^ 29 - 7 * 2 ^ 13 - 1)]).rx 1).toNat < 2 ^ 29 ∧ tileWordOk ((tX [(1, 2 ^ 29 - 7 * 2 ^ 13 - 1)]).rx 1).toNat = true :=
  ⟨readyB_ok (by decide +kernel), by decide +kernel, by decide +kernel, by decide +kernel, by decide +kernel, by decide +kernel, by decide +kernel,
   readyB_ok (by decide +kernel), by unfold State.vReady; decide +kernel, readyX rfl rfl _, by decide +kernel, by decide +kernel⟩

/-- Two tasks of one pairing group: task 1 on core 1 has presented its MMAP, task 0 on core 0 issues its own. -/
def pairTask (n : Nat) : Task := { id := 2 ^ 19 + n, state := 3, lcore := n, gv := [(0, true)], gid := [(0, 5)] }
def sPair : State :=
  let s := sMat.modDie 0 (fun d => { d with tasks := [(0, pairTask 0), (1, pairTask 1)], groups := [(5, { pair := true, nmem := 2 })] })
  let s := (s.modCx (fun k => { k with task := some (2 ^ 19) })).modLcore 1 (fun c => { c with code := c.code.store (wordBytes 0 [0x8200_0000, 0x4054_5800, 0x0CC0_0000]) })
  s.modCtxAt 1 0 (fun k => { k with task := some (2 ^ 19 + 1), presented := some (5, 0), arch := sMat.ar })

theorem wit_MatrixOperationsComplete_pair : sPair.partner 0 = some (5, 2 ^ 19 + 1) ∧ (sPair.group (dieOf sPair.lc) 5).tout = false ∧
    sPair.pairReads 20 22 ⟨3, 3, 0, 0, 0, 0, 0⟩ = .ok ∧ sPair.presentedAt (2 ^ 19 + 1) 5 = some (1, 0) ∧ sPair.pairFree 1 = true ∧
    (sPair.mmapOf 1 0).map (fun t => (t.1, t.2.isSome)) = some (.mmap 20 22 0 ⟨3, 3, 0, 0, 0, 0, 0⟩, false) ∧
    sPair.chkHalf 20 22 0 ⟨3, 3, 0, 0, 0, 0, 0⟩ (2 ^ 19 + 1) = .ok := by decide +kernel

theorem wit_MatrixResultFrame : ({} : State).memOk = true ∧ (let r : MRes := ⟨0, 0, 0, 0, 8 * 2 ^ 16, false, 3, 3, 32, List.replicate 128 0, [], 0, 0, [], [], 0, true, false⟩
    tileBad r.tile = none ∧ r.a.length ≤ 128 ∧ 127 < r.a.length ∧ 127 < 128 ∧ (∀ m, m < r.a.length → ¬ (tileOff r.tile m ≤ 0x1_0000 ∧ 0x1_0000 < tileOff r.tile m + 512))) := by
  decide +kernel

/-- A closed domain, one that task 0 opened from ticket 10 for 3, another address space's; address 0 of core 0's accumulator memory, BASE 10 and COUNT 3 in x2. -/
def sDom (m : Dom) : State := (tX [(2, 3 * 2 ^ 32 + 10), (3, 12)]).modLcore 0 (fun c => { c with doms := [(63, m)] })
def opened : Dom := { state := 1, base := 10, count := 3, next := 10, opened := true }

theorem wit_DomainOperationsComplete : (sDom opened).xReady [1, 2, 3] ∧ (sDom opened).loadReady ∧ (sDom opened).accOperand ((sDom opened).domEa 1) 1 = .ok ⟨0, 0, false, none⟩ ∧
    (sDom opened).accOperand ((sDom opened).domEa 1) 4 = .ok ⟨0, 0, false, none⟩ ∧ (((sDom opened).rx 2).toNat / 2 ^ 32 ≠ 0 ∧ ((sDom opened).rx 2).toNat % 2 ^ 32 + 3 ≤ 2 ^ 32) ∧
    ((tX []).rx 2).toNat / 2 ^ 32 = 0 ∧ (((sDom {}).lcore 0).dom 63).state = 0 ∧ (((sDom opened).lcore 0).dom 63).state = 1 ∧
    ((sDom opened).rx 3).toNat % 2 ^ 32 < opened.base + opened.count ∧ opened.next < ((sDom opened).rx 3).toNat % 2 ^ 32 ∧
    ((((sDom { opened with asid := 7 }).lcore 0).dom 63).opened = true ∧ (((sDom { opened with asid := 7 }).lcore 0).dom 63).asid ≠ (sDom opened).asid) ∧
    (((sDom { opened with next := 13 }).lcore 0).dom 63).next = opened.base + opened.count ∧ (((sDom { opened with gapev := true }).lcore 0).dom 63).gapev = true :=
  ⟨readyX rfl rfl _, ⟨by decide +kernel, by decide +kernel⟩, by decide +kernel⟩

/-- Two lines of page 0 of this package, for a task without quota, and an empty range. -/
theorem wit_DomainOperationsComplete_locks : (tG [(2, 512)]).xReady [1, 2] ∧ (tG [(2, 512)]).loadReady ∧
    (tG [(2, 512)]).chkLock ((tG [(2, 512)]).rx 1).toNat ((tG [(2, 512)]).rx 2).toNat = .ok ∧ (lineRange 0 512).2 = 2 ∧ (tG []).lockTest 0 512 = (1, []) ∧ (lineRange 0 0).2 = 0 ∧
    0 / 256 * 256 / 2 ^ 21 = ((0 / 256 + (lineRange 0 512).2) * 256 - 1) / 2 ^ 21 ∧
    ((tG [(2, 512)]).modDie 0 (fun d => { d with tasks := [(0, { lockq := 2 })] })).lockTest 0 512 = (0, [0, 256]) :=
  ⟨readyX rfl rfl _, ⟨by decide +kernel, by decide +kernel⟩, by decide +kernel⟩

/-- A task that can be decremented to 1, to 0 and beyond, and one that is gone. -/
def sTask (t : Task) : State := ({} : State).modDie 0 (fun d => { d with tasks := [(0, t)] })

theorem wit_CommitOperationsComplete : (tX [(1, 8)]).xReady [1, 2, 3] ∧ (tX [(1, 8)]).loadReady ∧ (tX [(1, 8)]).releaseReady ∧
    (tX [(1, 8)]).accOperand ((tX [(1, 8)]).domEa 1) 8 = .ok ⟨0, 8, false, none⟩ ∧ (({} : LCore).memOk = true ∧ ({} : LCore).acc.isPois 8 = false) ∧
    (tG []).chkXfer ((tG []).rx 1).toNat ((tG []).rx 2).toNat (0 + 1) 0 = .ok ∧ (tG []).chkXfer ((tG []).rx 1).toNat ((tG []).rx 2).toNat (0 + 1) 1 = .ok ∧
    (tG []).chkXfer ((tG []).rx 1).toNat ((tG []).rx 2).toNat (0 + 1) 2 = .ok ∧
    (tG [(1, 0x20_0000), (2, 1)]).chkToken ((tG [(1, 0x20_0000), (2, 1)]).rx 1).toNat ((tG [(1, 0x20_0000), (2, 1)]).rx 2).toNat = .ok ∧
    ((sTask { id := 2 ^ 19, state := 1, dep := 3 }).task (2 ^ 19)).state = 1 ∧ ((sTask { id := 2 ^ 19, state := 1, dep := 3 }).task (2 ^ 19)).id = 2 ^ 19 ∧
    ((sTask { id := 2 ^ 19, state := 1, dep := 3 }).task (2 ^ 19)).dep ≤ 3 ∧ ((tX []).task 0).slotGid 3 = none :=
  ⟨readyX rfl rfl _, ⟨by decide +kernel, by decide +kernel⟩, released rfl rfl rfl rfl rfl, by decide +kernel⟩

/-- TRUNC of an empty list, with a barrier and a counter; COPY of one 64-byte row between scratchpad lines. -/
def sCopy : State := (tX []).modAr (fun a => { a with stg := [(0, 2 ^ 62), (1, 2 ^ 62 + 64), (2, 2 ^ 32 + 64)] })

theorem wit_EngineCommandsCaptured : Instr.cmdOf (.copy ⟨0, 0, 3, 7⟩) = some (0, 0, ⟨0, 0, 3, 7⟩) ∧ sCopy.acquires = [] ∧
    (∀ k, k < 16 → sCopy.cfgBad 0 0 (sCopy.captureStg 0 0 0) k = false) ∧ spScalar sCopy.lc ((sCopy.captureStg 0 0 0).getD 15 0) 8 8 = .ok (0, 0) ∧
    sCopy.overlapBad 0 0 (sCopy.cmdGid 0 (sCopy.captureStg 0 0 0)) (sCopy.captureStg 0 0 0) = false ∧
    (sCopy.ar.getSr (0x010 + 7)).toNat + sCopy.ar.raising 7 < 65535 ∧
    (∀ k, k < 16 → (tX []).cfgBad 1 2 ((tX []).captureStg 1 2 0) k = false) := by decide +kernel
/-- A task in context 0 of core 0 that has pages, code and a descriptor of one 256-byte scratchpad row in x4 to x7. -/
def sRun : State :=
  ((withWalk (tP [(5, 2 ^ 32 + 2 ^ 16 + 1)])).modCore 0 (fun c => { c with tlb := pages })).modTask placedTask (fun t => { t with gv := [(0, true)], gid := [(0, 5)] })

/-- The same in a user handler, with the least frame that can be reloaded: its magic, version and handler bits, RESUME 0. -/
def sHandler : State := (sRun.memStore [(0x1_0003, 0x80), (0x1_0005, 1), (0x1_0006, 0x80), (0x1_0007, 0xD8)] false).modCx (fun k => { k with inh := true })

/-- The same with stream 1 bound to that row, as an input or an output. -/
def sStream (dir : Nat) : State := sRun.modAr (fun a => { a with streams := [(1, ⟨dir, 0, 0, 0, 8, 0, BitVec.ofNat 64 (2 ^ 32 + 2 ^ 16 + 1), 0, 0, 0⟩)] })

theorem wit_TaskOperationsComplete : sRun.xReady [4, 4 + 1, 4 + 2, 4 + 3] ∧ sRun.ar.flightTo 7 = 0 ∧ (sRun.binding 4 0 1 0 0 (some 8)).malformed = false ∧
    sRun.stream 7 = none ∧ ((sStream 0).stream 1).map (fun t => t.dir) = some 0 ∧ ((sStream 1).stream 1).map (fun t => t.dir) = some 1 ∧ (sStream 1).ar.flightTo 1 = 0 ∧
    sRun.releaseReady :=
  ⟨readyX rfl rfl _, by decide +kernel, by decide +kernel, by decide +kernel, by decide +kernel, by decide +kernel, by decide +kernel, released rfl rfl rfl rfl rfl⟩

theorem wit_TaskOperationsComplete_tasks : (let s := (sRun.modTask placedTask (fun t => { t with gw := [(0, true)] })).modCx (fun k => { k with bnd := true })
    s.myTask.slotGid 0 = some 5 ∧ s.cx.bnd = true ∧ Tbl.get false s.myTask.gw 0 = true ∧ s.phaseReached 0 = true ∧ s.myTask.slotGid 3 = none ∧ s.bun.checked = false) ∧
    sRun.matFlush.framePA false true = .ok 0 ∧ sRun.cx.inh = false ∧ sHandler.cx.inh = true ∧ sHandler.framePA true false = .ok 0x1_0000 ∧ sHandler.frameBad 0x1_0000 = false ∧ (sHandler.core sHandler.cur).trace = false ∧
    sRun.ar.loads.any (PendLoad.lateStream sRun.ar.scyc) = false := by
  decide +kernel

/-- User and supervisor causes, in the task and in its handler, with a vector that can be a target and one that cannot. -/
theorem wit_TakingAnException : sRun.framePA true true = .ok 0x1_0000 ∧ sRun.framePA false true = .ok 0 ∧ sRun.presentedWith sRun.tid = [] ∧ (sRun.core sRun.cur).trace = false ∧
    sRun.cx.trpend = none ∧ sRun.cx.preempt = false ∧ superCause 1 = false ∧ superCause 21 = true ∧ sRun.cx.inh = false ∧ sHandler.cx.inh = true ∧
    (sRun.rollback.modCx (fun k => { k with trpend := none })).codeOk ((sRun.rollback.modCx (fun k => { k with trpend := none })).myTask.trapvec + 0x40) = true ∧
    ((sRun.modTask placedTask (fun t => { t with trapvec := 2 ^ 18 })).rollback.modCx (fun k => { k with trpend := none })).codeOk (2 ^ 18) = false := by decide +kernel

/-- The same context at a boundary; with a late load for x2, read by the `add x1, x2, x3` at its pc. -/
def aLoad : PendLoad := ⟨9, 0, 0, 0, 0, .x, 2, 5, none, 0x40, 0, 8, false, false, false, some 0, 0, 0, false⟩
def sLate : State :=
  { (sAdd.modCtxAt 0 0 (fun k => { k with arch := { k.arch with loads := [aLoad], scyc := 5, sr := [(0x008, 0)] } })) with cur := 0, ctx := 0 }.modCore 0 (fun p => { p with cyc := 10 ^ 9 })

def isStop : Prep → Bool
  | .stop _ => true
  | _ => false

def trapOf : Prep → Option (Nat × Nat)
  | .trap _ _ t => some (t.cause, t.d1)
  | _ => none

theorem wit_CoreEvents_context : sRun.atBoundary = true ∧ (sRun.ctxAt 0 0).held = [] ∧
    (sRun.modCx (fun k => { k with hold := some { slot := 0, i := .xferOwned 1 2 0, vals := [0, 0], rest := [] } })).canTransfer = true ∧
    (sLate.loadAt 9).isSome = true ∧ aLoad.waits = false ∧ (sLate.ctxAt 0 0).frameLoads = [] ∧ aLoad.toStream = false ∧ trapOf sLate.prep = some (8, 0x40) ∧
    (∃ q ∈ sLate.ar.loads, q.id = 9 ∧ q.addr = 0x40) ∧ (sStream 0).canFetch 1 = true ∧ ((sStream 0).nextElem 1).isSome = true ∧
    isStop (sRun.modCx (fun k => { k with trpend := some { cause := 4 } })).prep = true := by decide +kernel

/-- A TRUNC that may start, one that has finished, one that has failed, and one parked with its task. -/
def aCmd : Cmd := ⟨4, 1, 2, ⟨0, 0, 0, 0⟩, List.replicate 16 0, 0, 0, placedTask, 0, 0, false, 0, 0, 0, 0, false, 0, none, none, false, false, [], [], [], []⟩
def sCmd (c : Cmd) : State := sRun.modCluster 0 (fun k => { k with gq := [c] })

theorem wit_CoreEvents_engines : (sCmd aCmd).canStart ⟨1, 0, 0⟩ = true ∧ (sCmd { aCmd with fin := true }).canComplete ⟨1, 0, 0⟩ = true ∧
    ((sCmd { aCmd with fault := some { cause := 13 } }).queueAt ⟨1, 0, 0⟩)[0]? = some { aCmd with fault := some { cause := 13 } } ∧ sRun.slotTaken aCmd = false ∧
    ((sCmd aCmd).task aCmd.task).state ≠ 5 ∧
    (((sRun.modTask placedTask (fun t => { t with parked := [(1, aCmd)] })).task ((sRun.modTask placedTask (fun t => { t with parked := [(1, aCmd)] })).ctxAt 0 0).tid).parked.find?
      (fun t => t.1 == 1)) = some (1, aCmd) ∧
    (sRun.modDie 0 (fun d => { d with demands := [⟨0, 0, 0, aCmd, none⟩] })).canDemand 0 = true := by decide +kernel

def aRes : MRes := ⟨0, 0, 0, 0, 8 * 2 ^ 16, false, 3, 3, 32, [], [], 0, 0, [], [], 0, true, false⟩
def aPart (refused : Bool) : Part := ⟨3, 0, 0, 1, 0, 0, [5], 0, 0, 0, 0, 0, refused, 0, 7, 0, 0⟩
def aWait : BankWait := ⟨9, false, 0, 8, 4, true, 0, 0, 0, [], 0⟩

theorem wit_CoreEvents_units : (let s := (tX []).modCore 0 (fun p => { p with cyc := 5000, matPend := [aRes] })
    s.fullWait 0 = none ∧ ((s.modLcore 0 (fun c => { c with waits := [aWait] })).fullWait 0) = some aWait ∧
    ((s.modLcore 0 (fun c => { c with waits := [aWait] })).lcores.find? (fun t => t.2.waits.any (fun w => w.id == 9))).isSome = true ∧
    4 < (s.core 0).cyc ∧ (s.core 0).matPend[0]? = some aRes ∧ aRes.committed = true ∧ aRes.written = false ∧ aRes.at_ < (s.core 0).cyc ∧ (s.ctxAt 0 aRes.ctx).commitOver = true ∧ s.asleep 0 = false ∧ (s.core 0).matPend.take 0 = [] ∧ (s.ctxAt 0 0).prom = false ∧
    (({ presented := some (5, 904, 1) } : Ctx).presented = some (5, 904, 1) ∧ 904 + 4096 ≤ (s.core 0).cyc)) ∧
    (({ parts := [aPart false] } : State).parts = [] ++ aPart false :: [] ∧ (aPart true).refused = true) ∧
    ((tX []).modLcore 0 (fun c => { c with doms := [(3, { opened with win := 256, timer := 256, pend := 1 })], parts := [{ aPart false with ticket := 12 }] })).gapDue 0 3 = true := by
  decide +kernel

theorem wit_TaskEvents : (let s := (sTask { id := 2 ^ 19, state := 2, prio := 3 }).modCore 0 (fun p => { p with ready := [(3, [2 ^ 19])] })
    (s.ctxAt 0 3).task = none ∧ (s.core 0).level = some 3 ∧ Tbl.get [] (s.core 0).ready 3 = 2 ^ 19 :: [] ∧ (s.task (2 ^ 19)).ran = false ∧ s.mayStart (2 ^ 19) = true ∧ s.asleep 0 = false) ∧
    (sRun.ctxAt 0 0).task = some placedTask ∧ sRun.preemptSet placedTask = [(0, 0)] ∧ sRun.canSave = true ∧ sRun.framePA false true = .ok 0 ∧
    ((sTask { id := 2 ^ 19, state := 4 }).task (2 ^ 19)).state = 4 ∧ ((sTask { id := 2 ^ 19, state := 4 }).task (2 ^ 19)).id = 2 ^ 19 ∧
    (sTask { id := 2 ^ 19, state := 4 }).savedWith (2 ^ 19) = [] ∧
    (let c := ((sTask { id := 2 ^ 19, state := 4 }).modCore 0 (fun p => { p with cyc := 7 })).core 0
     (Tbl.get (0, 0) c.joins 0).1 ≠ c.cyc) ∧
    (let l : Launch := ⟨3, 0, 0, [2 ^ 19], 0, 0, none⟩
     let s : State := { (sTask { id := 2 ^ 19, state := 5 }) with launches := [l] }
     s.launches.find? (fun k => k.id == l.id && k.die == l.die) = some l ∧ (∀ t ∈ l.tasks, (s.task t).state = 5 ∧ s.cmdsOf t = [] ∧ s.flushOwed (fld t 18 16) (fun _ => true) = false) ∧
       (∀ k ∈ s.launches, k.id = l.id → k = l) ∧ l.sent = none ∧ l.done = 0) ∧
    (∀ r ∈ (sRun.core 0).matPend, r.ctx = 0 → r.committed = false ∨ r.written = true) := by decide +kernel

/-- A bundle that waits on a counter, a ready task, and 4,096 cycles of waiting. -/
def holdOf : Prep → List (SlotInst × Wait)
  | .hold _ l => l
  | _ => []

def sYield : State := { (((State.reset.withFetchWord 32 0x1CC0_0000).modCtxAt 0 0 (fun k => { k with waited := 4096, arch := { k.arch with sr := [(0x010, 1)] } })).modCore 0
    (fun p => { p with ready := [(0, [7])] })) with cur := 0, ctx := 0 }

theorem wit_TaskEvents_yield : (holdOf sYield.prep).any yieldable = true ∧ sYield.yieldDue = true := by decide +kernel
/-- A group of three members, this die (number 0) second in order of the ends: 1 is silent since tick 0. -/
def sElw (g : Nat) (ms : Tbl Member) : State := ({} : State).modDie 0 (fun d => { d with elw := { egid := 9, gtime := g, members := ms } })
def elw3 : State := sElw 10150 [(0, { limit := 700 }), (1, { limit := 700, last := 9800 }), (2, { limit := 600, last := 10100, seq := some 4 })]
def aMsg (op : Nat) : ElwMsg := ⟨op, 2, false, 9, 500, 5, 10200, 2, 3, 10150⟩

theorem wit_ElwisetEvents : (elw3.elw 0).halted = false ∧ (∀ t ∈ [(100 : Int)], t < 16 * 115) ∧ (∃ t ∈ [(1840 : Int)], 16 * 115 ≤ t) ∧ (sElw 200 []).elw 0 = { egid := 9, gtime := 200 } ∧
    200 % 100 = 0 ∧ (elw3.elw 0).gtime % 100 = 50 ∧
    ((elw3.elw 0).members.filter (fun m => m.1 != elw3.elwId 0 && !m.2.silent && !m.2.joining && m.2.last + 250 < (elw3.elw 0).gtime)).map (fun m => m.1) = [1] ∧
    (let q := sElw 150 [(0, { limit := 700 }), (1, { limit := 700 })]
     ∀ m ∈ (q.elw 0).members, m.1 = q.elwId 0 ∨ m.2.silent = true ∨ m.2.joining = true ∨ (q.elw 0).gtime ≤ m.2.last + 250) ∧
    elw3.elwRef 0 = some (elw3.elwId 0) ∧ (sElw 0 [(1, { limit := 700 })]).elwRef 1 ≠ some ((sElw 0 []).elwId 1) ∧
    (let q := sElw 10000 [(0, { limit := 700 }), (1, { limit := 700, silent := true })]
     q.elwRef 0 = some (q.elwId 0) ∧
     ((q.elw 0).members.filter (fun m => m.2.silent && m.1 != q.elwId 0 && !m.2.removal && m.2.last + 10000 ≤ (q.elw 0).gtime)).map (fun m => m.1) = [1]) ∧
    (aMsg 1).egid = (elw3.elw 0).egid ∧ elw3.elwRef 0 ≠ some (aMsg 0).src ∧ (2, ({ limit := 600, last := 10100, seq := some 4 } : Member)) ∈ (elw3.elw 0).members ∧
    elw3.newer 0 (aMsg 1) = true ∧ elw3.newer 0 { aMsg 1 with seq := 3 } = false ∧ (aMsg 9).subj ≠ elw3.elwId 0 ∧ { aMsg 10 with subj := 0 }.subj = elw3.elwId 0 ∧
    (elw3.elw 0).joinTick = none ∧ (elw3.elw 0).hosting = none ∧ Tbl.get (0, 0, 0) (elw3.elw 0).raises (aMsg 4).subj ≠ ((aMsg 4).src, (aMsg 4).tick, (aMsg 4).mhz) ∧
    (let q := elw3.modElw 0 (fun e => { e with raises := [(2, 2, 10200, 500)] }); q.newer 0 (aMsg 4) = true ∧ Tbl.get (0, 0, 0) (q.elw 0).raises 2 = (2, 10200, 500)) ∧
    (∀ t ∈ (elw3.elw 0).members, t.2.joining = false) ∧ { aMsg 6 with subj := 7 }.src ≠ { aMsg 6 with subj := 7 }.subj ∧
    (aMsg 8).subj ≠ elw3.elwId 0 ∧ Tbl.has (elw3.elw 0).members (aMsg 8).subj = true ∧ { aMsg 1 with egid := 8 }.egid ≠ (elw3.elw 0).egid ∧ (elw3.elw 0).go = false ∧
    (elw3.elw 0).egid ≠ 0 ∧ 300 ≤ 700 ∧ 700 % 25 = 0 := by decide +kernel

theorem wit_ElwisetEvents_pending : (let s := elw3.modElw 0 (fun e => { e with props := [(0, ⟨10200, 650, []⟩)], retry := [(1, 10150, 600)] })
    (s.elw 0).props = [(0, ⟨10200, 650, []⟩)] ∧ 10200 ≤ (s.elw 0).gtime + 50 ∧ (s.elw 0).retry = [(1, 10150, 600)] ∧ 10150 ≤ (s.elw 0).gtime ∧ 1 ≠ s.elwId 0 ∧
    Tbl.has (s.elw 0).members 1 = true ∧ (s.elw 0).props.find? (fun q => q.1 == 0) = some (0, ⟨10200, 650, []⟩)) ∧
    (let s := ({} : State).modDie 0 (fun d => { d with elw := { joinTick := some 250, gtime := 200, joinEgid := 9 } })
     (s.elw 0).joinTick = some 250 ∧ 250 ≤ (s.elw 0).gtime + 50 ∧ (s.elw 0).joinN = 0 ∧ (s.elw 0).joinTick.isSome = true ∧ (aMsg 7).busy = false ∧ (aMsg 7).n ≠ 0) ∧
    ((({} : State).modDie 0 (fun d => { d with elw := { joinEgid := 9 } })).elw 0).joinEgid ≠ 0 ∧ ((({} : State)).elw 0).egid = 0 ∧
    (let s := (List.range 8).foldl (fun (s : State) d => s.modElw d (fun e => { e with powerLim := 300 })) {}
     ∀ k, k < 8 → (s.elw k).powerLim = 300) := by decide +kernel

/-- Messages of kind `k`, TAG 3, from die 1 to die 0 with two words, and the copy that an answer to one of kind `k` finds. -/
def aFlit (k : Nat) (ws : List Nat) : Msg := ⟨k, 1, 0, 0, 0, 3, 0, 0x40, ws, false⟩
def sCopies (k : Nat) (ws : List Nat) : State := ({} : State).modDie 0 (fun d => { d with copies := [⟨⟨k, 0, 1, 0, 0, 3, 0, 0x40, ws, false⟩, 0, 0, 0, false, 0, 0, 0, false⟩] })

/-- A message that is at home and whose way is open, one for another package, one whose way round the ring is down, one that may not leave. -/
theorem wit_FabricMessages_ways : (aFlit 1 []).dpkg = (({} : State).die (bridgeOf (aFlit 1 []).dpkg (aFlit 1 []).addr)).pkg ∧ ({} : State).ringOpen 1 0 = true ∧
    ({ aFlit 1 [] with dpkg := 3 }).dpkg ≠ (({} : State).die (bridgeOf 3 0x40)).pkg ∧
    (({} : State).modDie 1 (fun d => { d with hopDown := List.range 16 })).ringOpen 1 0 = false ∧ ({} : State).mayLeave 0 { aFlit 1 [] with dpkg := 3 } = false ∧
    (({} : State).modDie (bridgeOf 3 0x40) (fun d => { d with p0en := true, p1en := true, npkgm1 := 3 })).mayLeave 0 { aFlit 1 [] with dpkg := 3 } = true ∧
    ({} : State).mayLeave 0 (aFlit 1 []) = true ∧ 7 < 8 := by decide +kernel

theorem wit_FabricMessages : 256 = 2 ^ ((aFlit 1 [8]).words.headD 0 % 256) ∧ ((sCopies 1 [3]).copyOf (aFlit 2 [5]) 1).map (fun c => c.m.words) = some [3] ∧
    ((sCopies 1 [8]).copyOf (aFlit 2 [5]) 1).map (fun c => c.m.words) = some [8] ∧ ((sCopies 5 [0]).copyOf (aFlit 10 [3]) 5).map (fun c => c.ref) = some 0 ∧
    (({} : State).home 0x500_0000_0040 = .acc 0 0x40) ∧ ((({} : State).lcore 0).atom 0x40 0 64 false 1 0).isSome = true ∧
    ((sCopies 7 [0]).copyOf (aFlit 8 [5]) 7).isSome = true ∧ (∀ u ∈ ((sCopies 7 [0]).die 0).subs, u.2.busy = false) ∧
    (((sCopies 3 []).die 0).copies.find? (fun k => k.m.kind == (3 + 3 * 64) % 2 ^ 6 && k.m.tag == (3 + 3 * 64) / 2 ^ 6 % 4096)).isSome = true ∧
    ((({} : State).takeNotice 0 ⟨0, 0, 0⟩).isSome = true) ∧ ((({} : State).die 0).collRdy.length < 256) ∧ (({} : State).region 0x40).st ≠ 3 ∧
    ((({} : State).setRegion 0x40 ⟨0, 0, 3, 0, 0, 0⟩).region 0x40).st = 3 ∧ ((({} : State).die 0).tokQ = []) ∧
    (({} : State).setRegion 0 ⟨0, 0, 3, 0, 0, 0⟩).holdsToken 0 0 = true ∧ ((sCopies 14 [5]).copyOf (aFlit 15 [5]) 14).isSome = true ∧ (aFlit 15 [5]).words.headD 0 ≠ 0 ∧
    ((({} : State).modDie 0 (fun d => { d with hopErr := [(3, 32)] })).die 0).hopErr = [(3, 32)] ∧ NatSet.mem ((({} : State).die 0)).hopDown 3 = false := by decide +kernel

/-- A part that is taken, one that is refused (its domain is being saved), one in conflict. -/
theorem wit_FabricMessages_parts : ((({ doms := [(0, { state := 1, count := 5 })] } : LCore).arrive { aPart false with td := 0, ticket := 0 }).2 = .taken) ∧
    ((({ doms := [(0, { state := 2, count := 5 })] } : LCore).arrive { aPart false with td := 0 }).2 = .refused) ∧
    ((({ doms := [(0, { state := 1, count := 5, asid := 4 })] } : LCore).arrive { aPart false with td := 0 }).2 = .conflict 3) := by decide +kernel

/-- Slot 63 of die 0 processes the list at address 0 of a mapped page, whose first two words are these. -/
def sList (w0 w1 : Nat) : State :=
  ((withWalk (tG [])).memStore (spread 0 16 (w0 + w1 * 2 ^ 64)) false).modDie 0 (fun d => { d with ready := true, subs := [(63, { busy := true })] })

def listHdr (ty len sub : Nat) : Nat := ty * 2 ^ 56 + len * 2 ^ 52 + sub * 2 ^ 50

/-- Every type of entry, with the least legal words; LEN 4 for the launches. -/
theorem wit_CommandListEntries : ((({} : State).sub 0 63).busy = false ∧ ((sList 0 0).sub 0 63).busy = true ∧ ((sList 0 0).die 0).ready = true) ∧
    (∀ t ∈ [1, 2], (sList (listHdr t 4 0) 0).listRead 0 63 0 = some (listHdr t 4 0) ∧ (sList (listHdr t 4 0) 0).listGap 0 63 (entryVas 0 (listHdr t 4 0)) = none ∧
      ((sList (listHdr t 4 0) 0).listWords 0 63 0 16).isSome = true) ∧
    (∀ t ∈ [(3, 0, 0), (4, 0, 0), (4, 1, 0), (5, 0, 0), (6, 0, 32), (7, 0, 32), (8, 0, 0), (10, 0, 0), (11, 0, 0), (12, 0, 0)],
      (sList (listHdr t.1 1 t.2.1) t.2.2).listRead 0 63 0 = some (listHdr t.1 1 t.2.1) ∧ (sList (listHdr t.1 1 t.2.1) t.2.2).listGap 0 63 [0] = none ∧
      (sList (listHdr t.1 1 t.2.1) t.2.2).listGap 0 63 (entryVas 0 (listHdr t.1 1 t.2.1)) = none ∧
      (sList (listHdr t.1 1 t.2.1) t.2.2).listWords 0 63 0 4 = some [listHdr t.1 1 t.2.1, t.2.2, 0, 0] ∧ fld (listHdr t.1 1 t.2.1) 63 56 = t.1 ∧
      fld (listHdr t.1 1 t.2.1) 55 52 = 1 ∧ entryOk t.1 [listHdr t.1 1 t.2.1, t.2.2, 0, 0] = true) ∧
    entryOk 4 [listHdr 4 1 2, 5, 1, 0] = true ∧ entryOk 9 [listHdr 9 1 0 + 1, 0, 0, 0] = true ∧ (sList (listHdr 3 1 0) 0).waitBlocked 0 63 = false ∧
    (sList (listHdr 12 1 0) 0).listLaunched 0 63 = true ∧ (sList 0 0).listOwed 0 = false ∧ ((sList 0 0).sub 0 63).skip = 0 ∧
    (((sList (listHdr 3 1 0) 0).modSub 0 63 (fun u => { u with skip := 1 })).sub 0 63).skip = 1 ∧ entryLen (fld (listHdr 3 1 0) 63 56) = some (fld (listHdr 3 1 0) 55 52) ∧
    ((sList 0 0).sub 0 63).calls.length < 8 ∧
    (sList 0 0).listAcc 0 0 (2 ^ 63 + 0x2_0000) = some (0, 0, none) ∧ ((((sList 0 0).lcore 0).atom 0 0 64 true 0 0).isSome = true) := by decide +kernel

theorem wit_ManagementEvents : (fld 16 4 0 ≤ 16 ∧ (∀ t ∈ (({} : State).die 0).tasks, t.2.state ≠ 2 ∧ t.2.state ≠ 3)) ∧
    ((({} : State).modDie 0 (fun d => { d with nmBusy := true })).die 0).nmBusy = true ∧ ((({} : State).modDie 0 (fun d => { d with xlGo := true })).die 0).xlGo = true ∧
    ({} : State).taken = [] ∧ (((sDom opened).lcore ((sDom opened).blockCore 0)).dom 63).state = 1 ∧
    (let s := (sDom { opened with state := 2 }).modCore 0 (fun p => { p with accsvGo := true, accsvAct := 1, accsvTd := 63 })
     (s.core 0).accsvGo = true ∧ (s.core 0).accsvAct = 1 ∧ ((s.lcore (s.blockCore 0)).dom (s.core 0).accsvTd).state = 2) ∧
    (((({} : State).lcore (({} : State).blockCore 0)).dom 0).state = 0 ∧ (({} : State).areaDom 0).pend ≤ 48 ∧ ({} : State).areaClean 0 = true ∧ fld (({} : State).readPAn 0 8) 5 0 = 0) ∧
    ({ code := 3 } : ErrCode).code ≠ 7 ∧ (7 * 2 ^ 24 + 0x1F_FFFF) % 2 ^ 24 < 0x20_0000 ∧ 64 * 32 ≤ (7 * 2 ^ 24 + 64 * 32) % 2 ^ 24 ∧ 7 < 8 ∧ ({} : State).peek 0 = .undef ∧
    (({} : State).modDie 0 (fun d => { d with dbg := { d.dbg with space := 2 } })).peek 0 = .val 0 := by decide +kernel

/-- A module that is started and ready, one that is not. -/
def sReady : State := { (({} : State).modDie 0 (fun d => { d with ready := true, stage := 7 })) with host := { started := true } }

/-- A module in a step of its start-up. -/
def sBoot (n : Nat) (f : StartFind) : State := (List.range 8).foldl (fun s d => s.modDie d (fun x => { x with stage := n })) { ({} : State) with host := { started := true, booting := some f, lanes := 16 } }
def goodFind : StartFind := ⟨true, true, [], [], false, true, true⟩

theorem wit_HostEvents : ({} : State).host.started = false ∧ sReady.host.started = true ∧ ((sBoot 5 goodFind).host.booting = some goodFind ∧ ((sBoot 5 goodFind).die 0).stage = 5 ∧
      goodFind.fatalUnit = false ∧ goodFind.failedCores = [] ∧ goodFind.failedGathers = [] ∧ (sBoot 5 goodFind).cfg.remap = []) ∧
    (((sBoot 7 goodFind).die 7).stage = 7 ∧ ((sBoot 7 goodFind).die 7).failed = false) ∧
    ({} : State).isReady = false ∧ sReady.isReady = true ∧ 8 + 8 ≤ ({ sReady with cfg := { sReady.cfg with hdmSize := 2 ^ 24 } } : State).cfg.hdmSize ∧ sReady.listens = true ∧
    sReady.host.pending = none ∧ (sBoot 2 goodFind).listens = true ∧ ((sBoot 2 goodFind).die 0).stage ≠ 7 ∧ sReady.notReady = none ∧ ofBytes [0xE8, 3] = 1000 ∧ ofBytes [0x28, 10] = 2600 ∧
    ofBytes [0xE7, 3] < 1000 ∧ (List.replicate 32 (0 : Nat)).length = 32 ∧ (sReady.die 0).noid = false ∧ ([] : List Nat).length ≠ 6 ∧
    ([0, 0, 0, 0, 0, 4] : List Nat).length = 6 ∧ ofBytes (([0, 0, 0, 0, 0, 4] : List Nat).drop 4) ≤ 1024 ∧ ofBytes (([0, 0, 0, 0, 0, 4] : List Nat).take 4) = 0 ∧
    bit (([0x7F, 0x00, 0x01, 0x2F, 0x7B, 0x80, 6, 0] : List Nat).getD 5 0) 7 = true ∧ badRequest [0x7F, 0x00, 0x01, 0x2F, 0x7B, 0x80, 6, 0] = true ∧
    ({ sReady with host := { sReady.host with pending := some [] } } : State).host.pending = some [] ∧ 4088 < (List.replicate 4089 (0 : Nat)).length := by decide +kernel

theorem wit_MemoryStaysCanonical : ({ mem := { mem := [(3, 1)] } } : State).memOk = true ∧ State.reset.memOk = true := by decide +kernel

end Sys2Proof.Tests
end

/-! ## Every memory stays in canonical form

An operation of the model keeps the form when it keeps the memories, or changes them by the operations of `Memory` and `Bank`. One lemma
for each operation that answers a state or a logical core, in the order of the model, up to the step.

Some proofs unfold their operation under a name of its own (`generalize`, `delta`, `subst`) and take an address or a range by name: then the
kernel compares functions, and evaluates no search and no home of a symbolic address. -/

section

/- The declarations are elaborated one after the other: all at once, the stacks of their threads exceed the memory of the check. -/
set_option Elab.async false

namespace Sys2Proof.Machine

/-- A bank whose bytes are listed in canonical form. -/
def Bank.Canon (k : Bank) : Prop := Memory.wf k.mem = true

/-- A logical core whose three memories are canonical. -/
def LCore.Canon (c : LCore) : Prop := c.sp.Canon ∧ c.acc.Canon ∧ c.code.Canon

/-- A state whose memories are all canonical. It speaks of `mem` and `lcores` alone, so it passes by `Iff.rfl` to every state that
differs in other fields. -/
def State.Canon (s : State) : Prop := s.mem.Canon ∧ ∀ t ∈ s.lcores, t.2.Canon

theorem LCore.memOk_iff (c : LCore) : c.memOk = true ↔ c.Canon := by
  simp [LCore.memOk, LCore.Canon, Bank.Canon, and_assoc]

theorem State.memOk_iff (s : State) : s.memOk = true ↔ s.Canon := by
  simp [State.memOk, State.Canon, Bank.Canon, LCore.memOk_iff]

/-- Structural recursion over a number, from what one call does with the answers of the calls below it. -/
theorem brecOn_induction {motive : Nat → Type} {P : ∀ n, motive n → Prop} {F : ∀ n, Nat.below (motive := motive) n → motive n}
    (hz : ∀ b, P 0 (F 0 b)) (hs : ∀ k (b : Nat.below (motive := motive) (k + 1)), P k b.1 → P (k + 1) (F (k + 1) b)) (n : Nat) :
    P n (Nat.brecOn n F) := by
  induction n with
  | zero => exact hz _
  | succ k ih => exact hs k _ ih

/-! ### Results that hold a state -/

/-- Every value that an engine's step answers, or a check lets through, satisfies `P`. -/
def EOk {ε α : Type} (P : α → Prop) (r : Except ε α) : Prop := ∀ a, r = .ok a → P a

/-- Every value that there is satisfies `P`. -/
def OptOk {α : Type} (P : α → Prop) (r : Option α) : Prop := ∀ a, r = some a → P a

/-- Every next state is canonical. -/
def OutOk (r : Host.Outcome State Fault Refusal) : Prop := ∀ t, r = .next t → t.Canon

/-- The state that comes first in a result is canonical. -/
def FstCanon {α : Type} (r : State × α) : Prop := r.1.Canon

/-- The logical core that comes second in a result is canonical. -/
def SndCanon {α : Type} (r : α × LCore) : Prop := r.2.Canon

/-- The state that an operation of a commit leaves is canonical, however it ends. -/
def Perf.Canon : Perf → Prop
  | .done s | .trap s _ _ | .hold s _ _ => s.Canon

theorem Perf.Canon.done {p : Perf} {s : State} (h : p.Canon) (e : p = .done s) : s.Canon := by subst e; exact h
theorem Perf.Canon.trap {p : Perf} {s : State} {o : CommitOp} {t : Trap} (h : p.Canon) (e : p = .trap s o t) :
    s.Canon := by subst e; exact h
theorem Perf.Canon.hold {p : Perf} {s : State} {l : List Nat} {r : Nat} (h : p.Canon) (e : p = .hold s l r) : s.Canon := by subst e; exact h

/-- The state that the lanes of a vector atomic leave is canonical. -/
def LaneEnd.Canon : LaneEnd → Prop
  | .all _ s | .stop _ _ _ s | .away _ _ _ s => s.Canon

theorem LaneEnd.Canon.all {r : LaneEnd} {n : Nat} {s : State} (h : r.Canon) (e : r = .all n s) : s.Canon := by subst e; exact h
theorem LaneEnd.Canon.stop {r : LaneEnd} {i n : Nat} {t : Trap} {s : State} (h : r.Canon) (e : r = .stop i t n s) : s.Canon := by
  subst e; exact h
theorem LaneEnd.Canon.away {r : LaneEnd} {i p n : Nat} {s : State} (h : r.Canon) (e : r = .away i p n s) : s.Canon := by
  subst e; exact h

theorem EOk.ok {ε α : Type} {P : α → Prop} {a : α} (h : P a) : EOk P (.ok a : Except ε α) := fun _ e => by cases e; exact h
theorem EOk.error {ε α : Type} {P : α → Prop} {e : ε} : EOk P (.error e : Except ε α) := fun _ e => by cases e
theorem EOk.out {ε : Type} {r : Except ε State} {s : State} (h : EOk State.Canon r) (e : r = .ok s) : s.Canon := h s e
theorem EOk.fst {ε α : Type} {r : Except ε (State × α)} {s : State} {a : α} (h : EOk FstCanon r) (e : r = .ok (s, a)) : s.Canon := h _ e
theorem EOk.map {ε α β : Type} {P : α → Prop} {Q : β → Prop} {r : Except ε α} {f : α → β} (h : EOk P r) (hf : ∀ {a}, P a → Q (f a)) :
    EOk Q (r.map f) := by
  cases r with
  | error e => exact .error
  | ok a => exact .ok (hf (h a rfl))

/-- A step that waits for the command's earlier writes. -/
theorem EOk.afterWrites {α : Type} {P : α → Prop} {s : State} {c : Cmd} {r : ERes α} (h : EOk P r) : EOk P (s.afterWrites c r) := by
  unfold State.afterWrites
  split
  · exact h
  · exact .error

theorem OptOk.some {α : Type} {P : α → Prop} {a : α} (h : P a) : OptOk P (.some a) := fun _ e => by cases e; exact h
theorem OptOk.none {α : Type} {P : α → Prop} : OptOk P .none := fun _ e => by cases e
theorem OptOk.out {r : Option State} {s : State} (h : OptOk State.Canon r) (e : r = .some s) : s.Canon := h s e
theorem OptOk.fst {α : Type} {r : Option (State × α)} {s : State} {a : α} (h : OptOk FstCanon r) (e : r = .some (s, a)) : s.Canon := h _ e
theorem OptOk.snd {α : Type} {r : Option (α × LCore)} {c : LCore} {a : α} (h : OptOk SndCanon r) (e : r = .some (a, c)) : c.Canon := h _ e
theorem OptOk.map {α β : Type} {P : α → Prop} {Q : β → Prop} {r : Option α} {f : α → β} (h : OptOk P r) (hf : ∀ {a}, P a → Q (f a)) :
    OptOk Q (r.map f) := by
  cases r with
  | none => exact .none
  | some a => exact .some (hf (h a rfl))
/-- A result made for each value of an option. -/
theorem OptOk.of_map {α β : Type} {Q : β → Prop} {r : Option α} {f : α → β} (hf : ∀ {a}, Q (f a)) : OptOk Q (r.map f) := by
  cases r with
  | none => exact .none
  | some a => exact .some hf

theorem OutOk.next {s : State} (h : s.Canon) : OutOk (.next s) := fun _ e => by cases e; exact h

namespace Bank.Canon

theorem store {k : Bank} {l : List (Nat × Nat)} (h : k.Canon) : (k.store l).Canon := Bank.store_wf h l
theorem storePois {k : Bank} {l : List (Nat × Nat)} (h : k.Canon) : (k.storePois l).Canon := Bank.storePois_wf h l
theorem fill {k : Bank} {l : List Nat} (h : k.Canon) : (k.fill l).Canon := h
theorem drain {k : Bank} {l : List Nat} (h : k.Canon) : (k.drain l).Canon := h
theorem taint {k : Bank} {a n : Nat} (h : k.Canon) : (k.taint a n).Canon := h
theorem either {c : Prop} [Decidable c] {a b : Bank} (ha : a.Canon) (hb : b.Canon) : (if c then a else b).Canon := by
  split
  · exact ha
  · exact hb
/-- Marks do not matter. -/
theorem upd {k b : Bank} (h : k.Canon) (hb : b.mem = k.mem := by rfl) : b.Canon := by
  unfold Bank.Canon
  rw [hb]
  exact h
/-- A bank with more bytes written. -/
theorem write {k b : Bank} {l : List (Nat × Nat)} (h : k.Canon) (hb : b.mem = k.mem.writeL l := by rfl) : b.Canon := by
  unfold Bank.Canon
  rw [hb]
  exact Memory.writeL_wf h l
/-- A bank with some bytes unlisted. -/
theorem filter {k b : Bank} {f : Host.Cell → Bool} (h : k.Canon) (hb : b.mem = k.mem.filter f := by rfl) : b.Canon := by
  unfold Bank.Canon
  rw [hb]
  exact Memory.filter_wf h f

end Bank.Canon

namespace LCore.Canon

/-- The form depends on the memories alone. -/
theorem upd {c d : LCore} (h : c.Canon) (hs : d.sp = c.sp := by rfl) (ha : d.acc = c.acc := by rfl) (hc : d.code = c.code := by rfl) :
    d.Canon := by
  unfold LCore.Canon at *
  rw [hs, ha, hc]
  exact h

theorem foldl {α : Type} {l : List α} {f : LCore → α → LCore} {c : LCore} (h : c.Canon) (hf : ∀ {c x}, c.Canon → (f c x).Canon) :
    (l.foldl f c).Canon := by
  induction l generalizing c with
  | nil => exact h
  | cons x l ih => exact ih (hf h)

theorem either {p : Prop} [Decidable p] {a b : LCore} (ha : a.Canon) (hb : b.Canon) : (if p then a else b).Canon := by
  split
  · exact ha
  · exact hb

theorem fstEither {p : Prop} [Decidable p] {α : Type} {a b : LCore × α} (ha : a.1.Canon) (hb : b.1.Canon) :
    (if p then a else b).1.Canon := by
  split
  · exact ha
  · exact hb

theorem fst {α : Type} {p : LCore × α} {c : LCore} {a : α} (h : p.1.Canon) (e : p = (c, a)) : c.Canon := by subst e; exact h
theorem snd {α : Type} {p : α × LCore} {c : LCore} {a : α} (h : p.2.Canon) (e : p = (a, c)) : c.Canon := by subst e; exact h

theorem withSp {c : LCore} {b : Bank} (h : c.Canon) (hb : b.Canon) : ({ c with sp := b } : LCore).Canon := ⟨hb, h.2⟩
theorem withAcc {c : LCore} {b : Bank} (h : c.Canon) (hb : b.Canon) : ({ c with acc := b } : LCore).Canon := ⟨h.1, hb, h.2.2⟩
theorem withCode {c : LCore} {b : Bank} (h : c.Canon) (hb : b.Canon) : ({ c with code := b } : LCore).Canon := ⟨h.1, h.2.1, hb⟩

theorem bank {c : LCore} {x : Space} (h : c.Canon) : (c.bank x).Canon := by
  cases x with
  | sp => exact h.1
  | acc => exact h.2.1
  | code => exact h.2.2
  | glob => rfl

theorem setBank {c : LCore} {x : Space} {b : Bank} (h : c.Canon) (hb : b.Canon) : (c.setBank x b).Canon := by
  cases x with
  | sp => exact h.withSp hb
  | acc => exact h.withAcc hb
  | code => exact h.withCode hb
  | glob => exact h

theorem storeRaw {c : LCore} {x : Space} {code : Option Nat} {l : List (Nat × Nat)} {pois fill : Bool} (h : c.Canon) :
    (c.storeRaw x code l pois fill).Canon :=
  h.setBank (.either (.fill (.either h.bank.storePois h.bank.store)) (.either h.bank.storePois h.bank.store))

end LCore.Canon

namespace State.Canon

theorem either {c : Prop} [Decidable c] {a b : State} (ha : a.Canon) (hb : b.Canon) : (if c then a else b).Canon := by
  split
  · exact ha
  · exact hb

/-- A fold over operations that each keep the form. -/
theorem foldl {α : Type} {l : List α} {f : State → α → State} {s : State} (h : s.Canon) (hf : ∀ {s x}, s.Canon → (f s x).Canon) :
    (l.foldl f s).Canon := by
  induction l generalizing s with
  | nil => exact h
  | cons x l ih => exact ih (hf h)

/-- The form depends on the memories alone. -/
theorem upd {s t : State} (h : s.Canon) (hm : t.mem = s.mem := by rfl) (hl : t.lcores = s.lcores := by rfl) : t.Canon := by
  unfold State.Canon at *
  rw [hm, hl]
  exact h

/-- Another global memory, itself in the form. -/
theorem remem {s t : State} (h : s.Canon) (hm : t.mem.Canon) (hl : t.lcores = s.lcores := by rfl) : t.Canon :=
  ⟨hm, hl ▸ h.2⟩

theorem fst {α : Type} {p : State × α} {s : State} {a : α} (h : p.1.Canon) (e : p = (s, a)) : s.Canon := by subst e; exact h
theorem snd {α : Type} {p : α × State} {s : State} {a : α} (h : p.2.Canon) (e : p = (a, s)) : s.Canon := by subst e; exact h

/-- A change of a logical core that keeps its memories canonical. -/
theorem lcore {s : State} {l : Nat} (h : s.Canon) : (s.lcore l).Canon := by
  unfold State.lcore
  obtain ⟨-, hl⟩ := h
  generalize s.lcores = t at hl
  induction t with
  | nil => exact ⟨rfl, rfl, rfl⟩
  | cons a t ih =>
    obtain ⟨k, c⟩ := a
    simp only [Tbl.get]
    split
    · exact hl _ List.mem_cons_self
    · exact ih fun x hx => hl x (List.mem_cons_of_mem _ hx)

theorem setLcore {s : State} {l : Nat} {c : LCore} (h : s.Canon) (hc : c.Canon) : (s.setLcore l c).Canon :=
  ⟨h.1, fun t ht => (Tbl.mem_put ht).elim (fun e => e ▸ hc) (h.2 t)⟩

/-- Logical cores changed one by one. -/
theorem mapLcores {s t : State} {f : Nat × LCore → Nat × LCore} (h : s.Canon) (hf : ∀ {x}, x.2.Canon → (f x).2.Canon)
    (hm : t.mem = s.mem := by rfl) (hl : t.lcores = s.lcores.map f := by rfl) : t.Canon := by
  refine ⟨hm ▸ h.1, fun x hx => ?_⟩
  rw [hl, List.mem_map] at hx
  obtain ⟨y, hy, rfl⟩ := hx
  exact hf (h.2 y hy)

theorem modLcore {s : State} {l : Nat} {f : LCore → LCore} (h : s.Canon) (hf : ∀ {c}, c.Canon → (f c).Canon) : (s.modLcore l f).Canon :=
  h.setLcore (hf h.lcore)

end State.Canon

/-! ### Units, tasks and registers -/

theorem State.Canon.setCore {s : State} {p : Nat} {c : PCore} (h : s.Canon) : (s.setCore p c).Canon := h.upd

theorem State.Canon.modCore {s : State} {p : Nat} {f : PCore → PCore} (h : s.Canon) : (s.modCore p f).Canon := h.setCore

theorem State.Canon.setCtxAt {s : State} {p c : Nat} {k : Ctx} (h : s.Canon) : (s.setCtxAt p c k).Canon := h.modCore

theorem State.Canon.modCtxAt {s : State} {p c : Nat} {f : Ctx → Ctx} (h : s.Canon) : (s.modCtxAt p c f).Canon := h.setCtxAt

theorem State.Canon.setCx {s : State} {k : Ctx} (h : s.Canon) : (s.setCx k).Canon := h.setCtxAt

theorem State.Canon.modCx {s : State} {f : Ctx → Ctx} (h : s.Canon) : (s.modCx f).Canon := h.setCx

theorem State.Canon.setAr {s : State} {a : Arch} (h : s.Canon) : (s.setAr a).Canon := h.modCx

theorem State.Canon.modAr {s : State} {f : Arch → Arch} (h : s.Canon) : (s.modAr f).Canon := h.setAr

theorem State.Canon.modBun {s : State} {f : Bun → Bun} (h : s.Canon) : (s.modBun f).Canon := h.upd

theorem State.Canon.modCluster {s : State} {n : Nat} {f : Cluster → Cluster} (h : s.Canon) : (s.modCluster n f).Canon := h.upd

theorem State.Canon.setDie {s : State} {d : Nat} {x : Die} (h : s.Canon) : (s.setDie d x).Canon := h.upd

theorem State.Canon.modDie {s : State} {d : Nat} {f : Die → Die} (h : s.Canon) : (s.modDie d f).Canon := h.setDie

theorem State.Canon.setTask {s : State} {id : Nat} {t : Task} (h : s.Canon) : (s.setTask id t).Canon := h.modDie

theorem State.Canon.modTask {s : State} {id : Nat} {f : Task → Task} (h : s.Canon) : (s.modTask id f).Canon := h.setTask

theorem State.Canon.bump {s : State} (h : s.Canon) : s.bump.Canon := h.upd

theorem State.Canon.fwEvent {s : State} {d kind detail : Nat} (h : s.Canon) : (s.fwEvent d kind detail).Canon := h.modDie

theorem State.Canon.blackBox {s : State} {d kind unit detail : Nat} (h : s.Canon) : (s.blackBox d kind unit detail).Canon := h.modDie

/-! ### Global memory -/

theorem State.Canon.memStore {s : State} {l : List (Nat × Nat)} {pois : Bool} (h : s.Canon) : (s.memStore l pois).Canon :=
  h.remem (.either h.1.storePois h.1.store)

theorem State.Canon.storePA {s : State} {l : List (Nat × Nat)} {pois engine : Bool} (h : s.Canon) : (s.storePA l pois engine).Canon := by
  unfold State.storePA
  split
  · exact h
  · split
    · exact h.modLcore (fun h1 => h1.withAcc (.either (Bank.Canon.fill (.either h1.2.1.storePois h1.2.1.store))
        (.either h1.2.1.storePois h1.2.1.store)))
    · exact h.memStore

theorem State.Canon.tlbFill {s : State} {p asid va : Nat} (h : s.Canon) : (s.tlbFill p asid va).Canon := by
  unfold State.tlbFill
  split
  · exact h
  · exact h.modCore.modCluster

theorem State.Canon.tlbFillClus {s : State} {k asid va : Nat} (h : s.Canon) : (s.tlbFillClus k asid va).Canon := by
  unfold State.tlbFillClus
  split
  · exact h
  · exact h.modCluster

theorem State.Canon.draw {s : State} (h : s.Canon) : s.draw.Canon := h.upd

theorem State.Canon.setRegion {s : State} {pa : Nat} {r : RegEnt} (h : s.Canon) : (s.setRegion pa r).Canon := h.upd

/-! ### The way between dies -/

theorem State.Canon.dropGot {s : State} {f : Nat → Bool} (h : s.Canon) : (s.dropGot f).Canon := h.upd

theorem State.Canon.dropGotOf {s : State} {p c : Nat} (h : s.Canon) : (s.dropGotOf p c).Canon := h.dropGot

/-! ### Scratchpad and accumulator memory -/

theorem LCore.Canon.store {c : LCore} {x : Space} {code : Option Nat} {l : List (Nat × Nat)} {pois fill : Bool} (h : c.Canon) :
    (c.store x code l pois fill).Canon := by
  unfold LCore.store
  dsimp only
  split
  · exact h.storeRaw.upd
  · exact h.storeRaw

theorem LCore.Canon.withStores {c : LCore} {unit : Nat} {w : List WEnt} (h : c.Canon) : (c.withStores unit w).Canon :=
  h.foldl (fun h1 => h1.foldl (fun h2 => h2.store))

theorem State.Canon.performEnt {s : State} {e : WEnt} (h : s.Canon) : (s.performEnt e).Canon := by
  unfold State.performEnt
  split
  · exact h.storePA
  · exact h.modLcore (fun h1 => LCore.Canon.either (h1.withAcc h1.2.1.write) h1.store)

/-! ### State registers, landings and late loads -/

theorem State.Canon.out {s : State} {kind : RKind} {num lat val : Nat} {pois : Option Nat} (h : s.Canon) :
    (s.out kind num lat val pois).Canon :=
  h.modAr

theorem State.Canon.outX {s : State} {d lat : Nat} {v : Word} (h : s.Canon) : (s.outX d lat v).Canon := h.out

theorem State.Canon.outV {s : State} {d lat v : Nat} (h : s.Canon) : (s.outV d lat v).Canon := h.out

theorem State.Canon.outP {s : State} {d lat v : Nat} (h : s.Canon) : (s.outP d lat v).Canon := h.out

theorem State.Canon.popLate {s : State} (h : s.Canon) : s.popLate.2.Canon := by
  unfold State.popLate
  split
  · exact h
  · exact h.upd

theorem State.Canon.load {s : State} {r : LoadRes} (h : s.Canon) : (s.load r).Canon := h.popLate.modAr.bump

theorem State.Canon.loadWait {s : State} {r : LoadRes} (h : s.Canon) : (s.loadWait r).Canon := h.modAr.bump

theorem State.Canon.loadBoth {s : State} {slot : Nat} {r : LoadRes} {waits : Bool} (h : s.Canon) : (s.loadBoth slot r waits).Canon :=
  h.popLate.modCx.bump

/-- Work done for another context. -/
theorem State.Canon.within {s : State} {p c : Nat} {f : State → State} (h : s.Canon) (hf : ∀ {s}, s.Canon → (f s).Canon) :
    (s.within p c f).Canon :=
  State.Canon.upd (s := f { s with cur := p, ctx := c }) (hf h)

theorem State.Canon.asyncWrite {s : State} {p c : Nat} {f : Arch → Arch} (h : s.Canon) : (s.asyncWrite p c f).Canon := h.modCtxAt

/-! ### Fetching -/

theorem State.Canon.fetchPacket {s : State} {pk : Nat} (h : s.Canon) : (s.fetchPacket pk).Canon := either h h.modCx

/-! ### Streams -/

theorem State.Canon.fetchNext {s : State} {q : Nat} (h : s.Canon) : (s.fetchNext q).Canon := by
  unfold State.fetchNext
  split
  · exact h
  · dsimp only
    split
    · split
      · exact h
      · exact h.modCx.dropGot
    · exact h

theorem State.Canon.cutWindows {s : State} {x : Space} {unit off n : Nat} (h : s.Canon) : (s.cutWindows x unit off n).Canon := h.modCx

theorem State.Canon.dropLine {s : State} {pa : Nat} (h : s.Canon) : (s.dropLine pa).Canon := h.upd

theorem State.Canon.withhold {s : State} {iss : Nat} {es : List WEnt} (h : s.Canon) : (s.withhold iss es).Canon := by
  unfold State.withhold
  refine ((h.foldl (fun h1 => h1.cutWindows)).modAr.modBun.foldl (fun h1 => ?_)).modCx
  split
  · exact h1.dropLine
  · exact h1

theorem State.Canon.append {s : State} {l : Landing} (h : s.Canon) : (s.append l).Canon := by
  unfold State.append
  dsimp only
  split
  · exact h
  · exact h.modTask
  · split
    · exact h.modTask
    · exact h.withhold.modAr

theorem State.Canon.flushStreams {s : State} (h : s.Canon) : s.flushStreams.Canon := h.modAr.foldl (fun h1 => h1.append)

theorem State.Canon.landOne {s : State} {l : Landing} (h : s.Canon) : (s.landOne l).Canon := either h.append h.modAr

theorem State.Canon.endCycle {s : State} (h : s.Canon) : s.endCycle.Canon := (h.modAr.foldl (fun h1 => h1.landOne)).modCx.modAr

/-! ### Results of the matrix engine -/

theorem State.Canon.writeRes {s : State} {r : MRes} (h : s.Canon) : (s.writeRes r).Canon := by
  refine h.modLcore fun h => h.foldl fun h => h.withAcc ?_
  simp only [Bank.Canon, Bank.fill_mem, Bank.store]
  exact Memory.writeL_wf h.2.1 _

theorem State.Canon.writeResAt {s : State} {p i : Nat} (h : s.Canon) : (s.writeResAt p i).Canon := by
  unfold State.writeResAt
  split
  · exact h
  · exact (h.writeRes.within (fun h1 => h1.foldl (fun h2 => h2.cutWindows))).modCore

theorem State.Canon.matFlushIf {s : State} {f : MRes → Bool} (h : s.Canon) : (s.matFlushIf f).Canon := by
  unfold State.matFlushIf
  refine h.foldl (fun h1 => ?_)
  split
  · exact either h1.writeResAt h1
  · exact h1

theorem State.Canon.matFlush {s : State} (h : s.Canon) : s.matFlush.Canon := h.matFlushIf

theorem State.Canon.matSettle {s : State} (h : s.Canon) : s.matSettle.Canon := h.matFlushIf

theorem State.Canon.resultsBefore {s : State} {e : WEnt} (h : s.Canon) : (s.resultsBefore e).Canon := by
  unfold State.resultsBefore
  split
  · exact h
  · exact h.matFlushIf

/-! ### Domains, atomics and barriers -/

theorem LCore.Canon.setDom {c : LCore} {td : Nat} {d : Dom} (h : c.Canon) : (c.setDom td d).Canon := h.upd

theorem LCore.Canon.applyLane {c : LCore} {p : Part} {i : Nat} (h : c.Canon) : (c.applyLane p i).Canon := (h.withAcc h.2.1.write).setDom

theorem LCore.Canon.applyLanes {c : LCore} {p : Part} (h : c.Canon) : (c.applyLanes p).Canon :=
  (h.setDom.foldl (fun h1 => h1.applyLane)).setDom

theorem LCore.Canon.runDom {td f : Nat} {c : LCore} (h : c.Canon) : (LCore.runDom td f c).Canon := by
  induction f generalizing c with
  | zero => exact h
  | succ f ih =>
    unfold LCore.runDom
    dsimp only
    split
    · exact ih h.setDom
    · split
      · exact h
      · exact ih h.upd.setDom.applyLanes

theorem LCore.Canon.settleDom {c : LCore} {td : Nat} (h : c.Canon) : (c.settleDom td).Canon := h.runDom

theorem LCore.Canon.discardHeld {c : LCore} {td : Nat} {f : Part → Bool} (h : c.Canon) : (c.discardHeld td f).Canon := h.upd.setDom

theorem LCore.Canon.dupPart {c : LCore} {td : Nat} (h : c.Canon) : (c.dupPart td).Canon := h.setDom

theorem LCore.Canon.arrive {c : LCore} {p : Part} (h : c.Canon) : (c.arrive p).1.Canon :=
  .fstEither h <| .fstEither h <| .fstEither h <| .fstEither h <| .fstEither h.dupPart <| .fstEither h.dupPart <| .fstEither h <|
    .fstEither h.applyLanes.settleDom <| .fstEither h.dupPart <| .fstEither h <| .fstEither h h.upd.setDom

theorem State.Canon.conflict {s : State} {task code addr td ticket : Nat} (h : s.Canon) : (s.conflict task code addr td ticket).Canon :=
  h.modTask

theorem State.Canon.modColl {s : State} {d id : Nat} {f : Cmd → Cmd} (h : s.Canon) : (s.modColl d id f).Canon := h.modDie

theorem State.Canon.refuted {s : State} {p : Part} {code : Nat} (h : s.Canon) : (s.refuted p code).Canon := either h.conflict h.modColl

theorem State.Canon.deliverPart {s : State} {p : Part} (h : s.Canon) : (s.deliverPart p).Canon := by
  unfold State.deliverPart
  dsimp only
  split
  · exact h.setLcore h.lcore.arrive
  · exact (h.setLcore h.lcore.arrive).modCore
  · exact (h.setLcore h.lcore.arrive).upd
  · exact (h.setLcore h.lcore.arrive).refuted

theorem LCore.Canon.skipTicket {c : LCore} {td asid t : Nat} (h : c.Canon) : (c.skipTicket td asid t).2.Canon := by
  unfold LCore.skipTicket
  dsimp only
  split
  · exact h
  · split
    · exact h
    · split
      · exact h
      · split
        · exact h
        · split
          · exact h.discardHeld.setDom.settleDom
          · split
            · exact h.discardHeld.setDom
            · exact h

theorem LCore.Canon.closeDom {c : LCore} {td task : Nat} {force : Bool} (h : c.Canon) : (c.closeDom td task force).2.Canon := by
  unfold LCore.closeDom
  dsimp only
  split
  · exact h
  · split
    · exact h
    · split
      · exact h
      · exact h.discardHeld.setDom

theorem LCore.Canon.atom {c : LCore} {off op w : Nat} {uns : Bool} {b x : Nat} (h : c.Canon) :
    OptOk SndCanon (c.atom off op w uns b x) := by
  unfold LCore.atom
  split
  · exact .none
  · exact .some (h.withAcc h.2.1.write)

theorem State.Canon.barMod {s : State} {unit off : Nat} {f : Nat → Nat} (h : s.Canon) : (s.barMod unit off f).Canon :=
  h.modLcore (fun h1 => h1.store)

/-! ### Frames -/

theorem State.Canon.clearPA {s : State} {pa n : Nat} (h : s.Canon) : (s.clearPA pa n).Canon := by
  unfold State.clearPA
  dsimp only
  split
  · exact h.modLcore (fun h1 => h1.withAcc h1.2.1.filter)
  · exact either (h.remem h.1.filter) (h.remem h.1.filter).memStore

theorem State.Canon.writeFrame {s : State} {pa : Nat} {items : List Item} (h : s.Canon) : (s.writeFrame pa items).Canon :=
  h.clearPA.foldl (fun h1 => h1.storePA)

/-! ### Traps, rollback and the operations shared by all -/

theorem State.Canon.postFault {s : State} {d va asid code : Nat} {write : Bool} {kind core : Nat} (h : s.Canon) :
    (s.postFault d va asid code write kind core).1.Canon :=
  h.storePA.modDie.fwEvent

theorem State.Canon.ringPut {s : State} {d r n v : Nat} (h : s.Canon) : (s.ringPut d r n v).Canon :=
  either h (either h.modDie h.storePA.modDie)

theorem State.Canon.traceRec {s : State} {kind pc cyc w3 : Nat} (h : s.Canon) : (s.traceRec kind pc cyc w3).Canon := either h.ringPut h

theorem State.Canon.rollback {s : State} (h : s.Canon) : s.rollback.Canon := by
  unfold State.rollback
  exact ((h.modCore.mapLcores (f := dropWaits _ _) (fun h => h.upd)).dropGotOf.modTask).modCx

theorem State.Canon.frameFault {s : State} {code : Nat} {user write : Bool} {job : FrameJob} (h : s.Canon) :
    (s.frameFault code user write job).Canon :=
  either h.postFault.modCx h.modCx

theorem State.Canon.freeCtx {s : State} (h : s.Canon) : s.freeCtx.Canon := h.matSettle.dropGotOf.setCx.modCore

theorem State.Canon.keepRows {s : State} {user : Bool} {capt held : List CommitOp} {a : Arch} (h : s.Canon) :
    (s.keepRows user capt held a).Canon :=
  h.upd

theorem State.Canon.deliverUser {s : State} {t : Trap} (h : s.Canon) : (s.deliverUser t).Canon := by
  generalize hf : State.deliverUser = f
  delta State.deliverUser at hf
  subst hf
  beta_reduce
  generalize s.framePA true true = r
  split
  · exact h.frameFault
  · exact h.writeFrame.keepRows.modCx

theorem State.Canon.keepLoads {s : State} (h : s.Canon) : s.keepLoads.Canon := h.upd

theorem State.Canon.deliverSuper {s : State} {t : Trap} {dbl : Bool} (h : s.Canon) : (s.deliverSuper t dbl).Canon := by
  unfold State.deliverSuper
  split
  · exact h.frameFault
  · exact h.writeFrame.keepRows.keepLoads.modTask.freeCtx.fwEvent.blackBox

theorem State.Canon.trapCore {s : State} {t : Trap} {dbl : Bool} (h : s.Canon) : (s.trapCore t dbl).Canon :=
  (either h.rollback.modCx.traceRec.modCx (either h.rollback.modCx.traceRec.deliverSuper h.rollback.modCx.traceRec.deliverUser)).upd

theorem State.Canon.abortPartners {s : State} {reason : Nat} (h : s.Canon) : (s.abortPartners reason).Canon :=
  h.foldl (fun h1 => h1.within (fun h2 => h2.trapCore))

theorem State.Canon.takeTrapAs {s : State} {t : Trap} {dbl : Bool} (h : s.Canon) : (s.takeTrapAs t dbl).Canon := h.abortPartners.trapCore

theorem State.Canon.takeTrap {s : State} {t : Trap} (h : s.Canon) : (s.takeTrap t).Canon := h.takeTrapAs

theorem State.Canon.setQueue {s : State} {kind p : Nat} {q : List Cmd} (h : s.Canon) : (s.setQueue kind p q).Canon := by
  unfold State.setQueue
  split
  · exact h.modCore
  · exact h.modCluster
  · exact h.modCore
  · exact h.modDie
  · exact h.modDie
  · exact h.modDie

theorem State.Canon.release {s : State} {c : Cmd} (h : s.Canon) : (s.release c).Canon := h.setQueue.bump

theorem State.Canon.putGroup {s : State} {gid : Nat} {g : Group} {d : Nat} (h : s.Canon) : (s.putGroup gid g d).Canon := h.modDie

theorem State.Canon.modGroup {s : State} {d gid : Nat} {f : Group → Group} (h : s.Canon) : (s.modGroup d gid f).Canon :=
  either (h.foldl (fun h1 => h1.putGroup)) h.putGroup

theorem State.Canon.leaveGroup {s : State} {id n : Nat} (h : s.Canon) : (s.leaveGroup id n).Canon := by
  unfold State.leaveGroup
  dsimp only
  split
  · exact h
  · exact h.modTask.modGroup

theorem State.Canon.makeReady {s : State} {id : Nat} (h : s.Canon) : (s.makeReady id).Canon := h.setTask.modCore

theorem State.Canon.decTask {s : State} {d id n : Nat} (h : s.Canon) : (s.decTask d id n).2.Canon := by
  unfold State.decTask
  dsimp only
  split
  · exact h
  · split
    · exact h.setTask.makeReady
    · exact h.setTask

theorem State.Canon.frameSr {s : State} {id n : Nat} {user : Bool} {f : Nat → Nat} (h : s.Canon) : (s.frameSr id n user f).Canon := by
  unfold State.frameSr
  dsimp only
  split
  · exact h
  · exact h.storePA

theorem State.Canon.srAsync {s : State} {id n : Nat} {f : Nat → Nat} (h : s.Canon) : (s.srAsync id n f).Canon := by
  unfold State.srAsync
  split
  · exact either h.asyncWrite.frameSr h.asyncWrite
  · exact either h.frameSr h

theorem State.Canon.frameDown {s : State} {id cc iss : Nat} {user : Bool} (h : s.Canon) : (s.frameDown id cc iss user).Canon := by
  generalize hf : State.frameDown = f
  delta State.frameDown at hf
  subst hf
  beta_reduce
  obtain ⟨l, hl⟩ : ∃ l, List.range 128 = l := ⟨_, rfl⟩
  rw [hl]
  extract_lets t
  generalize s.xlate _ _ _ _ = r
  split
  · exact h
  · extract_lets scyc
    split
    · exact h.frameSr
    · exact h.storePA

theorem State.Canon.counterDown {s : State} {id cc iss : Nat} (h : s.Canon) : (s.counterDown id cc iss).Canon := by
  unfold State.counterDown
  split
  · exact either h.asyncWrite.frameDown h.asyncWrite
  · exact either h.frameDown h

/-! ### Messages that leave -/

theorem State.Canon.passed {s : State} {d : Nat} {m : Msg} (h : s.Canon) : (s.passed d m).Canon := h.foldl (fun h1 => either h1.modDie h1)

theorem State.Canon.emit {s : State} {d : Nat} {m : Msg} (h : s.Canon) : (s.emit d m).Canon := either h.passed.upd h.upd

theorem State.Canon.sendTo {s : State} {d kind dpkg ddie addr pois : Nat} {words : List Nat} {by_ : Sender} (h : s.Canon) :
    (s.sendTo d kind dpkg ddie addr pois words by_).Canon :=
  h.modDie.emit

theorem State.Canon.dropReady {s : State} {id : Nat} (h : s.Canon) : (s.dropReady id).Canon := h.upd

theorem State.Canon.sendHome {s : State} {d kind pa pois : Nat} {words : List Nat} {by_ : Sender} (h : s.Canon) :
    (s.sendHome d kind pa pois words by_).Canon :=
  h.sendTo

theorem State.Canon.staleLine {s : State} {d pa : Nat} (h : s.Canon) : (s.staleLine d pa).Canon := h.modDie

theorem State.Canon.storeFar {s : State} {d pa mask data mode pois : Nat} {engine : Bool} {by_ : Sender} (h : s.Canon) :
    (s.storeFar d pa mask data mode pois engine by_).Canon :=
  (either (h.foldl (fun h1 => h1.memStore)) h).staleLine.sendHome

theorem State.Canon.dropLines {s : State} {pa n : Nat} (h : s.Canon) : (s.dropLines pa n).Canon := h.upd

theorem State.Canon.performPart {s : State} {e : WEnt} (h : s.Canon) : (s.performPart e).Canon := by
  unfold State.performPart
  dsimp only
  split
  · exact either h.performEnt h.storeFar
  · split
    · exact h.performEnt
    · exact h.storeFar
  · exact h.performEnt

theorem State.Canon.performStore {s : State} {e : WEnt} (h : s.Canon) : (s.performStore e).Canon := h.foldl (fun h1 => h1.performPart)

/-! ### The matrix engine -/

theorem State.Canon.matStart {s : State} {r : MRes} {busy : Nat} (h : s.Canon) : (s.matStart r busy).Canon := h.modCore

/-! ### Commits -/

theorem State.Canon.spDrain {s : State} {acc : Bool} {unit : Nat} {rc : Option Nat} {off n mask : Nat} (h : s.Canon) :
    (s.spDrain acc unit rc off n mask).Canon :=
  h.modLcore (fun h1 => LCore.Canon.either (h1.withAcc h1.2.1.drain) (h1.withSp h1.1.drain))

theorem State.Canon.feLoad {s : State} {c : Nat} {acc : Bool} {unit : Nat} {rc : Option Nat} {off z mask old : Nat}
    {keep : Bool} {r : LoadRes} {go : State → LoadRes → Bool → State} (h : s.Canon) (hg : ∀ {s r w}, s.Canon → (go s r w).Canon) :
    (s.feLoad c acc unit rc off z mask old keep r go).Canon :=
  either (hg (either h h.spDrain)) ((hg h).modLcore fun h => h.upd)

theorem State.Canon.engResume {s : State} {task k : Nat} (h : s.Canon) : (s.engResume task k).Canon := by
  unfold State.engResume
  split
  · exact h
  · refine setQueue ?_
    split
    · split
      · exact h.modTask.barMod
      · exact h.modTask
    · exact h.modTask

theorem State.Canon.engCancel {s : State} {task k : Nat} (h : s.Canon) : (s.engCancel task k).Canon := by
  unfold State.engCancel
  split
  · exact h
  · extract_lets t u v
    have hu : u.Canon := State.Canon.modCluster (State.Canon.modTask h.dropReady)
    have hv : v.Canon := by
      dsimp only [v]
      split
      · split
        · exact hu.modLcore fun h => h.closeDom
        · exact hu
      · exact hu
    exact either hv.counterDown hv

theorem State.Canon.engCtl {s : State} {task v : Nat} (h : s.Canon) : (s.engCtl task v).Canon := either h.engResume (either h.engCancel h)

theorem State.Canon.xferRegions {s : State} {va n newst xb : Nat} (h : s.Canon) : (s.xferRegions va n newst xb).Canon := by
  unfold State.xferRegions
  refine h.foldl (fun h1 => ?_)
  split
  · exact h1
  · exact h1.setRegion.dropLines

theorem State.Canon.tokNext {s : State} {slot n : Nat} {l : List Nat} (h : s.Canon) : (s.tokNext slot n l).Canon := by
  delta State.tokNext
  refine brecOn_induction (P := fun _ (g : List Nat → Perf) => ∀ l, (g l).Canon) (fun _ _ => ?_) (fun k b ih l => ?_) n l
  · exact h
  · delta State.tokNext._f
    dsimp only
    split
    · exact h.loadBoth
    · split
      · exact h.loadBoth
      · split
        · exact h.loadBoth
        · split
          · exact ih _
          · exact h.sendHome

theorem State.Canon.tokRelease {s : State} {l : List Nat} (h : s.Canon) : (s.tokRelease l).2.Canon := by
  induction l generalizing s with
  | nil =>
    unfold State.tokRelease
    exact h
  | cons a t ih =>
    unfold State.tokRelease
    dsimp only
    split
    · exact ih h
    · split
      · exact ih h.dropLines.sendHome.setRegion
      · exact ih h

theorem State.Canon.performSome {s : State} {rest l : List WEnt} (h : s.Canon) : (s.performSome rest l).1.Canon := by
  induction l generalizing s rest with
  | nil =>
    unfold State.performSome
    exact h.modCx
  | cons a t ih =>
    unfold State.performSome
    split
    · exact h.modCx
    · exact ih h.resultsBefore.performStore

theorem State.Canon.performAll {s : State} (h : s.Canon) : s.performAll.Canon := (h.foldl (fun h1 => h1.resultsBefore.performStore)).modCx

theorem State.Canon.perfFence {s : State} {o : CommitOp} (h : s.Canon) : (s.perfFence o).Canon := by
  unfold State.perfFence
  dsimp only
  split
  · exact h.performSome
  · exact h.performSome

theorem State.Canon.sendAtom {s : State} {pa op typ b x : Nat} (h : s.Canon) : (s.sendAtom pa op typ b x).Canon := h.sendHome.bump

theorem State.Canon.perfAtom {s : State} {o : CommitOp} {d op typ : Nat} (h : s.Canon) : (s.perfAtom o d op typ).Canon := by
  unfold State.perfAtom
  dsimp only
  split
  · split
    · exact h
    · exact h.loadBoth
  · split
    · exact h
    · split
      · exact h.sendAtom
      · split
        · exact h
        · next e3 => exact (h.setLcore (h.lcore.atom.snd e3)).loadBoth

theorem State.Canon.atomLanes {s : State} {ea op : Nat} {uns mis : Bool} {p src : Nat} {l : List Nat} {n : Nat} (h : s.Canon) :
    (s.atomLanes ea op uns mis p src l n).Canon := by
  induction l generalizing s ea op uns mis p src n with
  | nil =>
    unfold State.atomLanes
    exact h
  | cons a t ih =>
    unfold State.atomLanes
    split
    · exact ih h
    · split
      · exact h
      · split
        · exact h
        · split
          · exact h
          · split
            · exact h
            · next e3 => exact ih (h.setLcore (h.lcore.atom.snd e3))

theorem State.Canon.perfVatom {s : State} {o : CommitOp} {op vr ret : Nat} {uns : Bool} (h : s.Canon) :
    (s.perfVatom o op vr ret uns).Canon := by
  unfold State.perfVatom
  extract_lets ad ea mis p src old rest r
  have hr : r.Canon := by
    dsimp only [r]
    split
    · split
      · exact h
      · exact h.atomLanes
    · exact h.atomLanes
  clear_value r
  split
  · exact either (asyncWrite hr) hr
  · exact sendAtom hr
  · split
    · exact loadBoth hr
    · exact hr

theorem State.Canon.perfXfer {s : State} {o : CommitOp} {n newst : Nat} (h : s.Canon) : (s.perfXfer o n newst).Canon := by
  unfold State.perfXfer
  split
  · exact h
  · exact h.xferRegions

theorem State.Canon.performOp {s : State} {o : CommitOp} (h : s.Canon) : (s.performOp o).Canon := by
  unfold State.performOp
  split
  · exact h.release
  · split
    · exact h
    · split
      · exact h.perfFence
      · exact h.perfFence
      · exact h.engCtl
      · exact h.leaveGroup
      · split
        · exact h
        · exact h.barMod.loadBoth
      · split
        · exact h
        · exact h.feLoad (fun h1 => h1.loadBoth)
      · exact h.feLoad (fun h1 => h1.loadBoth)
      · exact h.feLoad (fun h1 => h1.loadBoth)
      · exact h.perfAtom
      · exact h.perfAtom
      · exact h.perfAtom
      · exact h.perfAtom
      · exact h.perfAtom
      · exact h.perfVatom
      · exact h.perfVatom
      · exact h.perfVatom
      · exact h.perfVatom
      · exact h.decTask.loadBoth
      · exact h.perfXfer
      · exact h.perfXfer
      · exact h.perfXfer
      · dsimp only
        split
        · split
          · exact h.loadBoth
          · split
            · exact h
            · exact h.tokNext
        · split
          · exact h.loadBoth
          · split
            · exact h
            · exact h.tokNext
      · dsimp only
        split
        · exact h.loadBoth
        · split
          · exact h
          · exact h.tokRelease.loadBoth
      · exact h

theorem State.Canon.runOps {s : State} {l : List CommitOp} (h : s.Canon) : (s.runOps l).Canon := by
  induction l generalizing s with
  | nil =>
    unfold State.runOps
    exact h
  | cons a t ih =>
    unfold State.runOps
    split
    · next e => exact ih (h.performOp.done e)
    · next e => exact (h.performOp.trap e).performAll.modCx.takeTrap
    · next e => exact (h.performOp.hold e).modCx

/-! ### Engine commands -/

theorem State.Canon.capture {s : State} {i : Instr} (h : s.Canon) : (s.capture i).Canon := by
  unfold State.capture
  split
  · exact h
  · split
    · exact h
    · exact (either h.out h).modBun.bump

theorem State.Canon.engArrive {s : State} {c : Cmd} {a n : Nat} (h : s.Canon) : (s.engArrive c a n).Canon := by
  unfold State.engArrive
  split
  · exact h
  · split
    · exact h
    · exact h.barMod

theorem State.Canon.putSp {s : State} {c : Cmd} {u o rc : Nat} {d : EData} (h : s.Canon) : (s.putSp c u o rc d).1.Canon := by
  unfold State.putSp
  split
  · exact h
  · exact (h.modLcore (fun h1 => h1.storeRaw.storeRaw.upd)).engArrive

theorem State.Canon.putVa {s : State} {c : Cmd} {n m : Nat} {d : EData} (h : s.Canon) : (s.putVa c n m d).Canon := by
  induction n generalizing s c m d with
  | zero =>
    unfold State.putVa
    exact h
  | succ k ih =>
    unfold State.putVa
    split
    · exact h
    · refine ih ?_
      split
      · exact h
      · exact either h.storePA.storePA (h.foldl (fun h1 => h1.storeFar))

theorem State.Canon.engWriteVa {s : State} {c : Cmd} {va : Nat} {d : EData} (h : s.Canon) : EOk State.Canon (s.engWriteVa c va d) := by
  unfold State.engWriteVa
  split
  · exact .error
  · exact .ok h.putVa.engArrive

theorem State.Canon.engWrite {s : State} {c : Cmd} {w : Nat} {off : ℤ} {core : Option Nat} {d : EData} (h : s.Canon) :
    EOk FstCanon (s.engWrite c w off core d) := by
  unfold State.engWrite
  dsimp only
  split
  · split
    · exact .error
    · next e2 => exact .ok (h.engWriteVa.out e2)
  · split
    · exact .error
    · exact .ok h.putSp
  · split
    · exact .error
    · exact .ok h.putSp
  · split
    · exact .error
    · exact .ok (h.modLcore (fun h1 => h1.storeRaw.storeRaw)).engArrive
  · exact .ok (h.modLcore (fun h1 => h1.storeRaw.storeRaw)).engArrive

/-! ### The copy engine and the Sieve -/

theorem State.Canon.copyPut {s : State} {c : Cmd} {off : ℤ} {d : EData} {l : List (Option Nat)} (h : s.Canon) :
    EOk FstCanon (s.copyPut c off d l) := by
  induction l generalizing s c off d with
  | nil =>
    unfold State.copyPut
    exact .ok h
  | cons a t ih =>
    unfold State.copyPut
    split
    · exact .error
    · next e => exact ih (h.engWrite.fst e)

theorem State.Canon.putRows {s : State} {c : Cmd} {n : Nat} {l : List EData} (h : s.Canon) : EOk FstCanon (s.putRows c n l) := by
  induction l generalizing s c n with
  | nil =>
    unfold State.putRows
    exact .ok h
  | cons a t ih =>
    unfold State.putRows
    split
    · exact .error
    · next e => exact ih (h.engWrite.fst e)

theorem State.Canon.copyInPlace {s : State} {c : Cmd} (h : s.Canon) : EOk FstCanon (s.copyInPlace c) := by
  unfold State.copyInPlace
  dsimp only
  split
  · exact .error
  · split
    · exact .error
    · next e2 => exact .ok ((h.putRows.fst e2).modLcore (fun h1 => h1.upd))

theorem State.Canon.copyStep {s : State} {c : Cmd} (h : s.Canon) : EOk FstCanon (s.copyStep c) := by
  unfold State.copyStep
  dsimp only
  split
  · exact h.copyInPlace
  · split
    · split
      · exact .error
      · exact .ok h
      · split
        · exact .error
        · next e2 => exact .ok (h.copyPut.fst e2)
    · split
      · split
        · exact .ok h
        · split
          · exact .error
          · next e => exact .ok (h.copyPut.fst e)
      · exact .ok h

theorem LCore.Canon.setPerm {l : LCore} {k v : Nat} (h : l.Canon) : (l.setPerm k v).Canon := h.upd

theorem State.Canon.sieveStep {s : State} {c : Cmd} (h : s.Canon) : EOk FstCanon (s.sieveStep c) := by
  unfold State.sieveStep
  dsimp only
  split
  · split
    · exact .error
    · exact .ok h
  · split
    · split
      · exact .ok (h.modLcore (fun h1 => h1.setPerm))
      · split
        · exact .error
        · split
          · exact .error
          · next e2 => exact .ok ((h.modLcore (fun h1 => h1.setPerm)).engWrite.fst e2)
    · split
      · exact .error
      · exact .ok (h.modLcore (fun h1 => h1.store))

theorem State.Canon.engAdd {s : State} {c : Cmd} {off : ℤ} {d : EData} (h : s.Canon) : EOk State.Canon (s.engAdd c off d) := by
  unfold State.engAdd
  dsimp only
  split
  · exact .error
  · exact .ok ((h.modLcore (fun h1 => h1.foldl (fun h2 => h2.withAcc (Bank.Canon.fill (.either h2.2.1.write h2.2.1.storePois))))).foldl
      (fun h1 => h1.engArrive))

theorem State.Canon.restoStep {s : State} {c : Cmd} (h : s.Canon) : EOk FstCanon (s.restoStep c) := by
  unfold State.restoStep
  dsimp only
  split
  · split
    · exact .ok h
    · split
      · exact .error
      · split
        · exact h.engAdd.map (fun h1 => h1)
        · exact h.engWrite.map (fun h1 => h1)
  · exact .ok h

/-! ### The gather engine and Flowstone -/

theorem State.Canon.kvWrite {s : State} {c : Cmd} {base va : Nat} {d : EData} (h : s.Canon) : EOk State.Canon (s.kvWrite c base va d) := by
  unfold State.kvWrite
  split
  · exact .error
  · exact .ok h.putVa

theorem State.Canon.kvPut {s : State} {c : Cmd} {base va w : Nat} (h : s.Canon) : EOk State.Canon (s.kvPut c base va w) := h.kvWrite

theorem State.Canon.unpin {s : State} {c : Cmd} (h : s.Canon) : (s.unpin c).Canon := h.modCluster

theorem State.Canon.gathRows {s : State} {c : Cmd} {l : List (Nat × Nat × EData)} (h : s.Canon) : EOk FstCanon (s.gathRows c l) := by
  induction l generalizing s c with
  | nil =>
    unfold State.gathRows
    exact .ok h
  | cons a t ih =>
    unfold State.gathRows
    split
    · exact .error
    · next e => exact ih (h.engWrite.fst e)

theorem State.Canon.gathStep {s : State} {c : Cmd} (h : s.Canon) : EOk FstCanon (s.gathStep c) := by
  unfold State.gathStep
  dsimp only
  split
  · exact .ok h.unpin
  · split
    · exact .error
    · split
      · exact .error
      · split
        · exact .error
        · split
          · exact .error
          · split
            · exact .error
            · exact h.gathRows.map (fun h1 => h1.unpin)

theorem State.Canon.takeBusy {s : State} {c : Cmd} {tbl va e : Nat} {rest : List Nat} (h : s.Canon) :
    EOk FstCanon (s.takeBusy c tbl va e rest) := by
  unfold State.takeBusy
  split
  · exact .error
  · exact h.kvPut.map (fun h1 => h1)

theorem State.Canon.dropBusy {s : State} {c : Cmd} (h : s.Canon) : (s.dropBusy c).Canon := either (either h.storePA h.storeFar) h

theorem State.Canon.retireRec {s : State} {c : Cmd} {ret e layer : Nat} (h : s.Canon) : EOk State.Canon (s.retireRec c ret e layer) := by
  unfold State.retireRec
  split
  · exact .error
  · exact h.kvPut

theorem State.Canon.retireCount {s : State} {c : Cmd} {ret : Nat} (h : s.Canon) : EOk State.Canon (s.retireCount c ret) := by
  unfold State.retireCount
  split
  · exact .error
  · exact h.kvPut

theorem State.Canon.exsaveStep {s : State} {c : Cmd} (h : s.Canon) : EOk FstCanon (s.exsaveStep c) := by
  unfold State.exsaveStep
  refine EOk.afterWrites ?_
  dsimp only
  split
  · exact .ok h
  · split
    · exact .error
    · split
      · exact .ok h
      · split
        · exact .error
        · split
          · exact .error
          · split
            · split
              · exact .error
              · split
                · exact .error
                · split
                  · exact .error
                  · split
                    · exact .error
                    · split
                      · exact .error
                      · exact h.kvWrite.map (fun h1 => h1)
            · split
              · exact .error
              · split
                · exact .error
                · exact h.kvPut.map (fun h1 => h1)

theorem State.Canon.truncStep {s : State} {c : Cmd} (h : s.Canon) : EOk FstCanon (s.truncStep c) := by
  unfold State.truncStep
  refine EOk.afterWrites ?_
  dsimp only
  split
  · exact .error
  · split
    · split
      · exact .error
      · exact h.kvWrite.map (fun h1 => h1)
    · split
      · exact .ok h
      · split
        · exact .error
        · split
          · split
            · exact .error
            · exact h.takeBusy
          · split
            · split
              · split
                · exact .error
                · split
                  · exact h.retireRec.map (fun h1 => h1)
                  · exact .ok h
              · exact h.retireCount.map (fun h1 => h1)
              · exact h.kvPut.map (fun h1 => h1)
            · exact h.kvPut.map (fun h1 => h1)

theorem State.Canon.fillPut {s : State} {c : Cmd} {pool a v : Nat} {hurt : Bool} {l : List (Nat × Nat)} (h : s.Canon) :
    EOk State.Canon (s.fillPut c pool a v hurt l) := by
  induction l generalizing s c pool a v hurt with
  | nil =>
    unfold State.fillPut
    exact .ok h
  | cons a t ih =>
    unfold State.fillPut
    split
    · exact .error
    · next e => exact ih (h.kvWrite.out e)

theorem State.Canon.fillHeads {s : State} {c : Cmd} {f : FDesc} {e t : Nat} {y : Filled} {n m : Nat} {b : Bool} (h : s.Canon) :
    EOk FstCanon (s.fillHeads c f e t y n m b) := by
  induction n generalizing s c f e t y m b with
  | zero =>
    unfold State.fillHeads
    exact .ok h
  | succ k ih =>
    unfold State.fillHeads
    split
    · exact .error
    · dsimp only
      split
      · exact .error
      · next e3 => exact ih (h.fillPut.out e3)

theorem State.Canon.fillTokens {s : State} {c : Cmd} {t : Table} {f : FDesc} {e lb : Nat} {l : List Nat} {b : Bool} (h : s.Canon) :
    EOk FstCanon (s.fillTokens c t f e lb l b) := by
  induction l generalizing s c t f e lb b with
  | nil =>
    unfold State.fillTokens
    exact .ok h
  | cons a t ih =>
    unfold State.fillTokens
    split
    · exact .error
    · split
      · exact .error
      · next e3 => exact ih (h.fillHeads.fst e3)

theorem State.Canon.fillGaps {s : State} {c : Cmd} {tbl layer lb : Nat} (h : s.Canon) : EOk FstCanon (s.fillGaps c tbl layer lb) := by
  unfold State.fillGaps
  refine EOk.afterWrites ?_
  split
  · exact .error
  · split
    · exact .error
    · split
      · exact .error
      · split
        · exact .error
        · dsimp only
          split
          · exact .error
          · split
            · split
              · exact .error
              · split
                · exact .error
                · exact h.takeBusy.map (fun h1 => h1)
            · split
              · exact h.fillTokens.map (fun h1 => h1)
              · exact h.kvPut.map (fun h1 => h1)

theorem State.Canon.reblock {s : State} {c : Cmd} {f : FDesc} {e gap pbn n m : Nat} {b : Bool} (h : s.Canon) :
    EOk FstCanon (s.reblock c f e gap pbn n m b) := by
  induction n generalizing s c f e gap pbn m b with
  | zero =>
    unfold State.reblock
    exact .ok h
  | succ k ih =>
    unfold State.reblock
    split
    · exact .error
    · dsimp only
      split
      · exact .error
      · next e3 => exact ih (h.kvWrite.out e3)

theorem State.Canon.swapStep {s : State} {c : Cmd} (h : s.Canon) : EOk FstCanon (s.swapStep c) := by
  unfold State.swapStep
  refine EOk.afterWrites ?_
  dsimp only
  split
  · exact .error
  · split
    · exact .error
    · split
      · exact .error
      · split
        · exact .error
        · split
          · exact .error
          · split
            · exact h.retireRec.map (fun h1 => h1)
            · split
              · exact h.retireCount.map (fun h1 => h1)
              · split
                · split
                  · exact .error
                  · split
                    · exact .error
                    · split
                      · exact .error
                      · exact h.takeBusy
                · split
                  · split
                    · exact .error
                    · next e5 => exact .ok (h.reblock.fst e5)
                  · split
                    · exact .error
                    · split
                      · exact .error
                      · exact h.kvPut.map (fun h1 => h1)

theorem State.Canon.fillStep {s : State} {c : Cmd} (h : s.Canon) : EOk FstCanon (s.fillStep c) := by
  unfold State.fillStep
  split
  · dsimp only
    split
    · exact .ok h
    · exact h.fillGaps.map (fun h1 => h1)
  · exact h.swapStep

/-! ### The collective engine and the exit-notice unit -/

theorem State.Canon.collOpen {s : State} {c : Cmd} (h : s.Canon) : EOk FstCanon (s.collOpen c) := by
  unfold State.collOpen
  split
  · exact .error
  · dsimp only
    split
    · exact .error
    · exact .ok (h.setLcore (LCore.Canon.either (LCore.Canon.either h.lcore h.lcore.setDom).storeRaw
        (LCore.Canon.either h.lcore h.lcore.setDom)))

theorem State.Canon.collReady {s : State} {c : Cmd} {me peer : Nat} (h : s.Canon) : EOk State.Canon (s.collReady c me peer) := by
  unfold State.collReady
  dsimp only
  split
  · split
    · exact .error
    · exact .ok h.modDie
  · exact .ok h.sendTo

theorem State.Canon.collRow {s : State} {c : Cmd} {peer j : Nat} (h : s.Canon) : EOk State.Canon (s.collRow c peer j) := by
  unfold State.collRow
  split
  · exact .error
  · exact .ok (h.foldl (fun h1 => either h1.upd.bump h1.sendTo))

theorem State.Canon.collSend {s : State} {c : Cmd} {peer n m : Nat} (h : s.Canon) : EOk State.Canon (s.collSend c peer n m) := by
  induction n generalizing s c peer m with
  | zero =>
    unfold State.collSend
    exact .ok h
  | succ k ih =>
    unfold State.collSend
    split
    · exact .error
    · next e => exact ih (h.collRow.out e)

theorem State.Canon.collStep {s : State} {c : Cmd} (h : s.Canon) : EOk FstCanon (s.collStep c) := by
  unfold State.collStep
  dsimp only
  split
  · exact h.collOpen
  · split
    · exact .ok h
    · split
      · exact .error
      · exact .error
      · exact h.collReady.map (fun h1 => h1)
  · split
    · split
      · exact .error
      · exact .ok h
    · split
      · exact .error
      · split
        · exact .error
        · next e3 =>
            refine (OptOk.out ?_ e3).collSend.map (fun h1 => h1)
            split
            · exact .some h
            · exact .of_map h.modDie
  · split
    · exact .error
    · split
      · exact .ok (h.dropReady.modLcore (fun h1 => h1.closeDom))
      · exact .error

theorem State.Canon.collGap {s : State} {l td next : Nat} (h : s.Canon) : (s.collGap l td next).Canon := h.upd

theorem LCore.Canon.applyNotice {l : LCore} {tbl origin blk : Nat} (h : l.Canon) : (l.applyNotice tbl origin blk).Canon :=
  LCore.Canon.either h.storeRaw (LCore.Canon.either h h.storeRaw).storeRaw

theorem State.Canon.takeNotice {s : State} {d : Nat} {m : Notice} (h : s.Canon) : OptOk State.Canon (s.takeNotice d m) := by
  unfold State.takeNotice
  split
  · exact .some (h.modLcore (fun h1 => h1.applyNotice))
  · split
    · exact .none
    · exact .some h.modDie

theorem State.Canon.noteSendStep {s : State} {c : Cmd} (h : s.Canon) : EOk FstCanon (s.noteSendStep c) := by
  unfold State.noteSendStep
  dsimp only
  split
  · split
    · exact .ok h
    · exact .error
  · split
    · exact .error
    · split
      · exact .ok h
      · split
        · split
          · exact .error
          · next e3 => exact .ok (h.takeNotice.out e3)
        · split
          · exact .error
          · exact .ok h.sendTo

theorem State.Canon.noteRegister {s : State} {c : Cmd} (h : s.Canon) : EOk FstCanon (s.noteRegister c) := by
  unfold State.noteRegister
  dsimp only
  split
  · exact .error
  · split
    · exact .error
    · split
      · exact .error
      · split
        · exact .error
        · split
          · exact .error
          · exact .ok (h.modLcore (fun h1 => (h1.foldl (fun h2 => h2.applyNotice)).storeRaw)).modDie

theorem State.Canon.noteDeregister {s : State} {c : Cmd} (h : s.Canon) : EOk FstCanon (s.noteDeregister c) := by
  unfold State.noteDeregister
  dsimp only
  split
  · exact .error
  · exact .ok (h.modLcore (fun h1 => h1.storeRaw)).modDie

theorem State.Canon.notePurge {s : State} {c : Cmd} (h : s.Canon) : EOk FstCanon (s.notePurge c) := .ok h.modDie

/-! ### The run of an engine command -/

theorem State.Canon.cmdStep {s : State} {c : Cmd} (h : s.Canon) : EOk FstCanon (s.cmdStep c) := by
  unfold State.cmdStep
  split
  · exact h.copyStep
  · exact h.gathStep
  · exact h.exsaveStep
  · exact h.truncStep
  · exact h.sieveStep
  · exact h.restoStep
  · exact h.fillStep
  · exact h.collStep
  · exact h.noteSendStep
  · exact h.noteRegister
  · exact h.noteDeregister
  · exact h.notePurge

theorem State.Canon.usedLines {s : State} {c : Cmd} (h : s.Canon) : (s.usedLines c).Canon := either h.dropGot h

theorem State.Canon.runCmd {n : Nat} {x : State} {y : Cmd} (h : x.Canon) : (State.runCmd n x y).1.Canon := by
  induction n generalizing x y with
  | zero =>
    unfold State.runCmd
    exact h
  | succ k ih =>
    unfold State.runCmd
    split
    · exact h
    · split
      · exact h
      · next e => exact ih (h.cmdStep.fst e).usedLines

theorem State.Canon.putQueue {s : State} {q : QRef} {l : List Cmd} (h : s.Canon) : (s.putQueue q l).Canon := h.setQueue

theorem State.Canon.pinWaiting {s : State} {c : Cmd} (h : s.Canon) : (s.pinWaiting c).Canon := by
  unfold State.pinWaiting
  split
  · split
    · exact h
    · exact h.unpin.modCluster
  · exact h

theorem State.Canon.stopCmd {s : State} {c : Cmd} {x : Option EErr} (h : s.Canon) : (s.stopCmd c x).1.Canon := by
  unfold State.stopCmd
  split
  · exact h
  · exact h.pinWaiting
  · exact h.dropBusy.unpin
  · split
    · exact h.pinWaiting.postFault
    · exact h
  · exact h.sendHome
  · exact h.unpin.modDie

theorem State.Canon.engFill {s : State} {c : Cmd} (h : s.Canon) : (s.engFill c).Canon :=
  either (either (either h.tlbFill h).tlbFill (either h.tlbFill h)) (either h.tlbFillClus h)

theorem State.Canon.startCmd {s : State} {q : QRef} (h : s.Canon) : (s.startCmd q).Canon := by
  unfold State.startCmd
  split
  · exact h
  · exact (either h.modCore h).engFill.runCmd.stopCmd.putQueue.upd.draw

theorem State.Canon.finalArrival {s : State} {c : Cmd} (h : s.Canon) : (s.finalArrival c).Canon := by
  unfold State.finalArrival
  split
  · exact h
  · split
    · exact h
    · exact h.barMod

theorem State.Canon.completeCmd {s : State} {q : QRef} (h : s.Canon) : (s.completeCmd q).Canon := by
  unfold State.completeCmd
  split
  · exact h
  · exact (either (either (either h.putQueue.modCore h.putQueue).srAsync (either h.putQueue.modCore h.putQueue)).counterDown (either
      (either h.putQueue.modCore h.putQueue).srAsync (either h.putQueue.modCore h.putQueue))).finalArrival

theorem State.Canon.faultCmd {s : State} {q : QRef} (h : s.Canon) : (s.faultCmd q).Canon := by
  unfold State.faultCmd
  split
  · exact h
  · split
    · exact h
    · split
      · exact h
      · dsimp only
        split
        · exact either (either h.putQueue.modCore h.putQueue).modTask.fwEvent (either h.putQueue.modCore h.putQueue).modTask.modTask
        · split
          · exact either (either h.putQueue.modCore h.putQueue).modTask.fwEvent (either h.putQueue.modCore h.putQueue).modTask.modTask
          · exact either (either h.putQueue.modCore h.putQueue).barMod.modTask.fwEvent
              (either h.putQueue.modCore h.putQueue).barMod.modTask.modTask

theorem State.Canon.failGath {s : State} {c : Cmd} {t : Trap} (h : s.Canon) : (s.failGath c t).Canon := h.modCluster

theorem State.Canon.serveDemand {s : State} {d : Nat} (h : s.Canon) : (s.serveDemand d).Canon := by
  unfold State.serveDemand
  split
  · exact h
  · dsimp only
    split
    · next e2 => exact either (h.fillGaps.fst e2).usedLines.modDie (h.fillGaps.fst e2).usedLines.modDie
    · exact h.dropBusy.modDie.failGath
    · exact either h.postFault.modDie h
    · exact h.sendHome
    · exact h

/-! ### The commit as a whole, saves and reloads -/

theorem State.Canon.commitResults {s : State} (h : s.Canon) : s.commitResults.Canon := h.modCore

theorem State.Canon.commit {s : State} {own : List CommitOp} {explicit : Bool} (h : s.Canon) : (s.commit own explicit).Canon := by
  unfold State.commit
  refine (commitResults ?_).runOps
  split
  · exact h.modCx.traceRec
  · exact h.modCx.traceRec

theorem State.Canon.implicitCommit {s : State} (h : s.Canon) : s.implicitCommit.Canon := h.commit

theorem State.Canon.releaseFit {s : State} {l : List CommitOp} (h : s.Canon) : (s.releaseFit l).1.Canon := by
  induction l generalizing s with
  | nil =>
    unfold State.releaseFit
    exact h
  | cons a t ih =>
    unfold State.releaseFit
    split
    · split
      · exact ih h.release
      · exact ih h
    · exact ih h.runOps

theorem State.Canon.saveFrame {s : State} {yield : Bool} {left : List CommitOp} (h : s.Canon) : (s.saveFrame yield left).Canon := by
  unfold State.saveFrame
  split
  · exact h.modCx.frameFault
  · exact either h.writeFrame.keepRows.keepLoads.freeCtx.makeReady h.writeFrame.keepRows.keepLoads.freeCtx.modTask

theorem State.Canon.saveCtx {s : State} {yield : Bool} (h : s.Canon) : (s.saveCtx yield).Canon := by
  unfold State.saveCtx
  split
  · exact h.rollback.modCx.saveFrame
  · exact h.modCx.traceRec.performAll.commitResults.matFlush.releaseFit.saveFrame

theorem State.Canon.dropKept {s : State} {user : Bool} (h : s.Canon) : (s.dropKept user).Canon := h.upd

theorem State.Canon.reloadCtx {s : State} (h : s.Canon) : s.reloadCtx.Canon := by
  unfold State.reloadCtx
  split
  · exact h.frameFault
  · exact either h.takeTrapAs h.upd.dropKept.modCx

theorem State.Canon.returnTrap {s : State} {pc : Nat} (h : s.Canon) : (s.returnTrap pc).Canon := by
  unfold State.returnTrap
  split
  · exact h.takeTrap
  · split
    · exact h.frameFault
    · exact either h.takeTrapAs h.traceRec.dropKept.modCx

theorem State.Canon.resumeJob {s : State} (h : s.Canon) : s.resumeJob.Canon := by
  unfold State.resumeJob
  split
  · exact h
  · dsimp only
    split
    · exact h.modCx.deliverUser
    · exact h.modCx.deliverSuper
    · exact h.modCx.saveFrame
    · exact h.modCx.saveFrame
    · exact h.modCx.reloadCtx
    · exact h.modCx.returnTrap

theorem State.Canon.putSnaps {s : State} {pa n : Nat} {l : List (Nat × Nat)} (h : s.Canon) : (s.putSnaps pa n l).Canon :=
  h.foldl (fun h1 => h1.storePA.storePA)

theorem State.Canon.frameArrive {s : State} {pa : Nat} {q : PendLoad} {sh : Arch} (h : s.Canon) : (s.frameArrive pa q sh).Canon := by
  generalize hf : State.frameArrive = f
  delta State.frameArrive at hf
  subst hf
  beta_reduce
  obtain ⟨l, hl⟩ : ∃ l, List.range 32 = l := ⟨_, rfl⟩
  rw [hl]
  extract_lets hit
  split
  · exact h
  · extract_lets w cnt put
    split
    · exact h.storePA.storePA
    · exact h.storePA.putSnaps.storePA

/-! ### Transfers -/

theorem State.Canon.takeJump {s : State} {i : Instr} {ends : Bool} (h : s.Canon) : (s.takeJump i ends).Canon := by
  unfold State.takeJump
  split
  · exact h.modBun
  · exact h.modBun

theorem State.Canon.pushRet {s : State} (h : s.Canon) : s.pushRet.Canon := h.modCx

/-! ### Checks before issue, and the issue of one operation -/

theorem State.Canon.presentPair {s : State} {w : MmaW} (h : s.Canon) : (s.presentPair w).Canon := h.modCx

theorem State.Canon.gbarArrive {s : State} {n : Nat} (h : s.Canon) : (s.gbarArrive n).Canon := by
  unfold State.gbarArrive
  dsimp only
  split
  · exact h
  · exact either h h.modTask.modGroup

theorem State.Canon.sendPart {s : State} {t : AccTgt} {op td ticket mask lane0 addr : Nat} {pay : List Nat} (h : s.Canon) :
    (s.sendPart t op td ticket mask lane0 addr pay).Canon := by
  unfold State.sendPart
  split
  · exact h.upd.bump
  · exact h.sendHome

theorem State.Canon.sendScalar {s : State} {op ea x ticket td : Nat} (h : s.Canon) : (s.sendScalar op ea x ticket td).Canon := by
  unfold State.sendScalar
  split
  · exact h
  · exact h.sendPart

theorem State.Canon.sendRow {s : State} {op p ea v ticket td n : Nat} (h : s.Canon) : (s.sendRow op p ea v ticket td n).Canon := by
  unfold State.sendRow
  refine h.foldl (fun h1 => ?_)
  split
  · exact h1
  · exact h1.sendPart

theorem State.Canon.clearTimeout {s : State} {i : Instr} {t : Trap} (h : s.Canon) : (s.clearTimeout i t).Canon := by
  unfold State.clearTimeout
  split
  · split
    · split
      · exact h.modGroup
      · exact h
    · exact h
  · exact h

theorem State.Canon.stopOp {s : State} {i : Instr} {t : Trap} (h : s.Canon) : (s.stopOp i t).Canon := by
  unfold State.stopOp
  split
  · exact h.clearTimeout.takeTrap
  · split
    · split
      · exact h.takeTrap
      · exact h.sendRow.takeTrap
    · exact h.takeTrap

theorem State.Canon.holdOp {s : State} {i : Instr} {x : Wait} (h : s.Canon) : (s.holdOp i x).Canon := by
  unfold State.holdOp
  split
  · exact either h.implicitCommit.modCx h
  · split
    · exact h.gbarArrive
    · exact h
  · split
    · exact h.presentPair
    · exact h
  · split
    · split
      · exact h.modCx
      · exact h
    · exact h
  · exact h

theorem State.Canon.tick {s : State} (h : s.Canon) : s.tick.Canon := h.modCore

/-- The three things that an operation can do keep the form, when its own effect does. -/
theorem State.Canon.runOp {i : Instr} {f : State → State} {s : State} (h : s.Canon) (hf : (f s).Canon) :
    OutOk (s.runOp i f) := fun t ht => by
  obtain rfl | ⟨w, -, rfl⟩ | ⟨e, -, rfl⟩ := State.runOp_cases ht
  · exact hf
  · exact h.holdOp.tick
  · exact h.stopOp

/-! ### Scalar instructions -/

theorem State.Canon.scalarOp {i : Instr} {d lat : Nat} {v : State → Word} {s : State} (h : s.Canon) : OutOk (State.scalarOp i d lat v s) :=
  h.runOp h.outX

theorem State.Canon.useRng {s : State} (h : s.Canon) : s.useRng.Canon := h.modBun

/-! ### Scalar memory instructions -/

theorem State.Canon.loadGlobal {s : State} {z d ea : Nat} (h : s.Canon) : (s.loadGlobal z d ea).Canon := by
  unfold State.loadGlobal
  dsimp only
  split
  · exact h
  · exact either h.modBun.load h.modBun.loadWait.sendHome

theorem State.Canon.storeGlobal {s : State} {ea n v : Nat} (h : s.Canon) : (s.storeGlobal ea n v).Canon := by
  unfold State.storeGlobal
  split
  · exact h
  · dsimp only
    split
    · exact h.modBun.withhold
    · exact h.modBun.withhold

theorem State.Canon.loadAs {s : State} {r : LoadRes} {waits : Bool} (h : s.Canon) : (s.loadAs r waits).Canon := either h.loadWait h.load

theorem State.Canon.loadLocal {s : State} {i : Instr} {z d q ea : Nat} (h : s.Canon) : (s.loadLocal i z d q ea).Canon := by
  unfold State.loadLocal
  split
  · exact h
  · exact either h.modBun (either (h.feLoad (fun h1 => h1.loadAs)) h.load)

theorem State.Canon.storeLocal {s : State} {ea n v : Nat} {k : WKind} (h : s.Canon) : (s.storeLocal ea n v k).Canon := by
  unfold State.storeLocal
  split
  · exact h
  · exact h.withhold

theorem State.Canon.defer {s : State} {i : Instr} {vals : List Nat} (h : s.Canon) : (s.defer i vals).Canon := h.modBun

/-! ### Groups and system operations -/

theorem State.Canon.landAll {s : State} (h : s.Canon) : s.landAll.Canon := h.modAr

theorem State.Canon.dropLocks {s : State} {id : Nat} (h : s.Canon) : (s.dropLocks id).Canon := h.upd

theorem State.Canon.decLink {s : State} {id : Nat} (h : s.Canon) : (s.decLink id).Canon := either h h.decTask

theorem State.Canon.endTask {s : State} (h : s.Canon) : s.endTask.Canon :=
  (h.flushStreams.performAll.matFlush.landAll.foldl (fun h1 => h1.leaveGroup)).dropLocks.decLink.decLink.modTask.freeCtx

/-! ### Ticket domains, atomics, locks and streams -/

theorem State.Canon.domResult {s : State} {d : Nat} {t : AccTgt} {ea v : Nat} (h : s.Canon) : (s.domResult d t ea v).Canon := h.load

theorem State.Canon.sendAway {s : State} {i : Instr} {pa : Nat} {vals : List Nat} (h : s.Canon) : (s.sendAway i pa vals).Canon := h.upd

theorem State.Canon.domOp {s : State} {i : Instr} {d ea : Nat} {vals : List Nat} {f : LCore → Nat × LCore} {away : Nat} (h : s.Canon)
    (hf : ∀ {c}, c.Canon → (f c).2.Canon) : (s.domOp i d ea vals f away).Canon := by
  unfold State.domOp
  split
  · exact h
  · split
    · exact h.sendAway.domResult
    · exact (h.setLcore (hf h.lcore)).domResult

theorem State.Canon.execTkdrain {d a td : Nat} {s : State} (h : s.Canon) : OutOk (execTkdrain d a td s) := by
  unfold Machine.execTkdrain
  refine h.runOp ?_
  split
  · exact h
  · split
    · exact h.sendAway.outX
    · exact (either (h.modLcore (fun h1 => h1.setDom)) h).outX.modCx

theorem State.Canon.lockResult {s : State} {d st n ea : Nat} (h : s.Canon) : (s.lockResult d st n ea).Canon := h.load

theorem State.Canon.execQsync {n : Nat} {s : State} (h : s.Canon) : OutOk (execQsync n s) := by
  unfold Machine.execQsync
  refine h.runOp ?_
  split
  · exact either h.modBun h
  · exact h

/-! ### Vector instructions -/

theorem State.Canon.vecOp {i : Instr} {d : Nat} {s : State} (h : s.Canon) : OutOk (State.vecOp i d s) := h.runOp h.outV

/-! ### The X class -/

theorem State.Canon.convert {s : State} {d a pv pq : Nat} {w : CW} (h : s.Canon) : (s.convert d a pv pq w).Canon :=
  either (either h.outV.outV h.outV).useRng (either h.outV.outV h.outV)

theorem State.Canon.predOp {i : Instr} {d : Nat} {f : State → Pred} {s : State} (h : s.Canon) : OutOk (State.predOp i d f s) :=
  h.runOp h.outP

theorem State.Canon.execRcpdef {d sl : Nat} {s : State} (h : s.Canon) : OutOk (execRcpdef d sl s) := by
  unfold Machine.execRcpdef
  refine h.runOp ?_
  split
  · exact h
  · exact h.modAr

/-! ### Vector memory instructions -/

theorem State.Canon.claimV {s : State} {v : Nat} (h : s.Canon) : (s.claimV v).Canon := h.modAr

theorem State.Canon.loadRow {s : State} {i : Instr} {acc : Bool} {d a k p : Nat} {w : Option MW} (h : s.Canon) :
    (s.loadRow i acc d a k p w).Canon := by
  unfold State.loadRow
  split
  · exact h
  · exact either h.claimV.defer (either (h.feLoad (fun h1 => h1.loadAs)) h.load)

theorem State.Canon.storeRow {s : State} {acc : Bool} {src a k mask : Nat} {kind : WKind} {w : Option MW} (h : s.Canon) :
    (s.storeRow acc src a k mask kind w).Canon := by
  unfold State.storeRow
  split
  · exact h
  · exact h.withhold

theorem State.Canon.sendTk {s : State} {op x a k p xt td : Nat} (h : s.Canon) : (s.sendTk op x a k p xt td).Canon := by
  unfold State.sendTk
  split
  · exact h
  · exact h.sendRow

theorem State.Canon.deferRow {s : State} {i : Instr} {x a k p vr ret : Nat} (h : s.Canon) : (s.deferRow i x a k p vr ret).Canon := by
  unfold State.deferRow
  split
  · exact h
  · exact (either h.claimV h).defer

/-! ### What a context offers -/

theorem State.Canon.atSlot {s : State} {o : SlotInst} (h : s.Canon) : (s.atSlot o).Canon := h.upd

theorem State.Canon.fetchTo {s : State} {a : Nat} (h : s.Canon) : (s.fetchTo a).Canon := h.foldl (fun h1 => h1.fetchPacket)

theorem State.Canon.openBun {s : State} {o : Offer} (h : s.Canon) : (s.openBun o).Canon := h.upd

theorem State.Canon.boundary {s : State} {l : List (SlotInst × Wait)} (h : s.Canon) : (s.boundary l).Canon :=
  either h.implicitCommit.modCx h

theorem State.Canon.present {s : State} {l : List (SlotInst × Wait)} (h : s.Canon) : (s.present l).Canon := by
  unfold State.present
  refine h.foldl (fun h1 => ?_)
  split
  · exact either h1.atSlot.holdOp h1
  · exact either h1.atSlot.holdOp h1
  · exact h1.atSlot.holdOp
  · exact h1

theorem State.Canon.refusedCycle {s : State} (h : s.Canon) : s.refusedCycle.Canon := h.boundary.modCx

theorem State.Canon.waitCycle {s : State} {o : Offer} {l : List (SlotInst × Wait)} (h : s.Canon) : (s.waitCycle o l).Canon :=
  h.fetchTo.openBun.present.upd.boundary.modCx

/-! ### Events inside a core -/

theorem State.Canon.runAfter {s : State} (h : s.Canon) : s.runAfter.Canon := by
  unfold State.runAfter
  extract_lets t
  have ht : t.Canon := by
    dsimp only [t]
    split
    · split
      · exact either h.modCx h.endTask
      · exact h.matFlush.saveFrame
      · exact h.takeTrap
      · exact h.takeTrap
      · exact h.returnTrap
      · exact h
    · exact h
  exact ht.upd

theorem State.Canon.finishHold {s : State} (h : s.Canon) : s.finishHold.Canon := by
  unfold State.finishHold
  split
  · exact h
  · extract_lets t u v
    have ht : t.Canon := h.modCx
    have hu : u.Canon := ht.upd
    have hv : v.Canon := either hu.flushStreams.performAll hu
    exact hv.runOps.runAfter

theorem State.Canon.arriveHere {s : State} {q : PendLoad} (h : s.Canon) : (s.arriveHere q).Canon := by
  unfold State.arriveHere
  split
  · refine modCx ?_
    split
    · exact either h h.frameArrive
    · exact h
  · exact (either h.modAr.append h).asyncWrite

theorem State.Canon.arriveSaved {s : State} {id : Nat} {user : Bool} {q : PendLoad} (h : s.Canon) : (s.arriveSaved id user q).Canon := by
  unfold State.arriveSaved
  dsimp only
  split
  · refine upd ?_
    split
    · exact either h h.frameArrive
    · exact h
  · refine upd ?_
    split
    · exact either h h.frameArrive
    · exact h

theorem State.Canon.giveLoad {s : State} {n : Nat} {f : PendLoad → PendLoad} (h : s.Canon) : (s.giveLoad n f).Canon := by
  unfold State.giveLoad
  split
  · exact h
  · exact h.within (fun h1 => h1.arriveHere)
  · exact h.arriveSaved

theorem State.Canon.execLoadDataArrive {p c n : Nat} {s : State} (h : s.Canon) : OutOk (execLoadDataArrive p c n s) := by
  unfold Machine.execLoadDataArrive
  refine .next ?_
  split
  · exact either h.giveLoad h
  · exact either h h.giveLoad
  · exact h

theorem State.Canon.trapOffer {s : State} {o : Offer} {x : SlotInst} {t : Trap} (h : s.Canon) : (s.trapOffer o x t).Canon :=
  h.fetchTo.openBun.atSlot.stopOp.upd

theorem State.Canon.execLateData {p c n : Nat} {s : State} (h : s.Canon) : OutOk (execLateData p c n s) := by
  unfold Machine.execLateData
  refine .next (h.within (fun h1 => ?_))
  split
  · exact either h1.trapOffer h1
  · exact h1

theorem State.Canon.waitView {s : State} {w : BankWait} (h : s.Canon) : (s.waitView w).1.Canon := by
  unfold State.waitView
  split
  · exact h.upd.modCx
  · exact h.upd

theorem State.Canon.satisfy {s : State} {l : Nat} {w : BankWait} (h : s.Canon) : (s.satisfy l w).Canon :=
  ((either h h.spDrain).modLcore (fun h1 => h1.upd)).giveLoad

theorem State.Canon.execFeWaitSatisfy {p c n : Nat} {s : State} (h : s.Canon) : OutOk (execFeWaitSatisfy p c n s) := by
  unfold Machine.execFeWaitSatisfy
  refine .next ?_
  split
  · exact h
  · split
    · exact either h.satisfy h
    · exact h

theorem State.Canon.fetchOne {s : State} {q : Nat} (h : s.Canon) : (s.fetchOne q).Canon := by
  unfold State.fetchOne
  split
  · split
    · exact either h.fetchNext.tlbFill.draw h.fetchNext
    · exact h.fetchNext
  · split
    · exact h.sendHome
    · exact h.postFault.modCx
    · exact h

theorem State.Canon.startReplay {s : State} {v : Nat} (h : s.Canon) : EOk State.Canon (s.startReplay v) := by
  unfold State.startReplay
  split
  · exact .ok h
  · split
    · exact .ok h
    · split
      · exact .error
      · split
        · exact .error
        · exact .ok h.modCx

theorem State.Canon.landReplay {s : State} (h : s.Canon) : s.landReplay.Canon := by
  unfold State.landReplay
  split
  · exact h
  · exact either h.modCx h

theorem State.Canon.stepReplay {s : State} {o : Offer} {l : List (SlotInst × Wait)} (h : s.Canon) : (s.stepReplay o l).Canon := by
  unfold State.stepReplay
  split
  · exact h
  · split
    · next e2 => exact h.startReplay.out e2
    · exact h.trapOffer

theorem State.Canon.execRecipeReplay {p c r : Nat} {s : State} (h : s.Canon) : OutOk (execRecipeReplay p c r s) := by
  unfold Machine.execRecipeReplay
  refine .next (h.within (fun h1 => ?_))
  split
  · exact either h1.landReplay h1
  · split
    · exact either h1.stepReplay h1
    · exact h1

theorem State.Canon.timeoutPair {s : State} (h : s.Canon) : s.timeoutPair.Canon := by
  unfold State.timeoutPair
  split
  · exact h
  · exact h.modGroup.trapOffer

theorem State.Canon.bringPart {s : State} {n : Nat} {refused : Bool} (h : s.Canon) : (s.bringPart n refused).Canon := by
  unfold State.bringPart
  split
  · exact h
  · exact h.upd.deliverPart

theorem State.Canon.gapEvent {s : State} {l td : Nat} (h : s.Canon) : (s.gapEvent l td).Canon :=
  ((h.modLcore (fun h1 => h1.setDom)).upd).blackBox.collGap

theorem State.Canon.takeStop {s : State} {t : Trap} (h : s.Canon) : (s.takeStop t).Canon := (either h (either h h.modTask)).takeTrap

theorem State.Canon.execAsyncTrap {p c : Nat} {s : State} (h : s.Canon) : OutOk (execAsyncTrap p c s) := by
  unfold Machine.execAsyncTrap
  refine .next (h.within (fun h1 => ?_))
  split
  · exact either h1.takeStop h1
  · exact h1

/-! ### Tasks on contexts -/

theorem State.Canon.takeTask {s : State} {id : Nat} (h : s.Canon) : (s.takeTask id).Canon :=
  either h.modTask.setCx.reloadCtx h.modTask.setCx

theorem State.Canon.dispatch {s : State} {p c : Nat} (h : s.Canon) : (s.dispatch p c).Canon := by
  unfold State.dispatch
  split
  · exact h
  · split
    · exact h
    · exact h.modCore.within (fun h1 => h1.takeTask)

theorem State.Canon.execWaitYield {p c : Nat} {s : State} (h : s.Canon) : OutOk (execWaitYield p c s) := by
  unfold Machine.execWaitYield
  refine .next (h.within (fun h1 => ?_))
  split
  · exact either h1.saveCtx h1
  · exact either h1.saveCtx h1
  · exact h1

theorem State.Canon.savePreempted {s : State} {p c : Nat} (h : s.Canon) : (s.savePreempted p c).Canon :=
  h.within (fun h1 => either h1.modCx.saveCtx h1)

theorem State.Canon.execPreempt {p c : Nat} {s : State} (h : s.Canon) : OutOk (execPreempt p c s) := by
  unfold Machine.execPreempt
  refine .next ?_
  split
  · exact h
  · exact ((h.foldl (fun h1 => h1.modCtxAt)).foldl (fun h1 => h1.modTask)).foldl (fun h1 => h1.savePreempted)

theorem State.Canon.execTaskTerminate {p c : Nat} {s : State} (h : s.Canon) : OutOk (execTaskTerminate p c s) := by
  unfold Machine.execTaskTerminate
  refine .next (h.within (fun h1 => ?_))
  split
  · exact h1
  · exact (h1.foldl (fun h2 => h2.leaveGroup)).dropLocks.modTask.freeCtx

theorem State.Canon.readyAgain {s : State} {id : Nat} (h : s.Canon) : (s.readyAgain id).Canon := either h.modTask.makeReady h

theorem State.Canon.addDone {s : State} {l : Launch} (h : s.Canon) : (s.addDone l).Canon := by
  unfold State.addDone
  split
  · exact h
  · split
    · exact h
    · split
      · exact h.sendHome.upd.bump
      · split
        · split
          · next e3 => exact h.setLcore (h.lcore.atom.snd e3)
          · exact h
        · exact h

theorem State.Canon.freeLaunch {s : State} {l : Launch} (h : s.Canon) : (s.freeLaunch l).Canon := (h.foldl (fun h1 => h1.modDie)).upd

theorem State.Canon.endLaunch {s : State} {l : Launch} (h : s.Canon) : (s.endLaunch l).Canon :=
  either h.freeLaunch (either h.addDone h.addDone.freeLaunch)

theorem State.Canon.execLaunchComplete {d n : Nat} {s : State} (h : s.Canon) : OutOk (execLaunchComplete d n s) := by
  unfold Machine.execLaunchComplete
  refine .next ?_
  split
  · exact either h.endLaunch h
  · exact h

/-! ### Elwiset -/

theorem State.Canon.modElw {s : State} {d : Nat} {f : Elw → Elw} (h : s.Canon) : (s.modElw d f).Canon := h.modDie

theorem State.Canon.post {s : State} {i : Instr} (h : s.Canon) : (s.post i).Canon := h.upd

theorem State.Canon.elwEvent {s : State} {d kind subj : Nat} (h : s.Canon) : (s.elwEvent d kind subj).Canon := h.modElw.fwEvent.blackBox

theorem State.Canon.hostEvent {s : State} {d kind subj : Nat} (h : s.Canon) : (s.hostEvent d kind subj).Canon := h.upd

theorem State.Canon.protoError {s : State} {d kind source : Nat} (h : s.Canon) : (s.protoError d kind source).Canon := h.modDie.blackBox

theorem State.Canon.elwSend {s : State} {d dst : Nat} {m : ElwMsg} (h : s.Canon) : (s.elwSend d dst m).Canon := either h.post h.sendTo

theorem State.Canon.elwAll {s : State} {d : Nat} {m : ElwMsg} (h : s.Canon) : (s.elwAll d m).Canon :=
  (h.foldl (fun h1 => h1.elwSend)).foldl (fun h1 => h1.elwSend)

theorem State.Canon.elwSeq {s : State} {d : Nat} (h : s.Canon) : (s.elwSeq d).Canon := h.modElw

theorem State.Canon.elwTake {s : State} {d : Nat} {m : ElwMsg} {f : State → State} (h : s.Canon) (hf : ∀ {s}, s.Canon → (f s).Canon) :
    (s.elwTake d m f).Canon :=
  either h (either (hf h) h.protoError)

theorem State.Canon.seen {s : State} {d : Nat} {m : ElwMsg} (h : s.Canon) : (s.seen d m).Canon := h.modElw

theorem State.Canon.evictions {s : State} {d : Nat} {gone : List Nat} (h : s.Canon) : (s.evictions d gone).Canon :=
  h.foldl (fun h1 => either h1.elwEvent.hostEvent h1.elwEvent)

theorem State.Canon.elwAlone {s : State} {d t : Nat} (h : s.Canon) : (s.elwAlone d t).Canon := h.modElw

theorem State.Canon.enterGroup {s : State} {d : Nat} (h : s.Canon) : (s.enterGroup d).Canon := h.modElw

theorem State.Canon.applyChanges {s : State} {d : Nat} (h : s.Canon) : (s.applyChanges d).Canon :=
  either (either (either h h.modElw.evictions).elwAlone (either h h.modElw.evictions)).enterGroup (either
      (either h h.modElw.evictions).elwAlone (either h h.modElw.evictions))

theorem State.Canon.schedule {s : State} {d n tick limit : Nat} {removal evict : Bool} (h : s.Canon) :
    (s.schedule d n tick limit removal evict).Canon :=
  either h.modElw.applyChanges h.modElw

theorem State.Canon.propose {s : State} {d subj mhz : Nat} (h : s.Canon) : (s.propose d subj mhz).Canon := h.elwSeq.modElw.elwAll

theorem State.Canon.limitChanged {s : State} {d : Nat} (h : s.Canon) : (s.limitChanged d).Canon :=
  either h (either h.elwSeq.modElw.elwAll.schedule (either h h.propose))

theorem State.Canon.thermalHalt {s : State} {d : Nat} (h : s.Canon) : (s.thermalHalt d).Canon := either h h.modElw.hostEvent.blackBox

theorem State.Canon.settleRaise {s : State} {d subj : Nat} {p : Proposal} (h : s.Canon) : (s.settleRaise d subj p).Canon :=
  either (either (either h.elwSeq.modElw.modElw h.elwSeq.modElw).elwAll.schedule.limitChanged
      (either h.elwSeq.modElw.modElw h.elwSeq.modElw).elwAll.schedule) h.elwSeq.modElw.modElw.elwAll

theorem State.Canon.retryRaises {s : State} {d : Nat} (h : s.Canon) : (s.retryRaises d).Canon :=
  either h (h.foldl (fun h1 => either h1.modElw.limitChanged (either h1.modElw.propose h1.modElw)))

theorem State.Canon.abortJoin {s : State} {d : Nat} (h : s.Canon) : (s.abortJoin d).Canon :=
  (h.foldl (fun h1 => h1.elwSend)).modElw.elwEvent

theorem State.Canon.execJoinDeadline {d : Nat} {s : State} (h : s.Canon) : OutOk (execJoinDeadline d s) := by
  unfold Machine.execJoinDeadline
  refine .next ?_
  dsimp only
  split
  · exact h
  · exact either h.abortJoin h

theorem State.Canon.tickDie {s : State} {d : Nat} (h : s.Canon) : (s.tickDie d).Canon :=
  either h.modElw (either (either h.modElw.post h.modElw) h.modElw.retryRaises.upd)

theorem State.Canon.clockDie {s : State} {d : Nat} (h : s.Canon) : (s.clockDie d).Canon :=
  either (h.modElw.modElw.foldl (fun h1 => h1.tickDie)) h.modElw

theorem State.Canon.execHb {d : Nat} {m : ElwMsg} {s : State} (h : s.Canon) : OutOk (execHb d m s) := by
  refine .next (h.elwTake fun h => ?_)
  split
  · exact h.elwSeq.elwSend
  · extract_lets ref t g u v w
    have ht : t.Canon := h.modElw
    have hu : u.Canon := either (either ht.tickDie (either ht.modElw ht)) ht
    have hw : w.Canon := State.Canon.elwEvent (State.Canon.modElw hu)
    exact either (either hw.propose hw) hu

theorem State.Canon.joinAnswer {s : State} {d joiner n : Nat} {busy : Bool} {egid : Nat} (h : s.Canon) :
    (s.joinAnswer d joiner n busy egid).Canon := by
  unfold State.joinAnswer
  dsimp only
  split
  · exact h.elwSend
  · split
    · refine elwSend ?_
      split
      · exact h.elwSend.elwSend
      · exact h.elwSend
    · split
      · exact h.elwSend.elwSend
      · exact h.elwSend

theorem State.Canon.addJoiner {s : State} {d n tick mhz : Nat} (h : s.Canon) : (s.addJoiner d n tick mhz).Canon := h.modElw

theorem State.Canon.execJoin {d : Nat} {m : ElwMsg} {s : State} (h : s.Canon) : OutOk (execJoin d m s) :=
  .next (either h (either h.joinAnswer (either
    (either h.joinAnswer (h.modElw.foldl (fun h1 => h1.elwSend)).addJoiner.joinAnswer) (either h.addJoiner.joinAnswer h.joinAnswer))))

theorem State.Canon.execJoinabort {d : Nat} {m : ElwMsg} {s : State} (h : s.Canon) : OutOk (execJoinabort d m s) := by
  unfold Machine.execJoinabort
  refine .next (h.elwTake (fun h1 => ?_))
  dsimp only
  split
  · exact h1
  · exact either h1 (either (h1.modElw.foldl (fun h2 => h2.elwSend)) h1.modElw)

theorem State.Canon.elwRefuse {s : State} {d : Nat} (h : s.Canon) : (s.elwRefuse d).Canon := h.modElw

theorem State.Canon.ctlJoin {s : State} {d : Nat} (h : s.Canon) : (s.ctlJoin d).Canon :=
  either h.elwRefuse (either h.elwSeq.modElw h.elwSeq.modElw.elwSend)

theorem State.Canon.ctlLeave {s : State} {d : Nat} (h : s.Canon) : (s.ctlLeave d).Canon :=
  either h.elwRefuse (either h.elwSeq.modElw h.elwSeq.modElw.elwAll)

theorem State.Canon.ctlCap {s : State} {d mhz : Nat} (h : s.Canon) : (s.ctlCap d mhz).Canon := either h.elwRefuse h.modElw.limitChanged

/-! ### Command lists -/

theorem State.Canon.modSub {s : State} {d n : Nat} {f : Sub → Sub} (h : s.Canon) : (s.modSub d n f).Canon := h.modDie

theorem State.Canon.raiseSub {s : State} {d n : Nat} (h : s.Canon) : (s.raiseSub d n).Canon := h.upd

theorem State.Canon.listTo {s : State} {d n va : Nat} (h : s.Canon) : (s.listTo d n va).Canon := h.modSub.dropGot

theorem State.Canon.listFail {s : State} {d n code : Nat} (h : s.Canon) : (s.listFail d n code).Canon := h.listTo.modSub.raiseSub

theorem State.Canon.listDone {s : State} {d n : Nat} (h : s.Canon) : (s.listDone d n).Canon := h.listTo.modSub.raiseSub

theorem State.Canon.listGet {s : State} {d n : Nat} {l : List Nat} {f : State → State} (h : s.Canon)
    (hf : ∀ {s}, s.Canon → (f s).Canon) : (s.listGet d n l f).Canon := by
  unfold State.listGet
  split
  · exact hf h
  · exact either h h.sendHome

theorem State.Canon.putSpec {s : State} {b sp : Nat} (h : s.Canon) : (s.putSpec b sp).Canon := h.foldl (fun h1 => h1.modDie)

theorem State.Canon.copyImage {s : State} {d n img bank len l : Nat} (h : s.Canon) : (s.copyImage d n img bank len l).Canon :=
  h.foldl (fun h1 => h1.modLcore (fun h2 => h2.withCode (.either h2.2.2.storePois h2.2.2.store)))

theorem State.Canon.doLaunch {s : State} {d n asid b : Nat} {ws : List Nat} (h : s.Canon) : (s.doLaunch d n asid b ws).Canon := by
  unfold State.doLaunch
  extract_lets w ts id t u v x y l z
  have hu : u.Canon := State.Canon.foldl (State.Canon.bump h) fun h => h.setTask
  have hv : v.Canon := State.Canon.foldl hu fun h => h.putSpec
  have hx : x.Canon := either hv (hv.foldl fun h => h.copyImage)
  have hy : y.Canon := either (hx.foldl fun h => h.makeReady) hx
  have hz : z.Canon := hy.upd
  exact hz.listTo.modSub

theorem State.Canon.entryLaunch {s : State} {d n : Nat} {ws : List Nat} {ind : Bool} (h : s.Canon) : (s.entryLaunch d n ws ind).Canon := by
  unfold State.entryLaunch
  dsimp only
  split
  · exact h.listFail
  · refine h.listGet (fun h1 => ?_)
    split
    · exact h1.listFail
    · split
      · exact h1.listFail
      · exact h1.listGet (fun h2 => h2.doLaunch)

theorem State.Canon.listAtom {s : State} {d n ea op b : Nat} {f : Nat → State → State} (h : s.Canon)
    (hf : ∀ {v s}, s.Canon → (f v s).Canon) : (s.listAtom d n ea op b f).Canon := by
  unfold State.listAtom
  dsimp only
  split
  · exact h.listFail
  · split
    · exact h.listFail
    · next e => exact hf (h.setLcore (h.lcore.atom.snd e))
  · split
    · exact either h.modSub.listFail (hf h.modSub)
    · exact either h h.modSub.bump.sendHome

theorem State.Canon.entryWait {s : State} {d n : Nat} {ws : List Nat} (h : s.Canon) : (s.entryWait d n ws).Canon :=
  h.listAtom (fun h1 => either h1.listTo h1)

theorem State.Canon.entrySkip {s : State} {d n : Nat} {ws : List Nat} (h : s.Canon) : (s.entrySkip d n ws).Canon :=
  h.listAtom (fun h1 => h1.listTo.modSub)

theorem State.Canon.passEntry {s : State} {d n w : Nat} (h : s.Canon) : (s.passEntry d n w).Canon := h.listTo.modSub

theorem State.Canon.entrySignal {s : State} {d n : Nat} {ws : List Nat} (h : s.Canon) : (s.entrySignal d n ws).Canon := by
  unfold State.entrySignal
  dsimp only
  split
  · exact h
  · split
    · exact h.listAtom (fun h1 => h1.listTo)
    · exact h.listAtom (fun h1 => h1.listTo)
    · exact h.decTask.listTo

theorem State.Canon.entryJump {s : State} {d n : Nat} {ws : List Nat} (h : s.Canon) : (s.entryJump d n ws).Canon :=
  either h.listFail h.listTo

theorem State.Canon.entryCall {s : State} {d n : Nat} {ws : List Nat} (h : s.Canon) : (s.entryCall d n ws).Canon :=
  either h.listFail (either h.listFail h.listTo.modSub)

theorem State.Canon.entryRet {s : State} {d n : Nat} (h : s.Canon) : (s.entryRet d n).Canon := by
  unfold State.entryRet
  split
  · exact h.listDone
  · exact h.listTo.modSub

theorem State.Canon.entryLoop {s : State} {d n : Nat} {ws : List Nat} (h : s.Canon) : (s.entryLoop d n ws).Canon := by
  unfold State.entryLoop
  dsimp only
  split
  · exact h.listFail
  · split
    · exact h.listFail
    · split
      · exact h
      · exact either h.listTo.modSub h.listTo.modSub

theorem State.Canon.listRegion {s : State} {d asid newst xb va : Nat} (h : s.Canon) : (s.listRegion d asid newst xb va).Canon := by
  unfold State.listRegion
  split
  · exact h
  · exact h.setRegion.dropLines

theorem State.Canon.entryXfer {s : State} {d n : Nat} {ws : List Nat} (h : s.Canon) : (s.entryXfer d n ws).Canon := by
  unfold State.entryXfer
  dsimp only
  split
  · exact h.listFail
  · split
    · exact h.listFail
    · exact (h.foldl (fun h1 => h1.listRegion)).listTo

theorem State.Canon.entryFlush {s : State} {d n : Nat} (h : s.Canon) : (s.entryFlush d n).Canon := either h h.listTo

theorem State.Canon.entryFence {s : State} {d n : Nat} (h : s.Canon) : (s.entryFence d n).Canon := either h.entryFlush h

theorem State.Canon.runEntry {s : State} {d n w : Nat} (h : s.Canon) : (s.runEntry d n w).Canon := by
  unfold State.runEntry
  split
  · exact h.listFail
  · dsimp only
    split
    · exact h.entryLaunch
    · split
      · exact h.entryLaunch
      · split
        · exact h.listFail
        · split
          · exact h.entryWait
          · exact h.entrySignal
          · exact h.entrySkip
          · exact h.entryJump
          · exact h.entryCall
          · exact h.entryRet
          · exact h.entryLoop
          · exact h.entryXfer
          · exact h.entryFlush
          · exact h.entryFence

theorem State.Canon.stepList {s : State} {d n : Nat} (h : s.Canon) : (s.stepList d n).Canon := by
  unfold State.stepList
  dsimp only
  split
  · exact h
  · refine h.listGet (fun h1 => ?_)
    split
    · exact h1.listFail
    · exact either h1.listFail (either h1.passEntry (h1.listGet (fun h2 => h2.runEntry)))

theorem State.Canon.submit {s : State} {d n : Nat} (h : s.Canon) : (s.submit d n).Canon :=
  either h.modSub.raiseSub (either h.modSub.raiseSub h.listTo.modSub)

/-! ### The firmware and the debugger -/

theorem State.Canon.poisonAt {s : State} {code : Nat} {space : ErrPlace} {unit addr : Nat} (h : s.Canon) :
    (s.poisonAt code space unit addr).Canon := by
  unfold State.poisonAt
  split
  · dsimp only
    split
    · exact h.modLcore (fun h1 => h1.withAcc h1.2.1.taint)
    · exact h.remem h.1.taint
    · exact h
  · exact h.modLcore (fun h1 => h1.withSp h1.1.taint)
  · exact h.modLcore (fun h1 => h1.withAcc h1.2.1.taint)
  · exact h.modCtxAt

theorem State.Canon.memError {s : State} {code : ErrCode} {space : ErrPlace} {unit addr : Nat} {correctable : Bool} (h : s.Canon) :
    (s.memError code space unit addr correctable).Canon :=
  either h.modDie (either (either h.modDie.blackBox h.modDie.blackBox) (either h.modDie.blackBox h.modDie.blackBox).poisonAt)

theorem State.Canon.mirror {s : State} {d : Nat} (h : s.Canon) : (s.mirror d).Canon := by
  unfold State.mirror
  exact (h.clearPA.foldl (fun h1 => h1.storePA)).storePA

theorem State.Canon.nmcfg {s : State} {d v : Nat} (h : s.Canon) : (s.nmcfg d v).Canon := either h.modDie.modDie h.modDie.modDie

theorem State.Canon.carveout {s : State} {d : Nat} (h : s.Canon) : (s.carveout d).Canon := either h (h.remem h.1.filter)

theorem State.Canon.dropXlate {s : State} {d scope asid va : Nat} (h : s.Canon) : (s.dropXlate d scope asid va).Canon := h.upd

theorem State.Canon.xlinv {s : State} {d scope asid va : Nat} (h : s.Canon) : (s.xlinv d scope asid va).Canon := h.modDie

theorem State.Canon.xlinvEnd {s : State} {d : Nat} (h : s.Canon) : (s.xlinvEnd d).Canon := either h.dropXlate.modDie h

theorem State.Canon.wakeCtx {s : State} {d n : Nat} (h : s.Canon) : (s.wakeCtx d n).Canon := either h (either h.modCx.resumeJob h.modCx)

theorem State.Canon.xlresume {s : State} {d n : Nat} (h : s.Canon) : (s.xlresume d n).Canon :=
  h.upd.foldl (fun h1 => h1.within (fun h2 => h2.wakeCtx))

theorem State.Canon.accSave {s : State} {p td : Nat} (h : s.Canon) : (s.accSave p td).Canon :=
  either (h.modCore.modLcore (fun h1 => h1.setDom)).modCore h.modCore.modCore

theorem State.Canon.domSaved {s : State} {p : Nat} (h : s.Canon) : (s.domSaved p).Canon :=
  either ((h.clearPA.foldl (fun h1 => h1.storePA)).modLcore (fun h1 => h1.upd.setDom)).modCore h

theorem State.Canon.accRestore {s : State} {p td : Nat} (h : s.Canon) : (s.accRestore p td).Canon :=
  either (h.modCore.modLcore (fun h1 => h1.upd.setDom)) h.modCore.modCore

theorem State.Canon.stopCtx {s : State} {p c : Nat} (h : s.Canon) : (s.stopCtx p c).Canon :=
  either h.modCtxAt (h.modCtxAt.within (fun h1 => h1.traceRec))

theorem State.Canon.unstopCtx {s : State} {p c : Nat} (h : s.Canon) : (s.unstopCtx p c).Canon :=
  either (h.modCtxAt.within (fun h1 => h1.traceRec)) h.modCtxAt

theorem State.Canon.dbgRead {s : State} {d : Nat} (h : s.Canon) : (s.dbgRead d).Canon := h.upd

theorem State.Canon.setRing {s : State} {d r v : Nat} (h : s.Canon) : (s.setRing d r v).Canon := h.modDie

theorem State.Canon.writeSub {s : State} {d n off v : Nat} (h : s.Canon) : (s.writeSub d n off v).Canon := by
  unfold State.writeSub
  dsimp only
  split
  · exact either h h.modSub
  · exact either (either h h.modSub).submit (either h h.modSub)
  · exact h.modSub
  · exact h

theorem State.Canon.writeMem {s : State} {d off v : Nat} (h : s.Canon) : (s.writeMem d off v).Canon := by
  unfold State.writeMem
  split
  · exact h.nmcfg
  · exact h.modDie
  · exact either (either h.modDie h.xlinv) h.modDie
  · exact h.modDie
  · exact h.modDie
  · exact h.modDie
  · exact h.xlresume
  · exact h

theorem State.Canon.writeRing {s : State} {d v : Nat} (h : s.Canon) : (s.writeRing d v).Canon := h.modDie

theorem State.Canon.writeElw {s : State} {d off v : Nat} (h : s.Canon) : (s.writeElw d off v).Canon := by
  unfold State.writeElw
  split
  · dsimp only
    split
    · exact h.modElw.modElw
    · split
      · exact h.modElw.modElw.ctlJoin
      · exact h.modElw.modElw.ctlLeave
      · exact h.modElw.ctlCap
      · exact either h.modElw.elwRefuse h.modElw.modElw
  · exact h.modElw
  · exact either h.modElw h
  · exact h

theorem State.Canon.writeAcc {s : State} {p off v : Nat} (h : s.Canon) : (s.writeAcc p off v).Canon := by
  unfold State.writeAcc
  split
  · dsimp only
    split
    · exact h.modCore.modCore
    · split
      · exact h.modCore.accSave
      · exact h.modCore.accRestore
      · exact h.modCore.modCore
  · exact h.modCore
  · exact h

theorem State.Canon.logFlush {s : State} {p : Nat} (h : s.Canon) : (s.logFlush p).Canon :=
  either h (either h.modCore.ringPut.upd h.modCore.ringPut)

theorem State.Canon.writeDbgctl {s : State} {p v : Nat} (h : s.Canon) : (s.writeDbgctl p v).Canon :=
  (either h h.logFlush).modCore.foldl (fun h1 => either h1 (either h1.stopCtx h1.unstopCtx))

theorem State.Canon.writeDbg {s : State} {d off v : Nat} (h : s.Canon) : (s.writeDbg d off v).Canon := by
  unfold State.writeDbg
  split
  · exact h.modDie
  · split
    · exact h.writeDbgctl
    · split
      · dsimp only
        split
        · exact h.setRing
        · exact h.modDie
        · exact h
      · exact h

theorem State.Canon.writeReg {s : State} {d off v : Nat} (h : s.Canon) : (s.writeReg d off v).Canon :=
  either h.writeSub (either h.writeMem (either h.writeRing (either h.writeElw (either h.writeAcc (either (either h.modDie h)
      (either h.writeDbg h))))))

theorem State.Canon.execRegisterWrite {d : RegPort} {off v : Nat} {s : State} (h : s.Canon) : OutOk (execRegisterWrite d off v s) := by
  unfold Machine.execRegisterWrite
  refine .next ?_
  split
  · exact h.writeReg
  · exact either h.writeReg h

/-! ### Messages that reach this package -/

theorem State.Canon.answer {s : State} {m : Msg} {kind pois : Nat} {words : List Nat} (h : s.Canon) : (s.answer m kind pois words).Canon :=
  h.emit

theorem State.Canon.nack {s : State} {m : Msg} (h : s.Canon) : (s.nack m).Canon := h.answer

theorem State.Canon.refuse {s : State} {m : Msg} (h : s.Canon) : (s.refuse m).Canon := either h.nack h.upd

theorem State.Canon.incoming {s : State} {m : Msg} {f : State → State} (h : s.Canon) (hf : ∀ {s}, s.Canon → (f s).Canon) :
    (s.incoming m f).Canon :=
  either h.emit (either (hf h).passed h.upd)

theorem State.Canon.dropCopy {s : State} {m : Msg} {kind : Nat} (h : s.Canon) : (s.dropCopy m kind).Canon := h.modDie

theorem State.Canon.onAnswer {s : State} {m : Msg} {kind : Nat} {f : State → Copy → State} (h : s.Canon)
    (hf : ∀ {s k}, s.Canon → (f s k).Canon) : (s.onAnswer m kind f).Canon := by
  unfold State.onAnswer
  split
  · exact h
  · exact hf h.dropCopy

theorem State.Canon.serveRead {s : State} {m : Msg} (h : s.Canon) : (s.serveRead m).Canon := either h.protoError h.answer

theorem State.Canon.keepLine {s : State} {pa data pois : Nat} (h : s.Canon) : (s.keepLine pa data pois).Canon :=
  h.upd.foldl (fun h1 => h1.memStore)

/-- The words that read operations brought are no memory. -/
theorem State.Canon.withGot {s : State} {l : List Got} (h : s.Canon) : ({ s with got := l } : State).Canon := h

theorem State.Canon.bringLine {s : State} {d : Nat} {k : Copy} {data pois : Nat} (h : s.Canon) : (s.bringLine d k data pois).Canon := by
  unfold State.bringLine
  exact either h (either h.keepLine h).withGot

theorem State.Canon.takeRead {s : State} {m : Msg} (h : s.Canon) : (s.takeRead m).Canon :=
  h.onAnswer (fun h1 => either h1.bringLine h1.giveLoad)

theorem State.Canon.serveWrite {s : State} {m : Msg} (h : s.Canon) : (s.serveWrite m).Canon := by
  generalize hf : State.serveWrite = f
  delta State.serveWrite at hf
  subst hf
  beta_reduce
  obtain ⟨pa, hpa⟩ : ∃ pa, msgPa m / 64 * 64 = pa := ⟨_, rfl⟩
  rw [hpa]
  extract_lets mask mode data pa
  split
  · exact h.upd.modLcore fun h => h.withAcc h.2.1.write
  · exact h.foldl fun h => h.storePA

theorem State.Canon.servePart {s : State} {m : Msg} (h : s.Canon) : (s.servePart m).Canon := by
  unfold State.servePart
  dsimp only
  split
  · exact (h.bump.setLcore h.bump.lcore.arrive).answer
  · exact (h.bump.setLcore h.bump.lcore.arrive).modCore.answer
  · exact (h.bump.setLcore h.bump.lcore.arrive).refuse
  · exact (h.bump.setLcore h.bump.lcore.arrive).answer

theorem State.Canon.takeConf {s : State} {m : Msg} (h : s.Canon) : (s.takeConf m).Canon :=
  h.onAnswer (fun h1 => either h1.conflict h1.modColl)

theorem State.Canon.serveAtom {s : State} {m : Msg} (h : s.Canon) : (s.serveAtom m).Canon := by
  generalize hf : State.serveAtom = f
  delta State.serveAtom at hf
  subst hf
  beta_reduce
  generalize s.home (msgPa m) = p
  extract_lets w n
  split
  · split
    · exact h.answer
    · next e => exact (h.setLcore (h.lcore.atom.snd e)).answer
  · exact h.protoError

theorem State.Canon.answerAtom {s : State} {p c v : Nat} {bad : Bool} (h : s.Canon) : (s.answerAtom p c v bad).Canon :=
  h.within (fun h1 => h1.modCx.finishHold)

theorem State.Canon.takeAtom {s : State} {m : Msg} (h : s.Canon) : (s.takeAtom m).Canon := by
  unfold State.takeAtom
  refine h.onAnswer (fun h1 => ?_)
  split
  · exact h1.modSub
  · split
    · exact h1.answerAtom
    · exact h1

theorem State.Canon.resend {s : State} {m : Msg} (h : s.Canon) : (s.resend m).Canon := by
  unfold State.resend
  dsimp only
  split
  · exact h
  · exact h.modDie.emit

theorem State.Canon.serveNotice {s : State} {m : Msg} (h : s.Canon) : (s.serveNotice m).Canon := by
  unfold State.serveNotice
  dsimp only
  split
  · next e => exact (h.takeNotice.out e).answer
  · exact h.refuse

theorem State.Canon.serveReady {s : State} {m : Msg} (h : s.Canon) : (s.serveReady m).Canon := either h.refuse h.modDie

theorem State.Canon.grantToken {s : State} {m : Msg} (h : s.Canon) : (s.grantToken m).Canon := either h.setRegion.answer h.answer

theorem State.Canon.serveToken {s : State} {m : Msg} (h : s.Canon) : (s.serveToken m).Canon :=
  either (either h h.sendTo).modDie h.grantToken

theorem State.Canon.nextToken {s : State} {m : Msg} {n : Nat} (h : s.Canon) : (s.nextToken m n).Canon := by
  induction n generalizing s m with
  | zero =>
    unfold State.nextToken
    exact h
  | succ k ih =>
    unfold State.nextToken
    split
    · exact h
    · exact either (either h.modDie.grantToken.sendTo h.modDie.grantToken) (ih h.modDie.grantToken)

theorem State.Canon.tokenBack {s : State} {m : Msg} (h : s.Canon) : (s.tokenBack m).Canon := (either h.setRegion h).nextToken

theorem State.Canon.returnToken {s : State} {m : Msg} (h : s.Canon) : (s.returnToken m).Canon := h.sendTo

theorem State.Canon.giveToken {s : State} {m : Msg} (h : s.Canon) : (s.giveToken m).Canon :=
  either (either h.setRegion.dropLines.returnToken h.setRegion.dropLines.modDie) h

theorem State.Canon.endRecall {s : State} {i : Nat} {m : Msg} (h : s.Canon) : (s.endRecall i m).Canon := h.modDie.returnToken

theorem State.Canon.takeToken {s : State} {m : Msg} (h : s.Canon) : (s.takeToken m).Canon := by
  unfold State.takeToken
  refine h.onAnswer (fun h1 => ?_)
  dsimp only
  split
  · exact either h1.setRegion h1
  · refine (either h1.setRegion h1).within (fun h2 => ?_)
    split
    · exact h2
    · exact h2.modCx.finishHold

theorem State.Canon.crcFail {s : State} {d hd : Nat} (h : s.Canon) : (s.crcFail d hd).Canon := h.modDie

theorem State.Canon.hopFail {s : State} {d hd : Nat} (h : s.Canon) : (s.hopFail d hd).Canon := by
  unfold State.hopFail
  split
  · exact h
  · dsimp only
    split
    · exact h.modDie.fwEvent.hostEvent.blackBox.fwEvent.hostEvent.blackBox
    · exact h.modDie.fwEvent.hostEvent.blackBox

theorem State.Canon.deliver {s : State} {m : Msg} (h : s.Canon) : (s.deliver m).Canon := by
  unfold State.deliver
  split
  · exact h.serveRead
  · exact h.takeRead
  · exact h.serveWrite.answer
  · exact h.dropCopy
  · exact h.servePart
  · exact h.dropCopy
  · exact h.serveAtom
  · exact h.takeAtom
  · exact h.resend
  · exact h.takeConf
  · exact h.serveNotice
  · exact h.dropCopy
  · exact h.post
  · exact h.serveToken
  · exact h.takeToken
  · exact h.giveToken
  · exact h.tokenBack
  · exact h.serveReady
  · exact h.protoError

theorem State.Canon.sendOut {s : State} {i d : Nat} {m : Msg} (h : s.Canon) : (s.sendOut i d m).Canon := by
  unfold State.sendOut
  extract_lets t u
  have hu : u.Canon := State.Canon.passed (State.Canon.upd (s := s) (t := t) h)
  exact either hu.deliver hu.upd

/-! ### Start-up, the host and power -/

theorem State.Canon.beginStage {s : State} {n : Nat} (h : s.Canon) : (s.beginStage n).Canon := h.foldl (fun h1 => h1.modDie)

theorem State.Canon.bootFail {s : State} {stage cause : Nat} (h : s.Canon) : (s.bootFail stage cause).Canon := by
  unfold State.bootFail
  extract_lets t
  have ht : t.Canon := blackBox (h.foldl fun h => h.modDie)
  exact ht.upd

theorem State.Canon.setDieUp {s : State} {d : Nat} (h : s.Canon) : (s.setDieUp d).Canon := h.modDie

theorem State.Canon.setElwUp {s : State} {d : Nat} (h : s.Canon) : (s.setElwUp d).Canon := h.modElw.modElw

theorem State.Canon.showReady {s : State} (h : s.Canon) : s.showReady.Canon := h.foldl (fun h1 => h1.modDie)

theorem State.Canon.selfTest {s : State} {f : StartFind} (h : s.Canon) : (s.selfTest f).Canon :=
  either h.bootFail (either h.bootFail (h.upd.foldl (fun h1 => h1.modDie)).beginStage)

theorem State.Canon.bootStep {s : State} (h : s.Canon) : s.bootStep.Canon := by
  unfold State.bootStep
  split
  · exact h
  · split
    · exact either h.beginStage h.bootFail
    · exact either (h.foldl (fun h1 => h1.setDieUp)).beginStage h.bootFail
    · exact h.selfTest
    · exact either (h.upd.foldl (fun h1 => h1.setElwUp)).beginStage h.bootFail
    · exact (h.upd.foldl (fun h1 => h1.modDie)).showReady
    · exact h.beginStage

theorem State.Canon.boot {s : State} {stage : Nat} {f : StartFind} (h : s.Canon) : (s.boot stage f).Canon := h.upd.beginStage

theorem State.Canon.warm {s : State} {f : StartFind} (h : s.Canon) : (s.warm f).Canon :=
  State.Canon.boot ⟨h.1.filter, by simp [State.reset]⟩

theorem State.Canon.powerOff {s : State} : s.powerOff.Canon := ⟨rfl, by simp [State.powerOff, State.reset]⟩

theorem State.Canon.respond {s : State} {r : List Nat} (h : s.Canon) : (s.respond r).Canon := either h.upd h

theorem State.Canon.sendPending {s : State} (h : s.Canon) : s.sendPending.Canon := by
  unfold State.sendPending
  split
  · exact h
  · exact h.upd.respond

theorem State.Canon.request {s : State} {cmd : Nat} {q : Req} {f : State → State × Nat × List Nat} (h : s.Canon) (hf : (f s).1.Canon) :
    (s.request cmd q f).Canon :=
  either h (either h.respond hf.upd)

theorem State.Canon.execReadSensors {r : Sensors} {s : State} (h : s.Canon) : OutOk (execReadSensors r s) := by
  unfold Machine.execReadSensors
  refine .next (h.request ?_)
  split
  · exact h
  · exact h

theorem State.Canon.capDies {s : State} {cap : Nat} (h : s.Canon) : (s.capDies cap).Canon := h.upd.foldl (fun h1 => h1.modElw.limitChanged)

theorem State.Canon.execSetPowerCap {payload : Req} {s : State} (h : s.Canon) : OutOk (execSetPowerCap payload s) := by
  refine .next (h.request ?_)
  split
  · exact h
  · extract_lets cap
    split
    · exact h
    · dsimp only
      exact h.capDies

theorem State.Canon.execReadIdentity {payload : Req} {s : State} (h : s.Canon) : OutOk (execReadIdentity payload s) := by
  unfold Machine.execReadIdentity
  refine .next (h.request ?_)
  dsimp only
  split
  · exact h
  · exact h

theorem State.Canon.execWorulmonWarmReset {payload : Req} {f : StartFind} {s : State} (h : s.Canon) :
    OutOk (execWorulmonWarmReset payload f s) := by
  refine .next ?_
  extract_lets t
  have ht : t.Canon := h.request (by split <;> exact h)
  exact either ht.sendPending.warm ht

/-! ### Every instruction and event -/

/-- Every instruction and event keeps every memory in canonical form. -/
theorem State.Canon.exec {i : Instr} {s : State} (h : s.Canon) : OutOk (exec i s) := by
  unfold Machine.exec
  cases i with
  | nop | waitcc => exact h.runOp h
  | add | sub | mul | mulh | div | divn | rem | remn | and | or | xor | shl | shrl | shra | min | max | minn | maxn | cmp | sel
  | clz | popc | bfx | bfi | addi | andi | ori | xori | shli | shrli | shrai | li | lih | fadd | fmul | ffma | fcmp | movs =>
    exact h.scalarOp
  | fcvt => exact h.runOp (either h.outX.useRng h.outX)
  | movd => exact h.runOp (either h.modBun h.out)
  | engctlResume => exact .next h.engResume
  | engctlCancel => exact .next h.engCancel
  | sete | mscl | mtile | mtileImm => exact h.runOp h.out
  | ldg => exact h.runOp h.loadGlobal
  | stg => exact h.runOp h.storeGlobal
  | ldl => exact h.runOp h.loadLocal
  | stl | barinit => exact h.runOp h.storeLocal
  | br | j | jr | brt => exact h.runOp h.takeJump
  | call | callr => exact h.runOp h.takeJump.outX.pushRet
  | ret => exact h.runOp h.takeJump.modCx
  | loop | bsw => exact h.runOp h.takeJump.modBun
  | ifence => exact h.runOp h.modCx.modBun
  | bararr | fenceL | fenceE | gleave | tdec | aadd | amin | amax | axchg | acas | xferOwned | xferShared | xferEngine | tokacq
  | tokrel => exact h.runOp h.defer
  | barwait | qstat | pcnt | rcpstat => exact h.runOp h.outX
  | gbar => exact h.runOp h.outX.modTask
  | endt => exact h.runOp h.endTask
  | yield => exact h.runOp h.matFlush.saveFrame
  | tkopen => exact h.runOp (h.domOp (fun h1 => h1.setDom))
  | tkadd | tkmin | tkmax => exact h.runOp h.sendScalar
  | tkskip => exact h.runOp (h.domOp (fun h1 => h1.skipTicket))
  | tkdrain => exact h.execTkdrain
  | tkstat => exact h.runOp (h.domOp (fun h1 => h1))
  | tkclose => exact h.runOp (h.domOp (fun h1 => h1.closeDom))
  | xferComplete => exact .next (h.within (fun h1 => either h1.finishHold h1))
  | lock => exact h.runOp (h.foldl (fun h1 => h1.modDie)).lockResult
  | unlock => exact h.runOp (either h.lockResult (h.foldl (fun h1 => h1.modDie)).lockResult)
  | qbind | qunbind => exact h.runOp h.modBun
  | qsync => exact h.execQsync
  | trap | brk => exact h.runOp h.takeTrap
  | rett => exact h.runOp h.returnTrap
  | vadd | vsub | vmul | vfma | vmin | vmax | vabs | vneg | vred | vscan | vshl | vshrI | vshrN | vand | vor | vxor | vnot | vsel
  | vmov | vbcast | vrot | vperm | vshuf | vcompr | vexpd | vbcmp | vbfind | vhash | vcrc | vexp2 | vlog2 | vrcp | vrsq | vtanh
  | vsigm => exact h.vecOp
  | vcmp | rowpred | rcwld => exact h.runOp h.outP
  | vld | vlda => exact h.runOp h.loadRow
  | vst | vsta | vstaAdd => exact h.runOp h.storeRow
  | vtkadd | vtkmin | vtkmax => exact h.runOp h.sendTk
  | vaadd | vamin | vamax | vaxchg => exact h.runOp h.deferRow
  | vcvt => exact h.runOp h.convert
  | vrng => exact h.runOp h.outV.useRng
  | pand | por | pxor | pnot => exact h.predOp
  | rcwupd | rcwadv | ttr => exact h.runOp h.outV
  | rcpdef => exact h.execRcpdef
  | rcpdefEmbedded => exact h.runOp h.outV.modAr
  | drop | rcpclr | rcpclrAll => exact h.runOp h.modAr
  | ttw => exact h.runOp (h.modLcore (fun h1 => h1.upd))
  | mma | mmap | mzero => exact h.runOp h.matStart
  | copy | gath | exsave | trunc | sieve | resto | fillGap | fillSeal | fillRequant | fillUnseal | coll | noteSend | noteRegister
  | noteDeregister | notePurge => exact h.runOp h.capture
  | implicitCheckpoint => exact .next (h.within (fun h1 => either h1.implicitCommit h1))
  | commandStart => exact .next (either h.startCmd h)
  | engineCompletion => exact .next (either h.completeCmd h)
  | engineFault => exact .next (either h.faultCmd h)
  | loadDataArrive => exact h.execLoadDataArrive
  | lateData => exact h.execLateData
  | feWaitSatisfy => exact h.execFeWaitSatisfy
  | streamFetch => exact .next (h.within (fun h1 => h1.fetchOne))
  | recipeReplay => exact h.execRecipeReplay
  | matrixResultWrite => exact .next (either h.writeResAt h)
  | pairTimeout => exact .next (h.within (fun h1 => either h1.timeoutPair h1))
  | flowstoneDemand => exact .next (either h.serveDemand h)
  | ticketPartArrive | ticketPartRetry => exact .next h.bringPart
  | ticketGap => exact .next (either h.gapEvent h)
  | asyncTrap => exact h.execAsyncTrap
  | selectorPromotion => exact .next h.modCtxAt
  | waitYield => exact h.execWaitYield
  | taskDispatch => exact .next (either h.dispatch h)
  | launchComplete => exact h.execLaunchComplete
  | preempt => exact h.execPreempt
  | taskTerminate => exact h.execTaskTerminate
  | memoryError => exact .next h.memError
  | thermalSample => exact .next (either h (either h.thermalHalt h.modElw.limitChanged))
  | blackboxMirror => exact .next h.mirror
  | ceilingChangeApply => exact .next h.applyChanges
  | hbSend => exact .next (either h (h.foldl (fun h1 => h1.elwSend)))
  | silenceTest => exact .next (either h (either h (h.modElw.foldl (fun h1 => h1.elwEvent))))
  | evictTimeout => exact .next (either h (h.foldl (fun h1 => h1.elwSeq.elwAll.schedule)))
  | raiseDeadline => exact .next (either h (h.foldl (fun h1 => h1.settleRaise)))
  | joinDeadline => exact h.execJoinDeadline
  | hb => exact h.execHb
  | lower => exact .next (h.elwTake (fun h1 => either h1.seen.modElw.schedule h1))
  | raise => exact .next (h.elwTake (fun h1 => h1.modElw.elwSend))
  | ack | cancel => exact .next (h.elwTake (fun h1 => h1.modElw))
  | commit => exact .next (h.elwTake (fun h1 => either (either h1.seen.modElw.schedule h1.seen) h1))
  | join => exact h.execJoin
  | joinack => exact .next (h.elwTake (fun h1 => either h1 (either h1.abortJoin (either h1.modElw h1.modElw.elwSend))))
  | joinabort => exact h.execJoinabort
  | leave => exact .next (h.elwTake (fun h1 => either h1.seen.schedule h1))
  | evict => exact .next (h.elwTake (fun h1 => either h1.elwAlone.elwEvent (either h1.seen.schedule h1)))
  | elwBadOp => exact .next (either h h.protoError)
  | rdreq => exact .next (h.incoming (fun h1 => h1.serveRead))
  | rdrsp => exact .next (h.incoming (fun h1 => h1.takeRead))
  | wrreq => exact .next (h.incoming (fun h1 => h1.serveWrite.answer))
  | wrack | tkack | noteack => exact .next (h.incoming (fun h1 => h1.dropCopy))
  | tkpart => exact .next (h.incoming (fun h1 => h1.servePart))
  | aareq => exact .next (h.incoming (fun h1 => h1.serveAtom))
  | aarsp => exact .next (h.incoming (fun h1 => h1.takeAtom))
  | nack => exact .next (h.incoming (fun h1 => h1.resend))
  | tkconf => exact .next (h.incoming (fun h1 => h1.takeConf))
  | notice => exact .next (h.incoming (fun h1 => h1.serveNotice))
  | tokreq => exact .next (h.incoming (fun h1 => h1.serveToken))
  | tokgrant => exact .next (h.incoming (fun h1 => h1.takeToken))
  | tokrecall => exact .next (h.incoming (fun h1 => h1.giveToken))
  | tokreturn => exact .next (h.incoming (fun h1 => h1.tokenBack))
  | collrdy => exact .next (h.incoming (fun h1 => h1.serveReady))
  | flitCrcRetry => exact .next h.crcFail
  | hopDown => exact .next h.hopFail
  | flitUnknownKind => exact .next (h.incoming (fun h1 => h1.protoError))
  | launch | launchi | waitc | waitcObserved | signalAdd | signalSet | signalTdec | skipif | listJump | listCall | listRet
  | listLoop | listXfer | listFlush | listFence => exact .next (either h.stepList h)
  | submitGo => exact .next h.submit
  | nmcfgWrite => exact .next h.nmcfg
  | carveoutComplete => exact .next h.carveout
  | xlinvAll | xlinvAsid | xlinvPage => exact .next h.xlinv
  | xlinvDone => exact .next h.xlinvEnd
  | xlresume => exact .next h.xlresume
  | accsvSave => exact .next h.accSave
  | domainSaveDone => exact .next h.domSaved
  | accsvRestore => exact .next h.accRestore
  | elwctlJoin => exact .next h.ctlJoin
  | elwctlLeave => exact .next h.ctlLeave
  | elwctlCap => exact .next h.ctlCap
  | elwevtPop => exact .next h.modElw
  | hevtPop => exact .next h.modDie
  | dbgStop => exact .next h.stopCtx
  | dbgUnstop => exact .next h.unstopCtx
  | dbgdataRead => exact .next h.dbgRead
  | rbaseWrite => exact .next h.setRing
  | registerWrite => exact h.execRegisterWrite
  | resetRelease => exact .next (either h h.boot)
  | warmReset => exact .next (either h.warm h)
  | hdmWrite => exact .next (either h.storePA h)
  | hdmRead | configRequest => exact .next h.upd
  | readSensors => exact h.execReadSensors
  | setPowerCap => exact h.execSetPowerCap
  | attest => exact .next (either h.upd (h.request h))
  | readIdentity => exact h.execReadIdentity
  | worulmonWarmReset => exact h.execWorulmonWarmReset
  | setEndpointId => exact .next (either h.upd.respond h)
  | getEndpointId | getMctpVersionSupport | getMessageTypeSupport | getVendorDefinedMessageSupport => exact .next h.respond
  | mctpOtherType => exact .next h
  | resumption => exact .next (h.readyAgain.foldl (fun h1 => h1.readyAgain))
  | retryAfterCancel => exact .next h.retryRaises
  | powerCapReached => exact .next (either h.hostEvent.blackBox h)
  | powerRemoved => exact .next powerOff
  | cxlLinkTrained => exact .next h.upd.showReady
  | unknownCommand => exact .next (either (h.request h) h)

/-! ### The issue of a bundle -/

theorem State.Canon.nextOr {s : State} {r : Host.Outcome State Fault Refusal} (h : s.Canon) (hr : OutOk r) : (nextOr s r).Canon := by
  unfold Machine.nextOr
  split
  · exact hr _ rfl
  · exact h

theorem State.Canon.issueSlot {s : State} {x : SlotInst} (h : s.Canon) : (s.issueSlot x).Canon :=
  (either h.atSlot.modBun (h.atSlot.nextOr h.atSlot.exec)).modAr

theorem State.Canon.leave {s : State} {n : Nat} (h : s.Canon) : (s.leave n).Canon := h.dropGot.modAr

theorem State.Canon.endOp {s : State} {x : EndOp} (h : s.Canon) : (s.endOp x).Canon := by
  unfold State.endOp
  split
  · exact h.leave.modCx
  · exact h.leave.modCx
  · exact h.modAr
  · exact h
  · exact h.dropGot.modCx

theorem State.Canon.consume {s : State} (h : s.Canon) : s.consume.Canon := h.foldl (fun h1 => h1.modCx)

theorem State.Canon.snapshot {s : State} {pc : Nat} (h : s.Canon) : (s.snapshot pc).Canon := either h.ringPut h

theorem State.Canon.issueOps {s : State} {o : Offer} (h : s.Canon) : (s.issueOps o).Canon :=
  (h.fetchTo.openBun.modBun.foldl (fun h1 => h1.issueSlot)).upd

theorem State.Canon.endBundle {s : State} {o : Offer} (h : s.Canon) : (s.endBundle o).Canon := by
  unfold State.endBundle
  extract_lets seen b e ctr t u v left w x y z r dup
  have hu : u.Canon := State.Canon.endCycle (State.Canon.modAr h.consume)
  have hv : v.Canon := either hu (State.Canon.modAr hu)
  have hx : x.Canon := State.Canon.foldl (State.Canon.modAr hv) fun h => h.endOp
  have hz : z.Canon := either (State.Canon.modBun (State.Canon.modAr hx)) (State.Canon.modAr hx)
  have hr : r.Canon := by
    dsimp only [r]
    split
    · exact hz.traceRec
    · exact hz
  exact hr.modCx

theorem State.Canon.issueRun {s : State} {o : Offer} (h : s.Canon) : (s.issueRun o).Canon := h.issueOps.endBundle.upd

theorem State.Canon.settleCaches {s : State} {p c asid : Nat} {vas : List Nat} (h : s.Canon) : (s.settleCaches p c asid vas).Canon :=
  (h.foldl (fun h1 => h1.tlbFill)).modCtxAt.draw

theorem State.Canon.issueEnd {s : State} (h : s.Canon) : s.issueEnd.Canon :=
  (either (either h.flushStreams h).commit.runAfter ((either h.flushStreams h).upd).modCx).settleCaches

theorem State.Canon.makeRoom {s : State} {o : Offer} (h : s.Canon) : (s.makeRoom o).Canon := either h.implicitCommit.modCx h

theorem State.Canon.snapOut {s : State} (h : s.Canon) : s.snapOut.Canon := by
  unfold State.snapOut
  split
  · exact h
  · exact h.snapshot

theorem State.Canon.issue {s : State} {o : Offer} (h : s.Canon) : OptOk State.Canon (s.issue o) := by
  unfold State.issue
  dsimp only
  split
  · exact .some h.issueRun.snapOut.issueEnd
  · exact .none

theorem State.Canon.halfRun {s : State} {p c : Nat} {o : Offer} (h : s.Canon) : (s.halfRun p c o).1.Canon :=
  h.upd.within (fun h1 => h1.issueRun)

theorem State.Canon.halfEnd {s : State} {p c : Nat} {b : Bun} (h : s.Canon) : (s.halfEnd p c b).Canon :=
  h.upd.within (fun h1 => h1.issueEnd)

theorem State.Canon.halfSnap {s : State} {p c : Nat} {b : Bun} (h : s.Canon) : (s.halfSnap p c b).Canon :=
  h.upd.within (fun h1 => h1.snapOut)

theorem State.Canon.jointIssue {s : State} {o : Offer} {p c : Nat} {q : Offer} {leads : Bool} (h : s.Canon) :
    OptOk State.Canon (s.jointIssue o p c q leads) := by
  unfold State.jointIssue
  dsimp only
  split
  · split
    · exact .some (either h.halfRun.halfRun.halfSnap.halfSnap h.halfRun.halfRun.halfSnap.halfSnap).modCtxAt.modCx.halfEnd.halfEnd.modCore
    · exact .none
  · split
    · exact .some (either h.halfRun.halfRun.halfSnap.halfSnap h.halfRun.halfRun.halfSnap.halfSnap).modCtxAt.modCx.halfEnd.halfEnd.modCore
    · exact .none

theorem State.Canon.issuePair {s : State} {o : Offer} {w : MmaW} (h : s.Canon) : OptOk FstCanon (s.issuePair o w) := by
  unfold State.issuePair
  dsimp only
  split
  · split
    · exact h.presentPair.jointIssue.map (fun h1 => h1)
    · exact .none
  · exact .some (h.presentPair.within (fun h1 => h1.trapOffer))
  · exact .none

/-! ### A core cycle -/

theorem State.Canon.readyCycle {s : State} {o : Offer} (h : s.Canon) : (s.readyCycle o).Canon := by
  unfold State.readyCycle
  split
  · exact either h.presentPair h.boundary
  · exact either h.boundary h

theorem State.Canon.ctxCycle {s : State} (h : s.Canon) : s.ctxCycle.Canon := by
  unfold State.ctxCycle
  split
  · exact h.modCx
  · dsimp only
    split
    · exact either h.landReplay.waitCycle.stepReplay h.landReplay.waitCycle
    · exact h.landReplay.makeRoom.readyCycle
    · exact h.landReplay.refusedCycle
    · exact h.landReplay

theorem State.Canon.act {s : State} (h : s.Canon) : OptOk FstCanon s.act := by
  unfold State.act
  split
  · exact .none
  · exact .some h.takeStop
  · extract_lets ops left u t
    have ht : t.Canon := State.Canon.runOps (State.Canon.modCx (State.Canon.upd (s := s) (t := u) h))
    split
    · exact .some ht.upd
    · exact .none
  · exact .none
  · split
    · exact .some h.stepReplay
    · exact .none
  · exact .some h.trapOffer
  · split
    · exact h.issuePair
    · exact h.issue.map (fun h1 => h1)

theorem State.Canon.actOf {s : State} {p c : Nat} (h : s.Canon) : OptOk FstCanon (s.actOf p c) := h.upd.act.map (fun h1 => h1.upd)

theorem State.Canon.countWaits {s : State} {p : Nat} {e : List Nat} {c : Option Nat} (h : s.Canon) : (s.countWaits p e c).Canon := h.modCore

theorem State.Canon.logCycle {s : State} {p o : Nat} (h : s.Canon) : (s.logCycle p o).Canon :=
  either h (either (either h.logFlush h) (either (either h.logFlush h).modCore.logFlush (either h.logFlush h).modCore))

theorem State.Canon.endDriving {s : State} {p o : Nat} (h : s.Canon) : (s.endDriving p o).Canon := h.modCore.blackBox

theorem State.Canon.driven {s : State} {p o n : Nat} (h : s.Canon) : (s.driven p o n).Canon := h.modCore

theorem State.Canon.drive {s : State} {p o k n : Nat} (h : s.Canon) : (s.drive p o k n).Canon := by
  unfold State.drive
  split
  · exact h.logCycle
  · next e => exact (either (h.actOf.fst e).driven (h.actOf.fst e)).modCore.logCycle

theorem State.Canon.select {s : State} {p : Nat} (h : s.Canon) : (s.select p).Canon := by
  unfold State.select
  dsimp only
  split
  · exact h.countWaits.logCycle
  · split
    · exact h
    · next e2 => exact (h.actOf.fst e2).countWaits.logCycle

theorem State.Canon.gapTimers {s : State} {p : Nat} (h : s.Canon) : (s.gapTimers p).Canon := by
  refine h.mapLcores fun h => ?_
  split
  · exact h.upd
  · exact h

theorem State.Canon.cycleOpen {s : State} {p : Nat} (h : s.Canon) : (s.cycleOpen p).Canon := either h.upd.clockDie h.upd

theorem State.Canon.cycleStart {s : State} {p : Nat} (h : s.Canon) : (s.cycleStart p).Canon :=
  h.tick.gapTimers.foldl (fun h1 => h1.within (fun h2 => h2.ctxCycle))

theorem State.Canon.pairCycle {s : State} {p c : Nat} (h : s.Canon) : (s.pairCycle p c).Canon := by
  unfold State.pairCycle
  dsimp only
  split
  · split
    · exact either h.countWaits.logCycle.driven h.countWaits.logCycle
    · exact h.countWaits.logCycle
  · exact h.countWaits.logCycle

theorem State.Canon.cycleEnd {s : State} {p : Nat} (h : s.Canon) : (s.cycleEnd p).Canon := by
  unfold State.cycleEnd
  split
  · exact h.pairCycle
  · split
    · split
      · exact h.endDriving.select
      · exact either h.endDriving.select h.drive
    · exact h.select

theorem State.Canon.coreCycle {s : State} {p : Nat} (h : s.Canon) : (s.coreCycle p).Canon :=
  either h.cycleOpen h.cycleOpen.cycleStart.cycleEnd

/-! ### Events inside the machine -/

theorem State.Canon.as {s : State} {t : Spot} (h : s.Canon) : (s.as t).Canon := h.upd

theorem OptOk.firstOf {α : Type} {l : List α} {f : α → Bool} {g : α → State} (hg : ∀ {a}, (g a).Canon) :
    OptOk State.Canon (firstOf l f g) := .of_map hg

theorem State.Canon.firstCtx {s : State} {ok : State → Bool} {f : State → State} (h : s.Canon) (hf : ∀ {s}, s.Canon → (f s).Canon) :
    OptOk State.Canon (s.firstCtx ok f) := .firstOf (h.within fun h => hf h.upd)

/-- The first value that a list's members give. -/
theorem OptOk.findSome {α : Type} {l : List α} {f : α → Option State} (hf : ∀ {a}, OptOk State.Canon (f a)) :
    OptOk State.Canon (l.findSome? f) := fun _ e => by
  obtain ⟨a, -, ha⟩ := List.exists_of_findSome?_eq_some e
  exact hf _ ha

theorem State.Canon.eventOf {s : State} {kind : Nat} (h : s.Canon) : OptOk State.Canon (s.eventOf kind) := by
  unfold State.eventOf
  split
  · exact .firstOf h.dispatch
  · exact .firstOf h.startCmd
  · exact .firstOf h.completeCmd
  · exact .firstOf h.faultCmd
  · exact .firstOf h.serveDemand
  · exact .of_map h.giveLoad
  · exact .findSome (.of_map h.satisfy)
  · exact .of_map (h.within fun h1 => h1.fetchOne)
  · exact .of_map h.writeResAt
  · exact h.firstCtx fun h1 => h1.timeoutPair
  · exact .of_map h.bringPart
  · exact .of_map h.bringPart
  · exact .of_map h.gapEvent
  · exact .of_map h.savePreempted
  · exact h.firstCtx fun h1 => h1.saveCtx
  · exact h.firstCtx fun h1 => h1.finishHold
  · exact h.firstCtx fun h1 => h1.resumeJob
  · exact .of_map h.hopFail
  · exact .of_map h.xlinvEnd
  · exact .of_map h.carveout
  · exact .firstOf h.domSaved
  · exact .firstOf h.endLaunch
  · exact .of_map h.sendOut
  · exact .of_map h.endRecall
  · exact .of_map h.stepList.upd
  · split
    · exact .some h.bootStep
    · exact .none
  · split
    · exact .some h.sendPending
    · exact .none

theorem State.Canon.nextEvent {s : State} {n m : Nat} (h : s.Canon) : OptOk FstCanon (s.nextEvent n m) := by
  induction n generalizing s m with
  | zero =>
    unfold State.nextEvent
    exact .none
  | succ k ih =>
    unfold State.nextEvent
    split
    · next e => exact .some (h.eventOf.out e)
    · exact ih h

theorem State.Canon.inner {s : State} (h : s.Canon) : s.inner.Canon := by
  unfold State.inner
  split
  · exact h
  · next e => exact (h.nextEvent.fst e).upd

theorem State.Canon.outer {s : State} (h : s.Canon) : s.outer.Canon := by
  unfold State.outer
  split
  · exact h
  · exact h.upd.coreCycle

theorem State.Canon.advance {s : State} (h : s.Canon) : s.advance.Canon := either h.inner.upd h.outer.upd

theorem State.Canon.step {s : State} (h : s.Canon) : OutOk (step s) := by
  unfold Machine.step
  split
  · exact h.upd.exec
  · exact .next h.advance

/-- Settles O59: by `State.Canon.step`, what every operation of the model keeps. -/
theorem memoryStaysCanonical : Obligations.MemoryStaysCanonical := by
  intro s t hs ht
  rw [State.memOk_iff] at *
  exact hs.step t ht

end Sys2Proof.Machine
end

/-! ## Memories as data -/

section
namespace Sys2Proof.Machine

theorem Memory.read_cons_self (a : Nat) (b : Byte) (m : Memory) : Memory.read ((a, b) :: m) a = b := by simp [Memory.read, Tbl.get]

theorem Memory.read_cons_ne {a c : Nat} (b : Byte) (m : Memory) (h : a ≠ c) : Memory.read ((a, b) :: m) c = m.read c := by
  simp [Memory.read, Tbl.get, h]

/-- The canonical form of a memory with a first byte. -/
theorem Memory.wf_cons {a : Nat} {b : Byte} {m : Memory} :
    Memory.wf ((a, b) :: m) = true ↔ (∀ x ∈ m, a < x.1) ∧ b ≠ 0 ∧ Memory.wf m = true := by
  simp only [Memory.wf_iff, List.pairwise_cons, List.mem_cons, forall_eq_or_imp]
  tauto

theorem Memory.read_write_self {m : Memory} (h : Memory.wf m = true) (a : Nat) (b : Byte) : (Memory.write m a b).read a = b := by
  unfold Memory.write Memory.read
  split
  · next hb => rw [Tbl.get_del_self _ ((Memory.wf_iff m).1 h).1, hb]
  · exact Tbl.get_put_self ..

/-- Of two memories that read alike, neither begins below the other: it would read a listed byte where the other reads 0. -/
theorem Memory.head_le {a c : Nat} {b d : Byte} {m n : Memory} (hm : Memory.wf ((a, b) :: m) = true) (hn : Memory.wf ((c, d) :: n) = true)
    (h : ∀ x, Memory.read ((a, b) :: m) x = Memory.read ((c, d) :: n) x) : c ≤ a := by
  by_contra hlt
  obtain ⟨-, hb, -⟩ := Memory.wf_cons.1 hm
  obtain ⟨hlow, -, -⟩ := Memory.wf_cons.1 hn
  have hread := h a
  rw [Memory.read_cons_self, Memory.read_cons_ne d n (by omega)] at hread
  exact hb (hread.trans (Tbl.get_of_lt 0 n a fun x hx => by have := hlow x hx; omega))

/-- Canonical memories that read alike are the same list: their first bytes agree, and so do the rests. -/
theorem Memory.eq_of_read {m n : Memory} (hm : Memory.wf m = true) (hn : Memory.wf n = true) (h : ∀ x, m.read x = n.read x) : m = n := by
  induction m generalizing n with
  | nil =>
    cases n with
    | nil => rfl
    | cons q n =>
      have hq := h q.1
      rw [Memory.read_cons_self] at hq
      exact absurd hq.symm (Memory.wf_cons.1 hn).2.1
  | cons p m ih =>
    cases n with
    | nil =>
      have hp := h p.1
      rw [Memory.read_cons_self] at hp
      exact absurd hp (Memory.wf_cons.1 hm).2.1
    | cons q n =>
      obtain ⟨a, b⟩ := p
      obtain ⟨c, d⟩ := q
      obtain rfl : a = c := Nat.le_antisymm (Memory.head_le hn hm fun x => (h x).symm) (Memory.head_le hm hn h)
      have hbd := h a
      rw [Memory.read_cons_self, Memory.read_cons_self] at hbd
      obtain ⟨hma, -, hm⟩ := Memory.wf_cons.1 hm
      obtain ⟨hna, -, hn⟩ := Memory.wf_cons.1 hn
      have hrest : m = n := ih hm hn fun x => by
        by_cases hx : a = x
        · subst hx
          exact (Tbl.get_of_lt 0 m a hma).trans (Tbl.get_of_lt 0 n a hna).symm
        · simpa only [Memory.read_cons_ne _ _ hx] using h x
      rw [hbd, hrest]

/-- Settles O38: by `Memory.read_write_self`, `Memory.read_write_ne`, `Memory.write_wf` and `Memory.eq_of_read`. -/
theorem memoryReadAfterWrite : Obligations.MemoryReadAfterWrite :=
  ⟨fun m a _ v h => ⟨Memory.read_write_self h a v, Memory.read_write_ne m v, Memory.write_wf h a v⟩, fun _ _ => Memory.eq_of_read⟩

end Sys2Proof.Machine
end

/-! ## The pc at the end of a context cycle -/

section
namespace Sys2Proof.Machine

/-! ### What a fetch reads -/

/-- From `s` to `t`, what the issuing context fetches is unchanged: its packets, and where its task's code lies; and its count of context
cycles has risen by `n`. -/
structure FetchKept (n : Nat) (s t : State) : Prop where
  lcores : t.lcores = s.lcores
  lcoreOf : ∀ id, (t.task id).lcore = (s.task id).lcore
  task : t.cx.task = s.cx.task
  pkts : t.cx.pkts = s.cx.pkts
  scyc : t.ar.scyc = s.ar.scyc + n

/-- Two states in which the issuing context fetches the same have the same packets. -/
theorem FetchKept.packet {n : Nat} {s t : State} (h : FetchKept n s t) (pk : Nat) : t.packet pk = s.packet pk := by
  obtain ⟨hl, hof, ht, hp, -⟩ := h
  simp only [State.packet, State.lc, State.lcore, State.myTask, State.tid, Ctx.tid, hl, hof, ht, hp]

theorem FetchKept.word {n : Nat} {s t : State} (h : FetchKept n s t) (a : Nat) : t.word a = s.word a := by
  rw [State.word, h.packet, State.word]

theorem FetchKept.wordsFrom {n : Nat} {s t : State} (h : FetchKept n s t) (a : Nat) : t.wordsFrom a = s.wordsFrom a := by
  rw [State.wordsFrom, h.packet, State.wordsFrom]

theorem FetchKept.fallOf {n : Nat} {s t : State} (h : FetchKept n s t) (a k : Nat) : t.fallOf a k = s.fallOf a k := by
  simp only [State.fallOf, State.linkOf, h.word, h.wordsFrom]

theorem FetchKept.refl (s : State) : FetchKept 0 s s := ⟨rfl, fun _ => rfl, rfl, rfl, rfl⟩

theorem FetchKept.trans {m n : Nat} {s t u : State} (h : FetchKept m s t) (k : FetchKept n t u) : FetchKept (m + n) s u where
  lcores := k.lcores.trans h.lcores
  lcoreOf id := (k.lcoreOf id).trans (h.lcoreOf id)
  task := k.task.trans h.task
  pkts := k.pkts.trans h.pkts
  scyc := by rw [k.scyc, h.scyc, Nat.add_assoc]

/-- A further operation that leaves the count as it is. -/
theorem FetchKept.then {n : Nat} {s t u : State} (h : FetchKept n s t) (k : FetchKept 0 t u) : FetchKept n s u := h.trans k

theorem FetchKept.foldl {α : Type} {f : State → α → State} (hf : ∀ s x, FetchKept 0 s (f s x)) (l : List α) (s : State) :
    FetchKept 0 s (l.foldl f s) := by
  induction l generalizing s with
  | nil => exact .refl s
  | cons x l ih => exact (hf s x).then (ih (f s x))

/-! ### Operations that leave a fetch as it is -/

theorem FetchKept.modCx {n : Nat} {s : State} {f : Ctx → Ctx} (ht : (f s.cx).task = s.cx.task) (hp : (f s.cx).pkts = s.cx.pkts)
    (hc : (f s.cx).arch.scyc = s.cx.arch.scyc + n) : FetchKept n s (s.modCx f) where
  lcores := rfl
  lcoreOf _ := rfl
  task := by rw [State.cx_modCx, ht]
  pkts := by rw [State.cx_modCx, hp]
  scyc := by rw [State.ar, State.cx_modCx, hc, State.ar]

theorem FetchKept.modAr {n : Nat} {s : State} {f : Arch → Arch} (h : (f s.ar).scyc = s.ar.scyc + n) : FetchKept n s (s.modAr f) :=
  .modCx (f := fun k => { k with arch := f s.ar }) rfl rfl h

theorem FetchKept.modBun (s : State) (f : Bun → Bun) : FetchKept 0 s (s.modBun f) := ⟨rfl, fun _ => rfl, rfl, rfl, rfl⟩

theorem Tbl.get_cons {α : Type} (d : α) (a : Nat × α) (t : Tbl α) (k : Nat) :
    Tbl.get d (a :: t) k = if a.1 = k then a.2 else Tbl.get d t k := rfl

/-- An entry of a table whose entries are changed one by one, in their places. -/
theorem Tbl.get_map {α : Type} {d : α} {g : Nat × α → Nat × α} (hk : ∀ x, (g x).1 = x.1) {k : Nat} (hd : (g (k, d)).2 = d) (t : Tbl α) :
    Tbl.get d (t.map g) k = (g (k, Tbl.get d t k)).2 := by
  induction t with
  | nil => exact hd.symm
  | cons a t ih =>
    rw [List.map_cons, Tbl.get_cons, Tbl.get_cons, hk]
    split
    · next h => rw [← h]
    · exact ih

/-- Dies changed one by one, with their tasks kept. -/
theorem State.task_mapDies {s t : State} {f : Die → Die} (h0 : f {} = {}) (hf : ∀ d, (f d).tasks = d.tasks)
    (h : t.dies = s.dies.map (fun d => (d.1, f d.2))) (id : Nat) : t.task id = s.task id := by
  have hdie (k : Nat) : t.die k = f (s.die k) := by
    rw [State.die, h]
    exact Tbl.get_map (g := fun d => (d.1, f d.2)) (fun _ => rfl) h0 s.dies
  rw [State.task, hdie, hf, State.task]

theorem FetchKept.dropGot (s : State) (f : Nat → Bool) : FetchKept 0 s (s.dropGot f) where
  lcores := rfl
  lcoreOf id := congrArg Task.lcore (State.task_mapDies (f := fun d => { d with copies := d.copies.map _ }) rfl (fun _ => rfl) rfl id)
  task := rfl
  pkts := rfl
  scyc := rfl

theorem FetchKept.dropLine (s : State) (pa : Nat) : FetchKept 0 s (s.dropLine pa) where
  lcores := rfl
  lcoreOf id := congrArg Task.lcore (State.task_mapDies (f := fun d => { d with copies := d.copies.map _ }) rfl (fun _ => rfl) rfl id)
  task := rfl
  pkts := rfl
  scyc := rfl

/-- A change of a task that leaves it on its logical core. -/
theorem FetchKept.modTask {s : State} {k : Nat} {f : Task → Task} (h : (f (s.task k)).lcore = (s.task k).lcore) :
    FetchKept 0 s (s.modTask k f) where
  lcores := rfl
  lcoreOf id := by
    by_cases hd : fld id 18 16 = fld k 18 16
    · by_cases hn : fld id 15 0 = fld k 15 0
      · have e (t : State) : t.task id = t.task k := by rw [State.task, hd, hn, State.task]
        rw [e, e, State.task_modTask_self, h]
      · rw [State.task, State.task, State.modTask, State.setTask, hd, State.die_modDie_self, Tbl.get_put_ne _ _ _ hn]
    · rw [State.task, State.task, State.modTask, State.setTask, State.die_modDie_ne _ _ hd]
  task := rfl
  pkts := rfl
  scyc := rfl

theorem FetchKept.cutWindows (s : State) (x : Space) (unit off n : Nat) : FetchKept 0 s (s.cutWindows x unit off n) := .modCx rfl rfl rfl

theorem FetchKept.withhold (s : State) (iss : Nat) (es : List WEnt) : FetchKept 0 s (s.withhold iss es) := by
  unfold State.withhold
  extract_lets t sps u v w fs
  have ht : FetchKept 0 s t := .foldl (fun s e => .cutWindows s ..) es s
  have hu : FetchKept 0 t u := .modAr rfl
  have hv : FetchKept 0 u v := .modBun u _
  have hw : FetchKept 0 v w := .foldl (fun s e => by
    split
    · exact .dropLine s _
    · exact .refl s) es v
  exact (((ht.then hu).then hv).then hw).then (.modCx rfl rfl rfl)

theorem Arch.scyc_appended (a : Arch) (q iss : Nat) : (a.appended q iss).scyc = a.scyc := by
  unfold Arch.appended
  extract_lets up
  split
  · rfl
  · rfl

theorem FetchKept.append (s : State) (l : Landing) : FetchKept 0 s (s.append l) := by
  unfold State.append
  extract_lets q stop
  have hstop (t : Trap) : FetchKept 0 s (stop s t) := .modTask rfl
  split
  · exact .refl s
  · exact hstop _
  · split
    · exact hstop _
    · exact (FetchKept.withhold s ..).then (.modAr (Arch.scyc_appended ..))

theorem Arch.scyc_setX (a : Arch) (n : Nat) (v : Word) : (a.setX n v).scyc = a.scyc := by
  unfold Arch.setX
  split
  · rfl
  · rfl

theorem Arch.scyc_setP (a : Arch) (n : Nat) (v : Pred) : (a.setP n v).scyc = a.scyc := by
  unfold Arch.setP
  split
  · rfl
  · rfl

theorem Arch.scyc_landReg (a : Arch) (l : Landing) : (a.landReg l).scyc = a.scyc := by
  unfold Arch.landReg
  split
  case h_1 =>
    split
    · rfl
    · extract_lets b
      split
      · rfl
      · exact Arch.scyc_setX b ..
  case h_2 =>
    extract_lets b
    split
    · rfl
    · rfl
  case h_3 => exact Arch.scyc_setP a ..
  all_goals rfl

theorem FetchKept.landOne (s : State) (l : Landing) : FetchKept 0 s (s.landOne l) := by
  unfold State.landOne
  split
  · exact .append s l
  · exact .modAr (Arch.scyc_landReg ..)

/-- What every step of a fold over a list keeps, the fold keeps. -/
theorem Arch.scyc_foldl {α : Type} {f : Arch → α → Arch} (hf : ∀ a x, (f a x).scyc = a.scyc) (l : List α) (a : Arch) :
    (l.foldl f a).scyc = a.scyc := by
  induction l generalizing a with
  | nil => rfl
  | cons x l ih => exact (ih (f a x)).trans (hf a x)

theorem Arch.scyc_settleDrops (a : Arch) (owed : List Nat) : (a.settleDrops owed).scyc = a.scyc :=
  Arch.scyc_foldl (fun b t => by
    split
    · rfl
    · rfl) a.drops a

theorem FetchKept.consume (s : State) : FetchKept 0 s s.consume := .foldl (fun _ _ => .modCx rfl rfl rfl) s.bun.reads s

theorem FetchKept.endCycle (s : State) : FetchKept 0 s s.endCycle := by
  unfold State.endCycle
  extract_lets c now t vs u v cy owed
  have ht : FetchKept 0 s t := .modAr rfl
  have hu : FetchKept 0 t u := .foldl .landOne now t
  have hv : FetchKept 0 u v := .modCx rfl rfl rfl
  exact ((ht.then hu).then hv).then (.modAr (Arch.scyc_settleDrops ..))

theorem FetchKept.leave (s : State) (n : Nat) : FetchKept 0 s (s.leave n) := (FetchKept.dropGot s _).then (.modAr rfl)

theorem FetchKept.endOp (s : State) (x : EndOp) : FetchKept 0 s (s.endOp x) := by
  unfold State.endOp
  split
  · exact (FetchKept.leave s _).then (.modCx rfl rfl rfl)
  · exact (FetchKept.leave s _).then (.modCx rfl rfl rfl)
  · exact .modAr rfl
  · exact .refl s
  · exact (FetchKept.dropGot s _).then (.modCx rfl rfl rfl)

theorem Arch.scyc_applyEnd (a : Arch) (pc : Nat) (e : LoopEnd) : (a.applyEnd pc e).scyc = a.scyc := by
  unfold Arch.applyEnd
  extract_lets b c
  have hb : b.scyc = a.scyc := Arch.scyc_foldl (f := fun a t => a.setSr _ _) (fun _ _ => rfl) e.idx a
  have hc : c.scyc = b.scyc := Arch.scyc_foldl (f := Arch.endLevel) (fun _ _ => rfl) e.off b
  split
  · exact hc.trans hb
  · exact (Arch.scyc_landReg ..).trans (hc.trans hb)

/-! ### The end of a bundle -/

/-- From `s` to `t`, every core and the number of the issuing context are unchanged. -/
structure CoresKept (s t : State) : Prop where
  cores : t.cores = s.cores
  cur : t.cur = s.cur
  ctx : t.ctx = s.ctx

theorem CoresKept.ar {s t : State} (h : CoresKept s t) : t.ar = s.ar := by
  rw [State.ar, State.cx, State.ctxAt, State.core, h.cores, h.cur, h.ctx]
  rfl

theorem CoresKept.storePA (s : State) (l : List (Nat × Nat)) (pois engine : Bool) : CoresKept s (s.storePA l pois engine) := by
  unfold State.storePA
  split
  · exact ⟨rfl, rfl, rfl⟩
  · split
    · exact ⟨rfl, rfl, rfl⟩
    · exact ⟨rfl, rfl, rfl⟩

theorem CoresKept.modDie {s t : State} (h : CoresKept s t) (d : Nat) (f : Die → Die) : CoresKept s (t.modDie d f) := ⟨h.cores, h.cur, h.ctx⟩

theorem CoresKept.ringPut (s : State) (d r n v : Nat) : CoresKept s (s.ringPut d r n v) := by
  unfold State.ringPut
  extract_lets g base len head bytes
  split
  · exact ⟨rfl, rfl, rfl⟩
  · split
    · exact ⟨rfl, rfl, rfl⟩
    · exact (CoresKept.storePA s bytes false false).modDie d _

/-- A record of the trace ring changes no core. -/
theorem CoresKept.traceRec (s : State) (kind pc cyc w : Nat) : CoresKept s (s.traceRec kind pc cyc w) := by
  unfold State.traceRec
  split
  · exact .ringPut ..
  · exact ⟨rfl, rfl, rfl⟩

/-- The test of the loops that a bundle ends. -/
def State.bodyEnd (s : State) (o : Offer) : LoopEnd := if s.bun.noEnd then {} else s.ar.endTest (s.ar.endsAt o.a)

/-- The end of a context cycle sets the pc to the bundle's target, to the start of a loop that goes on, or to the next word, and counts the
context cycle. -/
theorem State.endBundle_ar (s : State) (o : Offer) :
    (s.endBundle o).ar.pc = (s.bun.target.or (s.bodyEnd o).back).getD (s.fallOf o.a s.bun.words) ∧
    (s.endBundle o).ar.scyc = s.ar.scyc + 1 := by
  unfold State.endBundle
  extract_lets seen b e ctr t u v left w x y z r dup
  have ht : FetchKept 1 s t := (FetchKept.consume s).trans (n := 1) (.modAr rfl)
  have hu : FetchKept 0 t u := .endCycle t
  have hv : FetchKept 0 u v := by
    dsimp only [v]
    split
    · exact .refl u
    · exact .modAr rfl
  have hw : FetchKept 0 v w := .modAr (Arch.scyc_foldl (f := Arch.endLevel) (fun _ _ => rfl) left _)
  have hx : FetchKept 0 w x := .foldl .endOp b.ends w
  have hs : FetchKept 1 s x := (((ht.then hu).then hv).then hw).then hx
  have hz : z.ar = y.ar := by
    dsimp only [z]
    split
    · rfl
    · rfl
  have hr : r.ar = z.ar := by
    dsimp only [r]
    split
    · exact (CoresKept.traceRec ..).ar
    · rfl
  have hend : (State.modCx r fun k => { k with
      offer := (r.core r.cur).cyc + b.cost + b2n dup, nb := k.nb + 1, waited := 0, drainOn := none, drainGo := none,
      bnd := false, chain := false }).ar = y.ar := by
    rw [State.ar, State.cx_modCx, ← hz, ← hr, State.ar]
  rw [hend, State.ar_modAr, ← hs.fallOf, ← hs.scyc]
  exact ⟨rfl, Arch.scyc_applyEnd ..⟩

theorem State.fallOf_word (s : State) (a n : Nat) (hb : (a + 4 * n) / 64 = a / 64) (hw : s.word (a + 4 * n) ≠ 0) :
    s.fallOf a n = a + 4 * n := by
  simp [State.fallOf, State.linkOf, hb, hw]

/-- The word at an address is the first of those from there, or lies behind its packet. -/
theorem State.word_zero (s : State) {b : Nat} (h : ∀ w ∈ s.wordsFrom b, w = 0) : s.word b = 0 := by
  rw [State.word, List.getD_eq_getElem?_getD]
  cases hw : (s.packet (b / 64))[b / 4 % 16]? with
  | none => rfl
  | some w => exact h w (List.mem_of_getElem? (i := 0) (by rw [State.wordsFrom, List.getElem?_drop, Nat.add_zero, hw]))

theorem State.fallOf_next (s : State) (a n : Nat) (h : (a + 4 * n) / 64 ≠ a / 64 ∨ ∀ w ∈ s.wordsFrom (a + 4 * n), w = 0) :
    s.fallOf a n = a / 64 * 64 + 64 := by
  unfold State.fallOf State.linkOf
  extract_lets b
  rcases h with h | h
  · simp [b, h]
  · have hw : s.word b = 0 := s.word_zero h
    have hall : (s.wordsFrom b).any (fun w => w != 0) = false := by simpa [b] using h
    simp [hw, hall]

/-- Settles O28: by `State.endBundle_ar`, with the two cases of `State.fallOf`. -/
theorem bundleEndMovesThePc : Obligations.BundleEndMovesThePc := by
  intro s o e
  obtain ⟨hpc, hcyc⟩ := s.endBundle_ar o
  refine ⟨fun t ht => ?_, fun t ht he => ?_, fun ht he => ⟨fun hb hw => ?_, fun hn => ?_⟩, hcyc⟩
  · rw [hpc, ht]
    rfl
  · rw [hpc, ht, show (s.bodyEnd o).back = some t from he]
    rfl
  · rw [hpc, ht, show (s.bodyEnd o).back = none from he]
    exact s.fallOf_word o.a s.bun.words hb hw
  · rw [hpc, ht, show (s.bodyEnd o).back = none from he]
    exact s.fallOf_next o.a s.bun.words hn

end Sys2Proof.Machine
end

/-! ## Firmware, debugger and errors -/

section
namespace Sys2Proof.Machine

/-! ### The near-memory carve-out (R76) -/

/-- An entry of a table from which entries of other keys are taken out. -/
theorem Tbl.get_filter {α : Type} (d : α) (t : Tbl α) {f : Nat × α → Bool} {k : Nat} (h : ∀ x, x.1 = k → f x = true) :
    Tbl.get d (t.filter f) k = Tbl.get d t k := by
  induction t with
  | nil => rfl
  | cons a t ih =>
    rw [List.filter_cons]
    split
    · rw [Tbl.get_cons, Tbl.get_cons, ih]
    · next ha => rw [ih, Tbl.get_cons, if_neg fun hk => ha (h a hk)]

theorem State.nmcfg_starts {s : State} {d v : Nat} (hv : fld v 4 0 ≤ 16) (ht : ∀ t ∈ (s.die d).tasks, t.2.state ≠ 2 ∧ t.2.state ≠ 3) :
    ((s.nmcfg d v).die d).nmBusy = true ∧ ((s.nmcfg d v).die d).nmNew = fld v 4 0 ∧ ((s.nmcfg d v).die d).units = (s.die d).units := by
  unfold State.nmcfg
  extract_lets u
  have hu : u.die d = { s.die d with nmErr := (s.die d).nmErr && !bit v 30 } := State.die_modDie_self ..
  clear_value u
  have hsize : decide (17 ≤ fld v 4 0) = false := by simpa using Nat.lt_succ_of_le hv
  have hidle : (u.die d).tasks.any (fun t => t.2.state == 2 || t.2.state == 3) = false := by
    rw [hu, List.any_eq_false]
    intro t h
    simp [ht t h]
  rw [hsize, hidle, Bool.or_self, if_neg Bool.false_ne_true, State.die_modDie_self, hu]
  exact ⟨rfl, rfl, rfl⟩

theorem State.carveout_ends {s : State} {d : Nat} (h : (s.die d).nmBusy = true) :
    ((s.carveout d).die d).nmBusy = false ∧ ((s.carveout d).die d).units = (s.die d).nmNew ∧ ((s.carveout d).die d).locks = [] ∧
      (∀ a, ¬(isNear a = true ∧ a % 2 ^ 31 / 2 ^ 28 = d ∧ s.isLocal d a = true) → (s.carveout d).mem.mem.read a = s.mem.mem.read a) := by
  unfold State.carveout
  rw [h]
  extract_lets here u
  have hd : u.die d = { s.die d with nmBusy := false, units := (s.die d).nmNew, locks := [] } := State.die_modDie_self ..
  refine ⟨congrArg Die.nmBusy hd, congrArg Die.units hd, congrArg Die.locks hd, fun a ha => ?_⟩
  have hout : here a = false := by simpa [here, and_assoc] using ha
  exact Tbl.get_filter 0 s.mem.mem fun x hx => by simp [hx, hout]

/-! ### Translation control (R83, R84) -/

theorem State.xlinv_die (s : State) (d scope asid va : Nat) :
    (s.xlinv d scope asid va).die d = { s.die d with xlGo := true, xlScope := scope, xlAsid := asid, xlVa := va } :=
  State.die_modDie_self ..

/-- An entry of a table of which some entries are changed in their places. -/
theorem Tbl.get_mapIf {α : Type} {d : α} {c : Nat → Prop} [DecidablePred c] {f : α → α} (hd : f d = d) (t : Tbl α) (k : Nat) :
    Tbl.get d (t.map fun x => if c x.1 then (x.1, f x.2) else x) k = if c k then f (Tbl.get d t k) else Tbl.get d t k := by
  induction t with
  | nil => exact (ite_eq_right_iff.2 fun _ => hd).symm
  | cons a t ih =>
    rw [List.map_cons, Tbl.get_cons, Tbl.get_cons, ih]
    by_cases ha : a.1 = k
    · subst ha
      by_cases hc : c a.1
      · simp [hc]
      · simp [hc]
    · by_cases hc : c a.1
      · simp [hc, ha]
      · simp [hc, ha]

theorem State.dropXlate_core (s : State) (d scope asid va p : Nat) :
    (s.dropXlate d scope asid va).core p =
      if dieOf p = d then { s.core p with tlb := (s.core p).tlb.filter (fun e => !e.inScope scope asid va) } else s.core p := by
  unfold State.core
  exact Tbl.get_mapIf (d := {}) (c := fun p => dieOf p = d) 
    (f := fun c : PCore => { c with tlb := c.tlb.filter fun e => !e.inScope scope asid va }) rfl s.cores p

theorem State.dropXlate_cluster (s : State) (d scope asid va k : Nat) :
    (s.dropXlate d scope asid va).cluster k =
      if k / 4 = d then { s.cluster k with tlb := (s.cluster k).tlb.filter (fun e => !e.inScope scope asid va) } else s.cluster k := by
  unfold State.cluster
  exact Tbl.get_mapIf (d := {}) (c := fun k => k / 4 = d) 
    (f := fun c : Cluster => { c with tlb := c.tlb.filter fun e => !e.inScope scope asid va }) rfl s.clusters k

theorem State.xlinvEnd_drops {s : State} {d : Nat} (h : (s.die d).xlGo = true) :
    let out (e : TlbEnt) : Prop := e.inScope (s.die d).xlScope (s.die d).xlAsid (s.die d).xlVa = false
    ((s.xlinvEnd d).die d).xlGo = false ∧
      (∀ p, dieOf p = d → ∀ e ∈ ((s.xlinvEnd d).core p).tlb, e ∈ (s.core p).tlb ∧ out e) ∧
      (∀ k, k / 4 = d → ∀ e ∈ ((s.xlinvEnd d).cluster k).tlb, e ∈ (s.cluster k).tlb ∧ out e) := by
  intro out
  have hend : s.xlinvEnd d = (s.dropXlate d (s.die d).xlScope (s.die d).xlAsid (s.die d).xlVa).modDie d
      (fun x => { x with xlGo := false }) := if_pos h
  rw [hend]
  refine ⟨congrArg Die.xlGo (State.die_modDie_self ..), fun p hp e he => ?_, fun k hk e he => ?_⟩
  · have hc := (s.dropXlate_core d (s.die d).xlScope (s.die d).xlAsid (s.die d).xlVa p).trans (if_pos hp)
    obtain ⟨hin, hout⟩ := List.mem_filter.1 (congrArg PCore.tlb hc ▸ he)
    exact ⟨hin, by simpa using hout⟩
  · have hc := (s.dropXlate_cluster d (s.die d).xlScope (s.die d).xlAsid (s.die d).xlVa k).trans (if_pos hk)
    obtain ⟨hin, hout⟩ := List.mem_filter.1 (congrArg Cluster.tlb hc ▸ he)
    exact ⟨hin, by simpa using hout⟩

/-- Every scope of an invalidation covers an entry that it names. -/
theorem TlbEnt.inScope_self (e : TlbEnt) (asid va : Nat) :
    e.inScope 0 asid va = true ∧ e.inScope 1 e.asid va = true ∧ e.inScope 2 e.asid (e.page * 2 ^ 16) = true := by
  simp [TlbEnt.inScope]

/-- A command of a die that has been woken on a fault does not wait on it. -/
theorem wakeCmd_waitx {d n : Nat} {c q : Cmd} (e : wakeCmd d n c = q) (hq : dieOf q.lcore = d) : q.waitx ≠ some n := by
  subst e
  unfold wakeCmd at *
  split at hq
  · next h =>
    rw [if_pos h]
    exact fun hw => nomatch hw
  · next h =>
    rw [if_neg h]
    exact fun hw => h (by simp [hq, hw])

theorem State.xlresume_wakes {s : State} {d n : Nat} (h : s.taken = []) :
    (s.xlresume d n).mem = s.mem ∧ (s.xlresume d n).lcores = s.lcores ∧
      ∀ q ∈ ((s.xlresume d n).die d).fillQ ++ ((s.xlresume d n).die d).collQ ++ ((s.xlresume d n).die d).noteQ,
        dieOf q.lcore = d → q.waitx ≠ some n := by
  unfold State.xlresume
  extract_lets u
  have hu : u.taken = [] := by
    rw [← h]
    simp only [u, State.taken, List.map_map]
    rfl
  rw [hu]
  have hd : u.die d = (wakeDie d n (d, s.die d)).2 := by
    unfold State.die
    exact Tbl.get_map (d := {}) (g := wakeDie d n) (fun _ => rfl) rfl s.dies
  refine ⟨rfl, rfl, fun q hq hl => ?_⟩
  rw [List.foldl_nil, hd] at hq
  simp only [wakeDie, List.mem_append, List.mem_map] at hq
  obtain (⟨c, -, hc⟩ | ⟨c, -, hc⟩) | ⟨c, -, hc⟩ := hq
  · exact wakeCmd_waitx hc hl
  · exact wakeCmd_waitx hc hl
  · exact wakeCmd_waitx hc hl


/-! ### Saving a domain (R337 to R339) -/

theorem LCore.dom_setDom_self (c : LCore) (td : Nat) (d : Dom) : (c.setDom td d).dom td = d := Tbl.get_put_self ..

theorem State.lcore_modCore (s : State) (p l : Nat) (f : PCore → PCore) : (s.modCore p f).lcore l = s.lcore l := rfl

theorem State.core_modLcore (s : State) (p l : Nat) (f : LCore → LCore) : (s.modLcore l f).core p = s.core p := rfl

theorem State.accSave_begins {s : State} {p td : Nat} (h : ((s.lcore (s.blockCore p)).dom td).state = 1) :
    (((s.accSave p td).lcore (s.blockCore p)).dom td).state = 2 ∧ ((s.accSave p td).core p).accsvGo = true ∧
      ((s.accSave p td).core p).accsvTd = td := by
  have e : s.accSave p td = ((s.modCore p (fun c => { c with accsvAct := 1, accsvTd := td })).modLcore (s.blockCore p)
      (fun c => c.setDom td { (s.lcore (s.blockCore p)).dom td with state := 2 })).modCore p (fun c => { c with accsvGo := true }) :=
    if_pos h
  refine ⟨?_, ?_, ?_⟩
  · rw [e, State.lcore_modCore, State.lcore_modLcore_self, LCore.dom_setDom_self]
  · rw [e, State.core_modCore_self]
  · rw [e, State.core_modCore_self, State.core_modLcore, State.core_modCore_self]

theorem State.domSaved_frees {s : State} {p : Nat} (hgo : (s.core p).accsvGo = true) (hact : (s.core p).accsvAct = 1)
    (h : ((s.lcore (s.blockCore p)).dom (s.core p).accsvTd).state = 2) :
    (((s.domSaved p).lcore (s.blockCore p)).dom (s.core p).accsvTd).state = 3 ∧ ((s.domSaved p).core p).accsvGo = false ∧
      ∀ q ∈ ((s.domSaved p).lcore (s.blockCore p)).parts, q.td ≠ (s.core p).accsvTd := by
  unfold State.domSaved
  extract_lets c l d area items u
  have hc : (c.accsvGo && c.accsvAct = 1 && d.state = 2) = true := by simp [c, d, l, hgo, hact, h]
  rw [if_pos hc]
  clear_value u
  refine ⟨?_, ?_, fun q hq => ?_⟩
  · rw [State.lcore_modCore, State.lcore_modLcore_self, LCore.dom_setDom_self]
  · rw [State.core_modCore_self]
  · rw [State.lcore_modCore, State.lcore_modLcore_self] at hq
    simpa using (List.mem_filter.1 hq).2

theorem State.accRestore_refused {s : State} {p td : Nat} (h : ((s.lcore (s.blockCore p)).dom td).state = 1) :
    ((s.accRestore p td).core p).accsvErr = true ∧ (((s.accRestore p td).lcore (s.blockCore p)).dom td).state = 1 := by
  unfold State.accRestore
  extract_lets l d u a n
  have hd : (d.state = 0 || d.state = 3) = false := by simp [d, l, h]
  rw [hd, Bool.false_and, Bool.false_and, Bool.false_and, if_neg Bool.false_ne_true, State.core_modCore_self]
  exact ⟨rfl, h⟩

/-- No byte of memory is a core's. -/
theorem State.readPA_modCore (s : State) (p : Nat) (f : PCore → PCore) (a : Nat) : (s.modCore p f).readPA a = s.readPA a := rfl

theorem State.readPAn_modCore (s : State) (p : Nat) (f : PCore → PCore) (a n : Nat) : (s.modCore p f).readPAn a n = s.readPAn a n := by
  induction n generalizing a with
  | zero => rfl
  | succ n ih => rw [State.readPAn, State.readPAn, State.readPA_modCore, ih]

theorem State.areaDom_modCore (s : State) (p : Nat) (f : PCore → PCore) (a : Nat) : (s.modCore p f).areaDom a = s.areaDom a := by
  simp only [State.areaDom, State.readPAn_modCore]

theorem State.areaClean_modCore (s : State) (p : Nat) (f : PCore → PCore) (a : Nat) : (s.modCore p f).areaClean a = s.areaClean a := by
  simp only [State.areaClean, State.readPAn_modCore, State.areaDom_modCore]

theorem State.accRestore_restores {s : State} {p td a : Nat} (ha : a = (s.core p).accsvAddr / 2 ^ 12 * 2 ^ 12)
    (hd : ((s.lcore (s.blockCore p)).dom td).state = 0 ∨ ((s.lcore (s.blockCore p)).dom td).state = 3) (hn : (s.areaDom a).pend ≤ 48)
    (hc : s.areaClean a = true) (ht : fld (s.readPAn a 8) 5 0 = td) :
    ((s.accRestore p td).lcore (s.blockCore p)).dom td = s.areaDom a := by
  unfold State.accRestore
  extract_lets l d u b n
  have hb : b = a := by
    simp only [b, u, ha, State.core_modCore_self]
  have hdom : u.areaDom b = s.areaDom a := by rw [hb, State.areaDom_modCore]
  have hgo : ((d.state = 0 || d.state = 3) && n ≤ 48 && u.areaClean b && fld (u.readPAn b 8) 5 0 = td) = true := by
    have hn : n ≤ 48 := by
      simp only [n, hdom]
      exact hn
    have hc : u.areaClean b = true := by rw [hb, State.areaClean_modCore, hc]
    have ht : fld (u.readPAn b 8) 5 0 = td := by rw [hb, State.readPAn_modCore, ht]
    simp [hn, hc, ht, d, l, hd]
  rw [if_pos hgo, State.lcore_modLcore_self, LCore.dom_setDom_self, hdom]

/-! ### Stops (R481, R482) -/

/-- A record of the trace, made for another context, changes no context. -/
theorem State.ctxAt_within_traceRec (s : State) (p c kind q r : Nat) (a y w : State → Nat) :
    (s.within p c (fun s => s.traceRec kind (a s) (y s) (w s))).ctxAt q r = s.ctxAt q r := by
  unfold State.ctxAt State.core State.within
  rw [(CoresKept.traceRec ..).cores]

theorem State.stopCtx_ctxAt (s : State) (p c : Nat) : (s.stopCtx p c).ctxAt p c = { s.ctxAt p c with stop := true, stopped := true } := by
  unfold State.stopCtx
  extract_lets was u
  have hu : u.ctxAt p c = { s.ctxAt p c with stop := true, stopped := true } := State.ctxAt_setCtxAt_self ..
  split
  · exact hu
  · exact (State.ctxAt_within_traceRec u p c 4 p c _ _ _).trans hu

theorem State.unstopCtx_ctxAt (s : State) (p c : Nat) :
    (s.unstopCtx p c).ctxAt p c = { s.ctxAt p c with stop := false, stopped := false } := by
  unfold State.unstopCtx
  extract_lets was u
  have hu : u.ctxAt p c = { s.ctxAt p c with stop := false, stopped := false } := State.ctxAt_setCtxAt_self ..
  split
  · exact (State.ctxAt_within_traceRec u p c 5 p c _ _ _).trans hu
  · exact hu

/-! ### Reading state back (R480, R486) -/

theorem State.dbgRead_dbg (s : State) (d : Nat) :
    ((s.dbgRead d).die d).dbg.offset = ((s.die d).dbg.offset + 8) % 2 ^ 40 ∧
    (∀ v, s.peek d = .val v → ((s.dbgRead d).die d).dbg.data = v ∧ ((s.dbgRead d).die d).dbg.err = (s.die d).dbg.err) ∧
    (s.peek d = .undef → ((s.dbgRead d).die d).dbg.err = true) := by
  unfold State.dbgRead
  extract_lets r v u
  have hu : (u.die d).dbg = { (s.die d).dbg with
      data := v, err := (s.die d).dbg.err || r == .undef, offset := ((s.die d).dbg.offset + 8) % 2 ^ 40 } :=
    congrArg Die.dbg (State.die_modDie_self ..)
  refine ⟨congrArg Dbg.offset hu, fun w hw => ⟨?_, ?_⟩, fun hw => ?_⟩
  · exact (congrArg Dbg.data hu).trans (by simp only [v, r, hw])
  · exact (congrArg Dbg.err hu).trans (by simp [r, hw])
  · exact (congrArg Dbg.err hu).trans (by simp [r, hw])

theorem State.setRing_dbg (s : State) (d r v : Nat) :
    Tbl.get 0 ((s.setRing d r v).die d).dbg.rbase r = fld v 51 12 * 2 ^ 12 ∧
    Tbl.get 0 ((s.setRing d r v).die d).dbg.rhead r = 0 ∧ Tbl.get 0 ((s.setRing d r v).die d).dbg.rdrop r = 0 := by
  unfold State.setRing
  rw [State.die_modDie_self]
  exact ⟨Tbl.get_put_self .., Tbl.get_put_self .., Tbl.get_put_self ..⟩


/-! ### Plain reads and writes of registers (R11, R12, R466) -/

theorem State.writeReg_fqBase (s : State) (d v : Nat) :
    s.writeReg d 0x1_0020 v = s.modDie d (fun x => { x with fqBase := fld v 51 13 * 2 ^ 13 }) := rfl

theorem State.writeReg_xlVa (s : State) (d v : Nat) :
    s.writeReg d 0x1_0018 v = s.modDie d (fun x => { x with xlVa := fld v 56 16 * 2 ^ 16 }) := rfl

theorem State.writeReg_ringcfg (s : State) (d v : Nat) : s.writeReg d 0x2_0000 v = s.writeRing d v := rfl

theorem State.readReg_fqBase (s : State) (d : Nat) : s.readReg d 0x1_0020 = (s.die d).fqBase := rfl

theorem State.readReg_xlVa (s : State) (d : Nat) : s.readReg d 0x1_0018 = (s.die d).xlVa := rfl

theorem State.readReg_xlinv (s : State) (d : Nat) :
    s.readReg d 0x1_0010 = b2n (s.die d).xlGo * 2 ^ 63 + (s.die d).xlScope * 2 ^ 61 + (s.die d).xlAsid * 2 ^ 49 := rfl

/-- A host's write of a block that it does not reach is discarded. -/
theorem registerWrite_host_discarded (s : State) {a : Nat} (v : Nat) (hlow : 64 * 32 ≤ a % 2 ^ 24)
    (h : a % 2 ^ 24 < 0x20_0000 ∨ 0x20_0020 ≤ a % 2 ^ 24) : exec (.registerWrite .host a v) s = .next s := by
  have hr : hostReaches (a % 2 ^ 24) = false := by
    simp only [hostReaches, Bool.or_eq_false_iff, Bool.and_eq_false_iff, decide_eq_false_iff_not]
    omega
  have he : (hostReaches (bar0Of a).2 && decide (a < 2 ^ 27)) = false := by rw [bar0Of, hr, Bool.false_and]
  exact congrArg Host.Outcome.next (if_neg (by rw [he]; exact Bool.false_ne_true))

/-- A host's write of a submission block is the write of the die's register. -/
theorem registerWrite_host_submission (s : State) {d o : Nat} (v : Nat) (hd : d < 8) (ho : o < 64 * 32) :
    exec (.registerWrite .host (d * 2 ^ 24 + o) v) s = .next (s.writeReg d o v) := by
  have hb : bar0Of (d * 2 ^ 24 + o) = (d, o) := by
    simp only [bar0Of, Prod.mk.injEq]
    omega
  have hr : hostReaches o = true := by simp [hostReaches, ho]
  have ha : d * 2 ^ 24 + o < 2 ^ 27 := by omega
  have he : (if hostReaches (bar0Of (d * 2 ^ 24 + o)).2 && d * 2 ^ 24 + o < 2 ^ 27
      then s.writeReg (bar0Of (d * 2 ^ 24 + o)).1 (bar0Of (d * 2 ^ 24 + o)).2 v else s) = s.writeReg d o v := by
    rw [hb, if_pos (by rw [Bool.and_eq_true, decide_eq_true_eq]; exact ⟨hr, ha⟩)]
  exact congrArg Host.Outcome.next he

/-! ### Detected errors (R488) -/

/-- A corrected error is counted, and no memory and no core changes. -/
theorem State.memError_corrected (s : State) (code : ErrCode) (space : ErrPlace) (unit addr : Nat) :
    (s.memError code space unit addr true).mem = s.mem ∧ (s.memError code space unit addr true).lcores = s.lcores ∧
      (s.memError code space unit addr true).cores = s.cores := ⟨rfl, rfl, rfl⟩

theorem Bank.isPois_taint (k : Bank) (addr a : Nat) : (k.taint (addr / 16 * 16) 16).isPois a = (addr / 16 == a / 16 || k.isPois a) := by
  have hone : List.range (ceilDiv (addr / 16 * 16 % 16 + 16) 16) = [0] := by
    rw [Nat.mul_mod_left]
    rfl
  rw [Bank.taint, hone, Nat.mul_div_cancel _ (by decide : 0 < 16)]
  exact NatSet.mem_insert ..

/-- An uncorrectable error in accumulator memory is counted and recorded in its die, and taints its granule. -/
theorem State.memError_acc (s : State) {code : ErrCode} (unit addr : Nat) (h : code.code ≠ 7) :
    ((s.memError code .acc unit addr false).lcore unit).acc = ((s.lcore unit).acc).taint (addr / 16 * 16) 16 := by
  unfold State.memError
  extract_lets n
  split
  rw [if_neg Bool.false_ne_true]
  extract_lets u w
  have hw : w.lcore unit = s.lcore unit := by
    dsimp only [w]
    split
    · rfl
    · rfl
  rw [if_neg h, State.poisonAt, State.lcore_modLcore_self, hw]

/-- Settles O57: each event by the lemmas above about the operation that it is. -/
theorem managementEvents : Obligations.ManagementEvents := by
  refine ⟨fun s d v hv ht => ⟨s.nmcfg d v, rfl, State.nmcfg_starts hv ht⟩, fun s d h => ⟨s.carveout d, rfl, State.carveout_ends h⟩,
    fun s d asid va => ?translation, fun s p td => ?domains, fun s p c => ?stops, fun s d => ⟨s.dbgRead d, rfl, s.dbgRead_dbg d⟩,
    fun s d r v => ⟨s.setRing d r v, rfl, s.setRing_dbg d r v⟩, fun s d v => ?registers,
    fun s d => ⟨_, rfl, congrArg Die.hevt (State.die_modDie_self ..)⟩, fun s code space unit addr => ?errors, fun _ _ => rfl⟩
  case translation =>
    refine ⟨⟨s.xlinv d 0 (s.die d).xlAsid (s.die d).xlVa, rfl, ?_⟩, ⟨s.xlinv d 1 asid (s.die d).xlVa, rfl, ?_⟩,
      ⟨s.xlinv d 2 asid va, rfl, ?_⟩, fun h => ⟨s.xlinvEnd d, rfl, State.xlinvEnd_drops h⟩, fun e => e.inScope_self asid va,
      fun n h => ⟨s.xlresume d n, rfl, State.xlresume_wakes h⟩⟩
    · rw [State.xlinv_die]
      exact ⟨rfl, rfl, rfl, rfl⟩
    · rw [State.xlinv_die]
      exact ⟨rfl, rfl, rfl⟩
    · rw [State.xlinv_die]
      exact ⟨rfl, rfl, rfl, rfl⟩
  case domains =>
    exact ⟨fun h => ⟨s.accSave p td, rfl, State.accSave_begins h⟩, fun hg ha h => ⟨s.domSaved p, rfl, State.domSaved_frees hg ha h⟩,
      fun h => ⟨s.accRestore p td, rfl, State.accRestore_refused h⟩,
      fun _ ha hd hn hc ht => ⟨s.accRestore p td, rfl, State.accRestore_restores ha hd hn hc ht⟩⟩
  case stops =>
    refine ⟨⟨s.stopCtx p c, rfl, ?_⟩, ⟨s.unstopCtx p c, rfl, ?_⟩⟩
    · rw [State.stopCtx_ctxAt]
      exact ⟨rfl, rfl, rfl, rfl⟩
    · rw [State.unstopCtx_ctxAt]
      exact ⟨rfl, rfl, rfl⟩
  case registers =>
    refine ⟨⟨s.writeReg d 0x1_0020 v, rfl, ?_⟩, ⟨s.writeReg d 0x2_0000 v, rfl, ?_⟩, rfl, fun a => registerWrite_host_discarded s v,
      fun o => registerWrite_host_submission s v, ?_, ?_, rfl, rfl, ?_⟩
    · rw [State.writeReg_fqBase, State.die_modDie_self]
    · rw [State.writeReg_ringcfg, State.writeRing, State.die_modDie_self]
      exact ⟨by simp [fld], rfl⟩
    · rw [State.readReg_fqBase, State.writeReg_fqBase, State.die_modDie_self]
    · rw [State.readReg_xlVa, State.writeReg_xlVa, State.die_modDie_self]
    · rw [State.readReg_xlinv]
      omega
  case errors =>
    refine ⟨⟨s.memError code space unit addr true, rfl, s.memError_corrected code space unit addr⟩,
      fun h => ⟨s.memError code .acc unit addr false, rfl, ?_⟩⟩
    rw [s.memError_acc unit addr h]
    refine ⟨?_, fun a ha => ?_, rfl⟩
    · rw [Bank.isPois_taint, beq_self_eq_true, Bool.true_or]
    · rw [Bank.isPois_taint, beq_false_of_ne (Ne.symm ha), Bool.false_or]

end Sys2Proof.Machine
end

/-! ## The checks of a scratchpad address -/

section
namespace Sys2Proof.Machine

/-! ### An address in cluster form (R109) -/

/-- The core, within its cluster, that an address names: the accessing core itself (bit 26), or the one in bits 25 to 21. -/
def addrCore (lc ea : Nat) : Nat := if fld ea 26 26 = 1 then coreIn lc else fld ea 25 21

theorem clusterAddr_reserved {ea : Nat} (lc size n : Nat) (h : 2 ^ 27 ≤ ea) : clusterAddr lc size ea n = .error 1 := if_pos h

/-- Below the reserved bits the core is checked, and then the offset. -/
theorem clusterAddr_of_lt {ea : Nat} (lc size n : Nat) (h : ea < 2 ^ 27) :
    clusterAddr lc size ea n =
      if 24 ≤ addrCore lc ea then .error 2
      else if size < fld ea 20 0 + n then .error 3
      else .ok (lc / 24 * 24 + addrCore lc ea, fld ea 20 0) := if_neg (Nat.not_le.mpr h)

theorem clusterAddr_noCore {lc ea : Nat} (size n : Nat) (h : ea < 2 ^ 27) (hc : 24 ≤ addrCore lc ea) :
    clusterAddr lc size ea n = .error 2 := by
  rw [clusterAddr_of_lt lc size n h, if_pos hc]

theorem clusterAddr_beyond {lc size ea n : Nat} (h : ea < 2 ^ 27) (hc : addrCore lc ea < 24) (ho : size < fld ea 20 0 + n) :
    clusterAddr lc size ea n = .error 3 := by
  rw [clusterAddr_of_lt lc size n h, if_neg (Nat.not_le.mpr hc), if_pos ho]

theorem clusterAddr_populated {lc size ea n : Nat} (h : ea < 2 ^ 27) (hc : addrCore lc ea < 24) (ho : fld ea 20 0 + n ≤ size) :
    clusterAddr lc size ea n = .ok (lc / 24 * 24 + addrCore lc ea, fld ea 20 0) := by
  rw [clusterAddr_of_lt lc size n h, if_neg (Nat.not_le.mpr hc), if_neg (Nat.not_lt.mpr ho)]

/-! ### A scalar access: ALIGN after ADDRESS -/

/-- A reason code of R109 is the trap ADDRESS, whatever the alignment. -/
theorem spScalar_address {lc ea n c : Nat} (al : Nat) (h : clusterAddr lc spSize ea n = .error c) :
    spScalar lc ea n al = .error (trapAddress c ea) := by
  rw [spScalar, h]

theorem spScalar_misaligned {lc ea n al : Nat} {r : Nat × Nat} (h : clusterAddr lc spSize ea n = .ok r) (ha : ea % al ≠ 0) :
    spScalar lc ea n al = .error (trapAlign ea) := by
  simp only [spScalar, h, bne_iff_ne, if_pos ha]

theorem spScalar_aligned {lc ea n al : Nat} {r : Nat × Nat} (h : clusterAddr lc spSize ea n = .ok r) (ha : ea % al = 0) :
    spScalar lc ea n al = .ok r := by
  simp only [spScalar, h, bne_iff_ne, if_neg (not_not_intro ha)]

/-- Settles O30: each clause by the outcome of `clusterAddr` under its hypotheses, then by what `spScalar` makes of that outcome. -/
theorem scratchpadAddressChecks : Obligations.ScratchpadAddressChecks := fun l _ n _ =>
  ⟨fun h => spScalar_address n (clusterAddr_reserved l spSize n h),
    fun h hc => spScalar_address n (clusterAddr_noCore spSize n h hc),
    fun h hc ho => spScalar_address n (clusterAddr_beyond h hc ho),
    fun h hc ho ha => spScalar_misaligned (clusterAddr_populated h hc ho) ha,
    fun h hc ho ha => spScalar_aligned (clusterAddr_populated h hc ho) ha⟩

end Sys2Proof.Machine
end

/-! ## Scalar moves and immediates, and landings in state registers -/

section
namespace Sys2Proof.Machine

/-! ### Operations on scalar registers and a memory operand -/

theorem Instr.ne_mmap_of_needsMatrix {i : Instr} (h : i.needsMatrix = false) (x b n : Nat) (w : MmaW) : i ≠ .mmap x b n w := by
  rintro rfl
  exact Bool.noConfusion h

/-- An operation on scalar registers alone whose sources are ready and whose own checks pass has its effect. -/
theorem State.runOp_x {s : State} {i : Instr} (f : State → State) (hx : s.xReady i.xsrcs) (ho : s.chkOp i = .ok)
    (hj : s.chkJump i = .ok := by rfl) (hv : i.vsrcs = [] := by rfl) (hd : i.vdests = [] := by rfl) (hp : i.psrcs = [] := by rfl)
    (ha : i.accesses = false := by rfl) (hm : i.needsMatrix = false := by rfl) : s.runOp i f = .next (f s) :=
  State.runOp_ready f (.of_x hx hv hd ha hm hp) ho hj (Instr.ne_mmap_of_needsMatrix hm)

/-- The same of one that accesses memory, a region or another task, with no acquire pending. -/
theorem State.runOp_mem {s : State} {i : Instr} (f : State → State) (hx : s.xReady i.xsrcs) (hacq : s.acquires = []) (ho : s.chkOp i = .ok)
    (hj : s.chkJump i = .ok := by rfl) (hv : i.vsrcs = [] := by rfl) (hd : i.vdests = [] := by rfl) (hp : i.psrcs = [] := by rfl)
    (hm : i.needsMatrix = false := by rfl) : s.runOp i f = .next (f s) :=
  State.runOp_ready f (.of_mem hx hv hd hacq hm hp) ho hj (Instr.ne_mmap_of_needsMatrix hm)

theorem State.xReady_nil (s : State) : s.xReady [] := fun _ h => absurd h (List.not_mem_nil)

/-! ### The arms of the scalar moves and immediates -/

theorem exec_movs (d n : Nat) (s : State) : exec (.movs d n) s = State.runOp (.movs d n) (fun s => s.outX d 1 (s.readSr n)) s := rfl

theorem exec_movd (a n : Nat) (s : State) : exec (.movd a n) s = State.runOp (.movd a n) (fun s =>
    if n = 0x00D then s.defer (.movd a n) [(s.rx a).toNat] else s.out .sr n 1 (s.rx a).toNat) s := rfl

theorem exec_sete (a k st i : Nat) (s : State) : exec (.sete a k st i) s = State.runOp (.sete a k st i)
    (fun s => s.out .stg (stgNum k st i) 1 (s.rx a).toNat) s := rfl

theorem exec_li (d i : Nat) (w : Option Nat) (s : State) :
    exec (.li d i w) s = State.runOp (.li d i w) (fun s => s.outX d 1 (aluLi i w)) s := rfl

theorem exec_lih (d i : Nat) (s : State) : exec (.lih d i) s = State.runOp (.lih d i) (fun s => s.outX d 1 (aluLih (s.rx d) i)) s := rfl

/-! ### What a landing in a state register writes -/

theorem Arch.landReg_sr (a : Arch) {l : Landing} (h : l.kind = .sr) :
    a.landReg l = a.setSr l.num (srMerge l.num (a.getSr l.num) (BitVec.ofNat 64 l.val)) := by
  unfold Arch.landReg
  rw [h]

theorem max_fld_lt {v hi lo : Nat} (h : hi + 1 - lo = 16) : Nat.max 16 (fld v hi lo) < 2 ^ 16 := by
  have hm : fld v hi lo < 2 ^ 16 := by
    rw [fld, h]
    exact Nat.mod_lt _ (by decide)
  exact Nat.max_lt.2 ⟨by decide, hm⟩

theorem fld_latewin {a b : Nat} (ha : a < 2 ^ 16) (hb : b < 2 ^ 16) : fld (a * 2 ^ 16 + b) 31 16 = a ∧ fld (a * 2 ^ 16 + b) 15 0 = b := by
  simp only [fld]
  omega

theorem srMerge_latewin (o v : Word) :
    (srMerge 0x008 o v).toNat = Nat.max 16 (fld v.toNat 31 16) * 2 ^ 16 + Nat.max 16 (fld v.toNat 15 0) := by
  have e : srMerge 0x008 o v = BitVec.ofNat 64 (Nat.max 16 (fld v.toNat 31 16) * 2 ^ 16 + Nat.max 16 (fld v.toNat 15 0)) := rfl
  have h1 : Nat.max 16 (fld v.toNat 31 16) < 2 ^ 16 := max_fld_lt rfl
  have h0 : Nat.max 16 (fld v.toNat 15 0) < 2 ^ 16 := max_fld_lt rfl
  rw [e, BitVec.toNat_ofNat, Nat.mod_eq_of_lt (by omega)]

theorem srMerge_glat (o v : Word) : (srMerge 0x009 o v).toNat = Nat.min 4096 (Nat.max 16 (v.toNat % 2 ^ 13)) := by
  have e : srMerge 0x009 o v = BitVec.ofNat 64 (Nat.min 4096 (Nat.max 16 (v.toNat % 2 ^ 13))) := rfl
  have h : Nat.min 4096 (Nat.max 16 (v.toNat % 2 ^ 13)) ≤ 4096 := Nat.min_le_left ..
  rw [e, BitVec.toNat_ofNat, Nat.mod_eq_of_lt (by omega)]

theorem srMerge_swzoff (o v : Word) : (srMerge 0x00B o v).toNat = v.toNat % 2 := by
  have e : srMerge 0x00B o v = BitVec.ofNat 64 (v.toNat % 2) := rfl
  rw [e, BitVec.toNat_ofNat, Nat.mod_eq_of_lt (by omega)]

theorem srMerge_tkgapwin (o v : Word) : (srMerge 0x00A o v).toNat = Nat.max 256 (v.toNat % 2 ^ 32) := by
  have e : srMerge 0x00A o v = BitVec.ofNat 64 (Nat.max 256 (v.toNat % 2 ^ 32)) := rfl
  have h : Nat.max 256 (v.toNat % 2 ^ 32) < 2 ^ 32 := Nat.max_lt.2 ⟨by decide, Nat.mod_lt _ (by decide)⟩
  rw [e, BitVec.toNat_ofNat, Nat.mod_eq_of_lt (by omega)]

theorem srMerge_counter {n : Nat} (h : 0x010 ≤ n) (h' : n ≤ 0x017) (o v : Word) : (srMerge n o v).toNat = v.toNat % 2 ^ 16 := by
  have hr : inRange 0x010 0x017 n = true := by simp [inRange, h, h']
  have hlow : n ≠ 0x002 ∧ n ≠ 0x003 ∧ n ≠ 0x004 ∧ n ≠ 0x005 ∧ n ≠ 0x006 ∧ n ≠ 0x007 ∧ n ≠ 0x008 ∧ n ≠ 0x009 ∧ n ≠ 0x00A ∧ n ≠ 0x00B := by
    omega
  simp only [srMerge, hlow, hr, BitVec.toNat_ofNat, decide_false, Bool.or_false, Bool.false_eq_true, if_false, if_true]
  omega

/-- Beyond the map nothing is writable. -/
theorem srMerge_unmapped {n : Nat} (h : 0x040 ≤ n) (o v : Word) : srMerge n o v = o := by
  have hlow : n ≠ 0x002 ∧ n ≠ 0x003 ∧ n ≠ 0x004 ∧ n ≠ 0x005 ∧ n ≠ 0x006 ∧ n ≠ 0x007 ∧ n ≠ 0x008 ∧ n ≠ 0x009 ∧ n ≠ 0x00A ∧ n ≠ 0x00B := by
    omega
  have hr (a b : Nat) (hb : b < 0x040) : inRange a b n = false := by
    simp only [inRange, Bool.and_eq_false_iff, decide_eq_false_iff_not]
    omega
  simp only [srMerge, hlow, hr _ 0x017 (by decide), hr _ 0x01F (by decide), hr _ 0x031 (by decide), hr _ 0x025 (by decide),
    hr _ 0x02B (by decide), decide_false, Bool.or_false, Bool.false_eq_true, if_false, BitVec.ofNat_toNat, BitVec.setWidth_eq]

theorem aluLi_none {i : Nat} (h : i < 2 ^ 16) :
    aluLi i none = BitVec.ofInt 64 (if i < 2 ^ 15 then (i : Int) else (i : Int) - 2 ^ 16) := by
  simp only [aluLi, sextI, Nat.mod_eq_of_lt h]

theorem aluLi_some {i h : Nat} (hi : i < 2 ^ 16) (hh : h < 2 ^ 30) : aluLi i (some h) = BitVec.ofInt 64
    (if h < 2 ^ 29 then ((h * 2 ^ 16 + i : Nat) : Int) else ((h * 2 ^ 16 + i : Nat) : Int) - 2 ^ 46) := by
  have hlt : h * 2 ^ 16 + i < 2 ^ 46 := by omega
  have hsign : h * 2 ^ 16 + i < 2 ^ 45 ↔ h < 2 ^ 29 := by omega
  simp only [aluLi, sextI, Nat.mod_eq_of_lt hi, Nat.mod_eq_of_lt hlt, Nat.add_one_sub_one, hsign]

/-- The 16 immediate bits take the place that the shift leaves. -/
theorem aluLih_eq {i : Nat} (a : Word) (h : i < 2 ^ 16) : aluLih a i = a <<< 16 ||| BitVec.ofNat 64 i := by
  have hor : a.toNat * 2 ^ 16 + i = a.toNat <<< 16 ||| i := by rw [← Nat.shiftLeft_add_eq_or_of_lt h, Nat.shiftLeft_eq]
  apply BitVec.eq_of_toNat_eq
  rw [aluLih, Nat.mod_eq_of_lt h, hor, BitVec.toNat_ofNat, BitVec.toNat_or, BitVec.toNat_shiftLeft, BitVec.toNat_ofNat, Nat.or_mod_two_pow]

/-- Settles O20: each instruction by its arm and `State.runOp_x`, a landing by the `srMerge` lemma of its register. -/
theorem movesAndImmediates : Obligations.MovesAndImmediates := by
  refine ⟨fun s d n => ?movs, fun s a n hx hn => ?movd, fun s a hx => ?engctl, fun s a k st i hx => ?sete, fun a l hk hl => ?landing,
    ⟨rfl, rfl, rfl⟩, fun s d i h hi hh => ⟨?li, ?liw, fun hx => ?lih⟩⟩
  case movs =>
    rw [exec_movs]
    exact State.runOp_x _ s.xReady_nil rfl
  case movd =>
    rw [exec_movd]
    exact (State.runOp_x _ hx rfl).trans (congrArg Host.Outcome.next (if_neg hn))
  case engctl =>
    rw [exec_movd]
    exact State.runOp_x _ hx rfl
  case sete =>
    rw [exec_sete]
    exact State.runOp_x _ hx rfl
  case li =>
    rw [exec_li, ← aluLi_none hi]
    exact State.runOp_x _ s.xReady_nil rfl
  case liw =>
    rw [exec_li, ← aluLi_some hi hh]
    exact State.runOp_x _ s.xReady_nil rfl
  case lih =>
    rw [exec_lih, ← aluLih_eq _ hi]
    exact State.runOp_x _ hx rfl
  case landing =>
    have hv : (BitVec.ofNat 64 l.val).toNat = l.val := by rw [BitVec.toNat_ofNat, Nat.mod_eq_of_lt hl]
    simp only [Arch.landReg_sr a hk, Arch.getSr_setSr_self]
    refine ⟨fun h => ?_, fun h => ?_, fun h => ?_, fun h => ?_, fun h h' => ?_, fun h => srMerge_unmapped h _ _,
      fun n h => Arch.getSr_setSr_ne a _ h, fun n => rfl⟩
    · rw [h, srMerge_latewin, hv]
      have h1 : Nat.max 16 (fld l.val 31 16) < 2 ^ 16 := max_fld_lt rfl
      have h0 : Nat.max 16 (fld l.val 15 0) < 2 ^ 16 := max_fld_lt rfl
      obtain ⟨hhi, hlo⟩ := fld_latewin h1 h0
      exact ⟨hhi, hlo, by omega⟩
    · rw [h, srMerge_glat, hv]
    · rw [h, srMerge_swzoff, hv]
    · rw [h, srMerge_tkgapwin, hv]
    · rw [srMerge_counter h h', hv]
end Sys2Proof.Machine
end

/-! ## A scalar store behind which a later one already stands -/

section
namespace Sys2Proof.Machine

theorem exec_stl (z x a i : Nat) (w : Option MW) (s : State) : exec (.stl z x a i w) s = State.runOp (.stl z x a i w)
    (fun s => s.storeLocal (s.scalarEa a i w) (Machine.sizeOf z) (s.rx x).toNat (kindOf (qualOf w))) s := rfl

/-- A store of byte 0xFF to scratchpad byte 0, by slot 1 of the bundle of context cycle 1. -/
def laterStore : WEnt := ⟨.sp, 0, 0, 1, 0xFF, .weak, 4, 0, 1, 0, 0, 1, true⟩

/-- Slot 0 of the bundle of context cycle 1 issues while `laterStore` stands in the store-withholding buffer. -/
def beforeLaterStore : State := (({} : State).modBun (fun b => { b with checked := true })).modCx (fun k => { k with wbuf := [laterStore] })

/-- STL of x0's low byte to address 0 takes its place in program order, before `laterStore` (R42), whose byte the context goes on seeing. -/
theorem fwdByte_beforeLaterStore : fwdByte .sp 0 0 (beforeLaterStore.storeLocal 0 1 0 .weak).cx.wbuf = some 0xFF := by decide +kernel

/-- Refutes O34: its premises leave the order of the store-withholding buffer open. A store takes its place in program order (R42), so
one that stands there already as an operation of a later slot keeps covering the bytes, and the context does not see the new ones. -/
theorem not_scalarStoreFrame : ¬ Obligations.ScalarStoreFrame := by
  intro h
  have hexec : exec (.stl 0 0 0 0 none) beforeLaterStore = .next (beforeLaterStore.storeLocal 0 1 0 .weak) :=
    (exec_stl 0 0 0 0 none _).trans (State.runOp_checked _ _ _ rfl)
  obtain ⟨-, -, -, -, -, -, hfwd⟩ := h.1 beforeLaterStore _ 0 0 0 0 none 0 0 rfl (by decide +kernel) rfl hexec
  have hnew := hfwd .sp 0 0
  rw [fwdByte_beforeLaterStore] at hnew
  revert hnew
  decide

end Sys2Proof.Machine
end

/-! ## Poison: results that carry it, and the marks of a bank -/

section
namespace Sys2Proof.Machine

/-! ### A poisoned scalar result (R95) -/

theorem Tbl.has_put_self {α : Type} (t : Tbl α) (k : Nat) (v : α) : Tbl.has (Tbl.put t k v) k = true := by
  induction t with
  | nil => simp [Tbl.put, Tbl.has]
  | cons a t ih =>
    simp only [Tbl.put]
    split
    · simp [Tbl.has]
    · split
      · simp [Tbl.has]
      · simp [Tbl.has, ih]

/-- A poisoned landing only marks its register: of the loads that it overtakes the data is discarded. -/
theorem Arch.landReg_poisoned (a : Arch) {l : Landing} {ad : Nat} (hk : l.kind = .x) (hn : l.num ≠ 0) (hp : l.pois = some ad) :
    a.landReg l = { a.overtake l with xpois := Tbl.put a.xpois l.num ad } := by
  unfold Arch.landReg
  rw [hk, hp]
  exact if_neg hn

theorem State.chkX_poisoned {s : State} {n : Nat} (h : s.ar.awaited .x n = none) (hp : Tbl.has s.ar.xpois n = true) :
    s.chkX n = .trap (trapPoison (Tbl.get 0 s.ar.xpois n)) := by
  rw [State.chkX, State.chkAwaited, h, if_pos hp]
  rfl

/-- Settles O25: by what a poisoned and what a clean landing make of the registers, and by the check of a reader. -/
theorem poisonedResult : Obligations.PoisonedResult := by
  refine fun a l ad hk hn => ⟨fun hp => ?_, Arch.getX_landReg_self a l hk hn, fun s hs ha hp => ?_⟩
  · rw [Arch.landReg_poisoned a hk hn hp]
    exact ⟨rfl, Tbl.get_put_self .., Tbl.has_put_self ..⟩
  · subst hs
    exact State.chkX_poisoned ha hp

/-! ### Sets of granules -/

theorem NatSet.mem_iff {s : NatSet} {k : Nat} : NatSet.mem s k = true ↔ k ∈ s := by
  induction s with
  | nil => simp [NatSet.mem]
  | cons a s ih => rw [NatSet.mem, Bool.or_eq_true, beq_iff_eq, ih, List.mem_cons, @eq_comm _ a k]

theorem NatSet.mem_filter (p : Nat → Bool) (s : NatSet) (k : Nat) : NatSet.mem (s.filter p) k = (p k && NatSet.mem s k) := by
  rw [Bool.eq_iff_iff, Bool.and_eq_true, NatSet.mem_iff, NatSet.mem_iff, List.mem_filter, and_comm]

theorem NatSet.mem_foldl_insert {α : Type} (f : α → Nat) (l : List α) (s : NatSet) (k : Nat) :
    NatSet.mem (l.foldl (fun s a => NatSet.insert s (f a)) s) k = (l.any (fun a => f a == k) || NatSet.mem s k) := by
  induction l generalizing s with
  | nil => rfl
  | cons a l ih => rw [List.foldl_cons, ih, NatSet.mem_insert, List.any_cons, Bool.or_left_comm, Bool.or_assoc]

theorem NatSet.sorted_insert {s : NatSet} (h : s.Pairwise (· < ·)) (k : Nat) : (NatSet.insert s k).Pairwise (· < ·) := by
  induction s with
  | nil => simp [NatSet.insert]
  | cons a s ih =>
    obtain ⟨ha, hs⟩ := List.pairwise_cons.1 h
    rw [NatSet.insert]
    split
    · next hk => exact List.pairwise_cons.2 ⟨List.forall_mem_cons.2 ⟨hk, fun b hb => hk.trans (ha b hb)⟩, h⟩
    · split
      · exact h
      · next hk hne =>
        refine List.pairwise_cons.2 ⟨fun b hb => ?_, ih hs⟩
        rw [← NatSet.mem_iff, NatSet.mem_insert, Bool.or_eq_true, beq_iff_eq, NatSet.mem_iff] at hb
        rcases hb with rfl | hb
        · omega
        · exact ha b hb

theorem NatSet.erase_sublist (s : NatSet) (k : Nat) : (NatSet.erase s k).Sublist s := by
  induction s with
  | nil => exact .slnil
  | cons a s ih =>
    rw [NatSet.erase]
    split
    · exact List.sublist_cons_self ..
    · exact ih.cons_cons a

/-- In a set in rising order an element stands once, so that it is gone when it is removed. -/
theorem NatSet.mem_erase {s : NatSet} (h : s.Pairwise (· < ·)) (k j : Nat) : NatSet.mem (NatSet.erase s k) j = (!(k == j) && NatSet.mem s j) := by
  induction s with
  | nil => simp [NatSet.erase, NatSet.mem]
  | cons a s ih =>
    obtain ⟨ha, hs⟩ := List.pairwise_cons.1 h
    rw [NatSet.erase, NatSet.mem]
    split
    · next hk =>
      subst hk
      by_cases hj : a = j
      · subst hj
        have hnot : ¬ a ∈ s := fun hm => Nat.lt_irrefl _ (ha a hm)
        rw [← NatSet.mem_iff, Bool.not_eq_true] at hnot
        rw [hnot, beq_self_eq_true, Bool.not_true, Bool.false_and]
      · rw [beq_false_of_ne hj, Bool.false_or, Bool.not_false, Bool.true_and]
    · next hk =>
      rw [NatSet.mem, ih hs]
      by_cases hj : a = j
      · subst hj
        rw [beq_self_eq_true, Bool.true_or, Bool.true_or, beq_false_of_ne (Ne.symm hk)]
        rfl
      · rw [beq_false_of_ne hj, Bool.false_or, Bool.false_or]

theorem NatSet.sorted_foldl {α : Type} {f : NatSet → α → NatSet} (hf : ∀ s a, s.Pairwise (· < ·) → (f s a).Pairwise (· < ·)) (l : List α)
    {s : NatSet} (h : s.Pairwise (· < ·)) : (l.foldl f s).Pairwise (· < ·) := by
  induction l generalizing s with
  | nil => exact h
  | cons a l ih => exact ih (hf s a h)

theorem NatSet.mem_foldl_erase {α : Type} (f : α → Nat) (l : List α) {s : NatSet} (h : s.Pairwise (· < ·)) (k : Nat) :
    NatSet.mem (l.foldl (fun s a => NatSet.erase s (f a)) s) k = (!l.any (fun a => f a == k) && NatSet.mem s k) := by
  induction l generalizing s with
  | nil => rfl
  | cons a l ih =>
    rw [List.foldl_cons, ih (h.sublist (NatSet.erase_sublist ..)), NatSet.mem_erase h, List.any_cons, Bool.not_or, Bool.and_left_comm, Bool.and_assoc]

/-! ### The marks of a bank (R90, R91, R116) -/

theorem Bank.mem_storePois_pois (k : Bank) (l : List (Nat × Nat)) (g : Nat) :
    NatSet.mem (k.storePois l).pois g = (l.any (fun t => t.1 / 16 == g) || NatSet.mem k.pois g) :=
  NatSet.mem_foldl_insert (fun t : Nat × Nat => t.1 / 16) l k.pois g

theorem Bank.mem_store_pois (k : Bank) (l : List (Nat × Nat)) (g : Nat) :
    NatSet.mem (k.store l).pois g = (!covers l g && NatSet.mem k.pois g) := NatSet.mem_filter ..

theorem Bank.mem_fill_empty {k : Bank} (h : k.empty.Pairwise (· < ·)) (l : List Nat) (g : Nat) :
    NatSet.mem (k.fill l).empty g = (!l.any (fun a => a / 16 == g) && NatSet.mem k.empty g) :=
  NatSet.mem_foldl_erase (fun a => a / 16) l h g

theorem Bank.mem_drain_empty (k : Bank) (l : List Nat) (g : Nat) :
    NatSet.mem (k.drain l).empty g = (l.any (fun a => a / 16 == g) || NatSet.mem k.empty g) :=
  NatSet.mem_foldl_insert (fun a => a / 16) l k.empty g

/-- Banks that agree on the granules of the addresses have them full alike. -/
theorem Bank.full_congr {k b : Bank} {m : List Nat} (h : ∀ a ∈ m, NatSet.mem b.empty (a / 16) = NatSet.mem k.empty (a / 16)) :
    b.full m = k.full m := by
  rw [Bank.full, Bank.full, Bool.eq_iff_iff, List.all_eq_true, List.all_eq_true]
  exact forall₂_congr fun a ha => by rw [h a ha]

theorem Bank.full_fill {k : Bank} (h : k.empty.Pairwise (· < ·)) (l : List Nat) : (k.fill l).full l = true := by
  refine List.all_eq_true.2 fun a ha => ?_
  have hany : l.any (fun b => b / 16 == a / 16) = true := List.any_eq_true.2 ⟨a, ha, beq_self_eq_true _⟩
  rw [Bank.mem_fill_empty h, hany]
  rfl

theorem Bank.full_drain (k : Bank) {l : List Nat} (h : l ≠ []) : (k.drain l).full l = false := by
  obtain ⟨a, ha⟩ := List.exists_mem_of_ne_nil l h
  refine List.all_eq_false.2 ⟨a, ha, ?_⟩
  have hany : l.any (fun b => b / 16 == a / 16) = true := List.any_eq_true.2 ⟨a, ha, beq_self_eq_true _⟩
  rw [Bank.mem_drain_empty, hany]
  exact Bool.false_ne_true

/-- Settles O37: each clause by what the operation makes of the set of poisoned or of empty granules. -/
theorem granuleState : Obligations.GranuleState := by
  refine ⟨fun k l g => ⟨fun ⟨t, ht, hg⟩ => ?_, fun h => ?_, fun h => ?_, fun h => ?_, rfl, rfl⟩, fun k l m h =>
    ⟨NatSet.sorted_foldl (fun s a hs => hs.sublist (NatSet.erase_sublist ..)) l h, NatSet.sorted_foldl (fun s a hs => NatSet.sorted_insert hs _) l h,
      List.all_eq_true.2 fun _ _ => rfl, Bank.full_fill h l, Bank.full_drain k, fun hlm => ?_, rfl, rfl, rfl, rfl⟩⟩
  · have hany : l.any (fun t => t.1 / 16 == g) = true := List.any_eq_true.2 ⟨t, ht, beq_iff_eq.2 hg⟩
    rw [Bank.mem_storePois_pois, hany, Bool.true_or]
  · have hany : l.any (fun t => t.1 / 16 == g) = false := List.any_eq_false.2 fun t ht => by simpa using h t ht
    rw [Bank.mem_storePois_pois, hany, Bool.false_or]
  · rw [Bank.mem_store_pois, h, Bool.not_true, Bool.false_and]
  · rw [Bank.mem_store_pois, h, Bool.not_false, Bool.true_and]
  · have hany (b : Nat) (hb : b ∈ m) : l.any (fun a => a / 16 == b / 16) = false := List.any_eq_false.2 fun a ha => by simpa using hlm a ha b hb
    exact ⟨Bank.full_congr fun b hb => by rw [Bank.mem_fill_empty h, hany b hb, Bool.not_false, Bool.true_and],
      Bank.full_congr fun b hb => by rw [Bank.mem_drain_empty, hany b hb, Bool.false_or]⟩

end Sys2Proof.Machine
end

/-! ## The state after reset -/

section
namespace Sys2Proof.Machine

theorem State.readPA_reset (pa : Nat) : State.reset.readPA pa = 0 := by
  have hmem : State.reset.memByte pa = 0 := by
    have hgen : State.reset.genOf pa = 0 := by
      rw [State.genOf]
      split
      · rfl
      · exact ite_self 0
    rw [State.memByte, State.blank, if_pos hgen]
    exact (by decide : (0 : Byte) ^^^ 0 = 0)
  rw [State.readPA]
  split
  · rfl
  · exact hmem

theorem State.region_reset_st (pa : Nat) : (State.reset.region pa).st = 0 := by
  change fld 0 19 18 = 0
  decide

theorem srReset_other {n : Nat} (h5 : n ≠ 0x005) (h8 : n ≠ 0x008) (h9 : n ≠ 0x009) (hA : n ≠ 0x00A) : srReset n = 0 := by
  unfold srReset
  split
  · exact absurd rfl h5
  · exact absurd rfl h8
  · exact absurd rfl h9
  · exact absurd rfl hA
  · rfl

theorem el_ofBytes (l : List Nat) (j : Nat) : el 8 (ofBytes l) j = l.getD j 0 % 256 := by
  induction l generalizing j with
  | nil => simp [ofBytes, el]
  | cons b l ih =>
    cases j with
    | zero =>
      simp only [ofBytes, el, List.getD_cons_zero]
      omega
    | succ j =>
      have hpow : 2 ^ (8 * (j + 1)) = 256 * 2 ^ (8 * j) := by rw [Nat.mul_succ, Nat.pow_add, Nat.mul_comm]
      have hdiv : (b % 256 + 256 * ofBytes l) / 256 = ofBytes l := by omega
      rw [List.getD_cons_succ, ← ih j, ofBytes, el, hpow, ← Nat.div_div_eq_div_mul, hdiv, el]

theorem el_latchReset {j : Nat} (h : j < 256) : el 8 latchReset j = 0x7F := by
  rw [latchReset, el_ofBytes, List.getD_replicate _ h]

/-- Settles O60: every field by evaluation, an unlisted byte and state register by the lemmas above. -/
theorem resetState : Obligations.ResetState := by
  refine ⟨rfl, rfl, fun pa => by rw [State.readPA_reset]; rfl, rfl, rfl, fun _ _ => rfl, fun _ => rfl, rfl, fun _ => ⟨rfl, rfl⟩, fun pa => State.region_reset_st pa, fun p c a ha => ?_⟩
  have hreset : a = {} := by
    rcases List.mem_cons.1 ha with h | h
    · exact h
    · exact List.mem_singleton.1 h
  subst hreset
  refine ⟨fun r => ite_self 0, fun r hr => if_neg hr, rfl, fun _ => rfl, rfl, rfl, rfl, rfl, fun n => srReset_other, fun _ => rfl, fun i j => el_latchReset,
    rfl, rfl, rfl, rfl, rfl, rfl⟩

end Sys2Proof.Machine
end

/-! ## The checks of a global access -/

section
namespace Sys2Proof.Machine

/-! ### The order of the checks (R95) -/

theorem State.globalAddr_reserved (s : State) {ea : Nat} (n : Nat) (wr : Bool) (h : 2 ^ 57 ≤ ea) :
    s.globalAddr ea n wr = .error (trapTranslation 1 ea) := if_pos h

theorem State.globalAddr_misaligned (s : State) {ea n : Nat} (wr : Bool) (h : ea < 2 ^ 57) (ha : ea % n ≠ 0) :
    s.globalAddr ea n wr = .error (trapAlign ea) := by
  rw [State.globalAddr, if_neg (Nat.not_le.2 h), if_pos (bne_iff_ne.2 ha)]

theorem State.globalAddr_aligned (s : State) {ea n : Nat} (wr : Bool) (h : ea < 2 ^ 57) (ha : ea % n = 0) :
    s.globalAddr ea n wr = s.plainPA ea wr := by
  rw [State.globalAddr, if_neg (Nat.not_le.2 h), if_neg (by simp [ha])]

theorem State.plainPA_untranslated {s : State} {va c : Nat} {wr : Bool} (h : s.xlate (.core s.cur) s.asid va wr = .error c) :
    s.plainPA va wr = .error (trapTranslation c va) := by
  rw [State.plainPA, State.xl, h]

theorem State.plainPA_refused {s : State} {va c : Nat} {wr : Bool} {ph : Phys} (h : s.xlate (.core s.cur) s.asid va wr = .ok ph)
    (hr : s.regionCheck (dieOf s.lc) ph s.tid s.asid .plain wr = some c) : s.plainPA va wr = .error (trapRegion c va) := by
  simp only [State.plainPA, State.xl, h, hr]

theorem State.plainPA_ok {s : State} {va : Nat} {wr : Bool} {ph : Phys} (h : s.xlate (.core s.cur) s.asid va wr = .ok ph)
    (hr : s.regionCheck (dieOf s.lc) ph s.tid s.asid .plain wr = none) : s.plainPA va wr = .ok ph := by
  simp only [State.plainPA, State.xl, h, hr]

/-! ### The region check of a plain access (R86) -/

/-- The rule of a region's state for a plain access of a task on die `d` (R86). -/
def State.plainRule (s : State) (d task : Nat) (r : RegEnt) (wr : Bool) : Option Nat :=
  match r.st with
  | 0 => if r.owner = task then none else some 1
  | 1 => if wr then some 2 else none
  | 2 => some 3
  | _ => if r.owner ≠ task then some 1 else if r.tokdie = d % 8 ∧ r.tokpkg = (s.die d).pkg then none else some 5

section
variable {s : State} {ph : Phys} {task : Nat} (d asid : Nat) (wr : Bool)

theorem State.regionCheck_accWin (h : isAccWin ph.pa = true) : s.regionCheck d ph task asid .plain wr = none := if_pos h

theorem State.regionCheck_hdm (hw : isAccWin ph.pa = false) (hh : s.inHdm ph.pa = true) (ho : ph.reg.owner ≠ task) :
    s.regionCheck d ph task asid .plain wr = some 1 := by
  rw [State.regionCheck, hw, hh, if_neg Bool.false_ne_true, if_pos (by simpa using ho)]

/-- Outside the firmware's carve-out the ASID is compared, and then the state's own rule decides. -/
theorem State.regionCheck_outside (hw : isAccWin ph.pa = false) (hh : s.inHdm ph.pa = false ∨ ph.reg.owner = task) :
    s.regionCheck d ph task asid .plain wr =
      if ph.reg.asid ≠ asid then some 6
      else s.plainRule d task ph.reg wr := by
  have hno : (s.inHdm ph.pa && ph.reg.owner != task) = false := by
    rcases hh with hh | hh
    · rw [hh, Bool.false_and]
    · rw [hh, bne_self_eq_false, Bool.and_false]
  simp only [State.regionCheck, hw, hno, Bool.false_eq_true, if_false, bne_iff_ne, Bool.and_eq_true, decide_eq_true_eq,
    State.plainRule] <;> rfl

end

/-! ### Regions that TLB entries hold (R81, R87) -/

theorem State.xlate_region {s : State} {x : Xl} {asid va : Nat} {wr : Bool} {ph : Phys} (h : s.tlbHit x asid va = none)
    (hx : s.xlate x asid va wr = .ok ph) : ph.reg = s.region ph.pa := by
  unfold State.xlate at hx
  split at hx
  · cases hx
  · dsimp only at hx
    split at hx
    · cases hx
    · split at hx
      · cases hx
      · rw [h] at hx
        cases hx
        rfl

/-- An entry found among those that have forgotten a region holds no state of it. -/
theorem TlbEnt.reg_of_find_forget {l : List TlbEnt} {k : Nat} {p : TlbEnt → Bool} {e : TlbEnt} (h : (l.map (TlbEnt.forget k)).find? p = some e)
    (hk : e.pa / 2 ^ 21 = k) : e.reg = none := by
  obtain ⟨f, -, rfl⟩ := List.mem_map.1 (List.mem_of_find?_eq_some h)
  have hpa : (TlbEnt.forget k f).pa = f.pa := by
    rw [TlbEnt.forget]
    split
    · rfl
    · rfl
  rw [hpa] at hk
  rw [TlbEnt.forget, if_pos hk]

theorem State.core_setRegion (s : State) (pa : Nat) (r : RegEnt) (p : Nat) :
    ((s.setRegion pa r).core p).tlb = (s.core p).tlb.map (TlbEnt.forget (pa / 2 ^ 21)) :=
  congrArg PCore.tlb (Tbl.get_map (g := fun p : Nat × PCore => (p.1, { p.2 with tlb := p.2.tlb.map (TlbEnt.forget (pa / 2 ^ 21)) }))
    (fun _ => rfl) rfl s.cores)

theorem State.cluster_setRegion (s : State) (pa : Nat) (r : RegEnt) (k : Nat) :
    ((s.setRegion pa r).cluster k).tlb = (s.cluster k).tlb.map (TlbEnt.forget (pa / 2 ^ 21)) :=
  congrArg Cluster.tlb (Tbl.get_map (g := fun c : Nat × Cluster => (c.1, { c.2 with tlb := c.2.tlb.map (TlbEnt.forget (pa / 2 ^ 21)) }))
    (fun _ => rfl) rfl s.clusters)

theorem State.tlbHit_setRegion {s : State} {pa p asid va : Nat} {r : RegEnt} {e : TlbEnt} (h : (s.setRegion pa r).tlbHit (.core p) asid va = some e)
    (he : e.pa / 2 ^ 21 = pa / 2 ^ 21) : e.reg = none := by
  rw [State.tlbHit, State.core_setRegion, State.cluster_setRegion, Option.or_eq_some_iff] at h
  rcases h with h | ⟨-, h⟩
  · exact TlbEnt.reg_of_find_forget h he
  · exact TlbEnt.reg_of_find_forget h he

/-- Settles O31: the order of the checks by the outcome of each, the region table by `State.regionCheck_outside` under each clause's state. -/
theorem globalAddressChecks : Obligations.GlobalAddressChecks := by
  refine ⟨fun s ea n wr _ => ⟨s.globalAddr_reserved n wr, s.globalAddr_misaligned wr, fun c h ha hx => ?_, fun ph c h ha hx hr => ?_,
      fun ph h ha hx hr => ?_⟩, fun s d task asid ph wr => ?regions, fun s x asid va wr ph => State.xlate_region,
    fun s pa r p asid va e => State.tlbHit_setRegion⟩
  · rw [s.globalAddr_aligned wr h ha, State.plainPA_untranslated hx]
  · rw [s.globalAddr_aligned wr h ha, State.plainPA_refused hx hr]
  · rw [s.globalAddr_aligned wr h ha, State.plainPA_ok hx hr]
  case regions =>
    refine ⟨State.regionCheck_accWin d asid wr, State.regionCheck_hdm d asid wr, fun hw hh ha => ?_, fun hw hh ha hst => ?_, fun hw hh ha hst => ?_,
      fun hw hh ha hst => ?_, fun hw hh ha hst => ?_⟩
    · rw [State.regionCheck_outside d asid wr hw hh, if_pos ha]
    all_goals
      rw [State.regionCheck_outside d asid wr hw hh, if_neg (not_not_intro ha)]
      simp only [State.plainRule, hst]

end Sys2Proof.Machine
end

/-! ## Scalar loads, stores and barrier operations -/

section
namespace Sys2Proof.Machine

/-! ### Where they complete (R93, R117, R124 to R133) -/

theorem exec_ldg (z d a i : Nat) (w : Option MW) (s : State) :
    exec (.ldg z d a i w) s = State.runOp (.ldg z d a i w) (fun s => s.loadGlobal z d (s.scalarEa a i w)) s := rfl

theorem exec_stg (z x a i : Nat) (w : Option MW) (s : State) : exec (.stg z x a i w) s = State.runOp (.stg z x a i w)
    (fun s => s.storeGlobal (s.scalarEa a i w) (Machine.sizeOf z) (s.rx x).toNat) s := rfl

theorem exec_ldl (z d a i : Nat) (w : Option MW) (s : State) : exec (.ldl z d a i w) s = State.runOp (.ldl z d a i w)
    (fun s => s.loadLocal (.ldl z d a i w) z d (qualOf w) (s.scalarEa a i w)) s := rfl

theorem exec_barinit (x a : Nat) (s : State) : exec (.barinit x a) s = State.runOp (.barinit x a)
    (fun s => s.storeLocal (s.effAddr (s.rx a).toNat) 8 (barInitWord (s.rx x).toNat) .barinit) s := rfl

theorem exec_bararr (d a n : Nat) (s : State) : exec (.bararr d a n) s = State.runOp (.bararr d a n)
    (fun s => s.defer (.bararr d a n) [s.effAddr (s.rx a).toNat]) s := rfl

theorem exec_barwait (d a p : Nat) (s : State) : exec (.barwait d a p) s = State.runOp (.barwait d a p)
    (fun s => s.outX d 1 (BitVec.ofNat 64 (s.barWord (s.effAddr (s.rx a).toNat)))) s := rfl

theorem State.chkRoom_ok {s : State} (h : s.loadReady) : s.chkRoom = .ok := by
  have hlen : decide (32 ≤ s.ar.loads.length) = false := decide_eq_false (Nat.not_le.2 h.2)
  rw [State.chkRoom, hlen, Chk.when_false]

theorem State.chkQual_ok {s : State} {q : Nat} (h : s.loadReady) (hq : q = 0 ∨ s.strongHeld = false) : s.chkQual q = .ok := by
  have hs : (q != 0 && s.strongHeld) = false := by
    rcases hq with rfl | hq
    · rfl
    · rw [hq, Bool.and_false]
  rw [State.chkQual, hs, Chk.when_false, Chk.ok_andThen, State.chkRoom_ok h]

theorem State.chkAccRead_ok {s : State} {u o n : Nat} (ha : addTouches s.cx.wbuf .acc u o n = false) (hm : s.matMeet u o n ≠ .wait) :
    s.chkAccRead u o n = .ok := by
  rw [State.chkAccRead, ha, beq_false_of_ne hm]
  rfl

theorem State.chkSp_ok {s : State} {ea n : Nat} {r : Nat × Nat} (c : Chk) (h : spScalar s.lc ea n n = .ok r) : s.chkSp ea n c = c := by
  rw [State.chkSp, h, Chk.ofRes_ok]

theorem State.chkLdg_ok {s : State} {ea n : Nat} {ph : Phys} (h : s.loadReady) (hg : s.globalAddr ea n false = .ok ph)
    (hacc : ∀ u o, s.isLocal (dieOf s.lc) ph.pa = true → s.home ph.pa = .acc u o →
      addTouches s.cx.wbuf .acc u o n = false ∧ s.matMeet u o n ≠ .wait) : s.chkLdg ea n = .ok := by
  rw [State.chkLdg, hg, Chk.ofRes_ok, State.chkRoom_ok h]
  split
  · next u o hl hh =>
    obtain ⟨ha, hm⟩ := hacc u o hl hh
    rw [State.chkAccRead_ok ha hm]
    rfl
  · rfl

theorem State.chkStg_ok {s : State} {ea n : Nat} {ph : Phys} (hg : s.globalAddr ea n true = .ok ph) : s.chkStg ea n = .ok := by
  rw [State.chkStg, hg, Chk.ofRes_ok]

/-- A value that BARINIT refuses (R131): reserved fields set, or neither arrivals nor bytes expected. -/
theorem State.chkBarinit_eq {s : State} {ea v : Nat} {r : Nat × Nat} (h : spScalar s.lc ea 8 8 = .ok r) : s.chkBarinit ea v =
    if fld v 31 10 = 0 ∧ fld v 63 53 = 0 ∧ ¬ (fld v 9 0 = 0 ∧ fld v 52 32 = 0) then .ok
    else .trap { cause := 14, d0 := 2, d1 := ea, d2 := v } := by
  rw [State.chkBarinit, State.chkSp_ok _ h, Chk.when, ← ite_not]
  simp only [Bool.or_eq_true, Bool.and_eq_true, bne_iff_ne, beq_iff_eq]
  exact if_congr (by tauto) rfl rfl

theorem State.chkBarwait_ok {s : State} {ea p : Nat} {r : Nat × Nat} (h : spScalar s.lc ea 8 8 = .ok r) (hs : s.strongHeld = false)
    (hp : fld (s.barWord ea) 63 63 ≠ p) : s.chkBarwait ea p = .ok := by
  rw [State.chkBarwait, State.chkSp_ok _ h, hs]
  exact if_pos (bne_iff_ne.2 hp)

/-- The buffer's entries of a store that passes the checks of its address. -/
theorem State.storeLocal_ok {s : State} {ea n u o : Nat} (v : Nat) (k : WKind) (h : spScalar s.lc ea n n = .ok (u, o)) :
    s.storeLocal ea n v k = s.withhold (s.ar.scyc + 1) (lineEntries .sp u k 4 s.bun.pc s.slot o n (ones n) v) := by
  rw [State.storeLocal, h, State.cyc]

/-- An operation whose own check refuses it takes that trap, in its slot. -/
theorem State.runOp_trap {s : State} {i : Instr} (f : State → State) {t : Trap} (hc : s.bun.checked = false) (hr : s.ReadyFor i)
    (ho : s.chkOp i = .trap t) (hm : i.needsMatrix = false) : s.runOp i f = .next (s.stopOp i { t with slot := s.slot }) := by
  have hready : s.chkReads i = .ok := State.chkReads_ok hr.x hr.v hr.p hr.d
  have hacq : (if i.accesses then s.chkAcquired else .ok) = Chk.ok := by
    split
    · next e => simp [State.chkAcquired, hr.acq e]
    · rfl
  have hop : s.opCheck i = .trap { t with slot := s.slot } := by
    rw [State.opCheck]
    · simp only [hm, Bool.false_and, hacq, hready, ho, Chk.ok_andThen, Bool.false_eq_true, if_false]
      rfl
    · exact Instr.ne_mmap_of_needsMatrix hm
  simp only [State.runOp, hc, hop, Bool.false_eq_true, if_false]

theorem State.stopOp_barinit (s : State) (x a : Nat) (t : Trap) : s.stopOp (.barinit x a) t = s.takeTrap t := rfl

/-- A consuming load is left to its bundle's commit (R399). -/
theorem State.loadLocal_consuming {s : State} {i : Instr} {z d ea : Nat} {r : Nat × Nat} {q : Nat}
    (h : spScalar s.lc ea (Machine.sizeOf z) (Machine.sizeOf z) = .ok r) (hq : q = 2) : s.loadLocal i z d q ea = s.defer i [ea] := by
  rw [State.loadLocal, h]
  exact if_pos hq

/-- Settles O33: every form by its checks, one lemma for each, and `State.runOp_mem`. -/
theorem scalarMemoryCompletes : Obligations.ScalarMemoryCompletes := by
  refine ⟨fun s z d a i w ph hx hl hg hacc => ?_, fun s z x a i w ph hx ha hg => ?_, fun s z d a i w u o hx hl hq h => ?_, fun s z x a i w u o hx ha h => ?_,
    fun s x a u o hx ha h => ?barinit, fun s d a n u o hx hl h => ?_, fun s d a p u o hx ha hs h hp => ?_⟩
  · rw [exec_ldg]
    exact State.runOp_mem _ hx hl.1 (State.chkLdg_ok hl hg hacc)
  · rw [exec_stg]
    exact State.runOp_mem _ hx ha (State.chkStg_ok hg)
  · have hexec : exec (.ldl z d a i w) s = .next (s.loadLocal (.ldl z d a i w) z d (qualOf w) (s.scalarEa a i w)) := by
      rw [exec_ldl]
      exact State.runOp_mem _ hx hl.1 ((State.chkSp_ok _ h).trans (State.chkQual_ok hl hq))
    refine ⟨hexec, fun hq2 => ?_⟩
    rw [hexec, State.loadLocal_consuming h hq2]
  · rw [exec_stl, ← kindOf, ← State.storeLocal_ok _ _ h]
    exact State.runOp_mem _ hx ha (State.chkSp_ok _ h)
  case barinit =>
    rw [exec_barinit]
    refine ⟨fun hv => ?_, fun hv hc => ?_⟩
    · rw [← State.storeLocal_ok _ _ h]
      exact State.runOp_mem _ hx ha ((State.chkBarinit_eq h).trans (if_pos hv))
    · rw [State.runOp_trap (i := .barinit x a) _ hc (.of_mem hx rfl rfl ha rfl) ((State.chkBarinit_eq h).trans (if_neg hv)) rfl, State.stopOp_barinit]
  · rw [exec_bararr]
    exact State.runOp_mem _ hx hl.1 ((State.chkSp_ok _ h).trans (State.chkRoom_ok hl))
  · rw [exec_barwait]
    exact State.runOp_mem _ hx ha (State.chkBarwait_ok h hs hp)

end Sys2Proof.Machine
end

/-! ## What a scalar load returns -/

section
namespace Sys2Proof.Machine

/-- The result in flight that a load of the issuing operation becomes when its data is on time. -/
def LoadRes.landing (r : LoadRes) (s : State) : Landing := ⟨s.cyc + r.lat, s.cyc, s.slot, s.bun.pc, r.kind, r.num, r.val, r.pois⟩

/-- A load of a plain register is a result in flight where no lag is due. -/
theorem State.load_onTime {s : State} {r : LoadRes} (h : s.late = []) (hk : r.kind ≠ .v) :
    s.load r = (s.modAr (fun a => { a with inflight := insertLanding (r.landing s) a.inflight })).bump := by
  have hpop : s.popLate = (0, s) := by rw [State.popLate, h]
  have hadd : (fun a : Arch => a.addLoad r s.fresh s.cyc s.slot s.bun.pc 0 false) =
      fun a => { a with inflight := insertLanding (r.landing s) a.inflight } := by
    funext a
    rw [Arch.addLoad, if_neg hk]
    rfl
  rw [State.load, hpop]
  exact congrArg (fun f => (s.modAr f).bump) hadd

theorem State.ar_bump (s : State) : s.bump.ar = s.ar := rfl

theorem State.isLocal_of_atOnce {s : State} {d pa task num : Nat} (h : s.atOnce d pa task num = true) : s.isLocal d pa = true := by
  simp only [State.atOnce, State.spanAtOnce, State.linked, Bool.and_eq_true] at h
  exact h.1.1.1.1

/-- The bytes of clean memory of this package, under the context's withheld ones. -/
theorem State.globBytes_mem {s : State} {pa k : Nat} (n : Nat) (hl : s.isLocal (dieOf s.lc) pa = true) (hh : s.home pa = .mem k)
    (hp : s.poisPA pa = false) : s.globBytes pa n = (overlay s.cx.wbuf .glob 0 pa n (s.readPAn pa n), false) := by
  simp only [State.globBytes, hl, hh, hp]
  rfl

/-- No byte of memory is the bundle's. -/
theorem State.readPAn_modBun (s : State) (f : Bun → Bun) (a n : Nat) : (s.modBun f).readPAn a n = s.readPAn a n := by
  induction n generalizing a with
  | zero => rfl
  | succ n ih =>
    rw [State.readPAn, ih]
    rfl

/-- How LDG brings back a value of clean memory. -/
def State.ldgRes (s : State) (z d ea : Nat) (ph : Phys) : LoadRes :=
  ⟨.x, d, s.glat, scalarVal z (overlay s.cx.wbuf .glob 0 ph.pa (Machine.sizeOf z) (s.readPAn ph.pa (Machine.sizeOf z))), none, ea, 0, z % 4, true, false,
    if isAccWin ph.pa then 3 else 2⟩

/-- A load of clean memory that the context reaches at once. -/
theorem State.loadGlobal_clean {s : State} {z d ea : Nat} {ph : Phys} {k : Nat} (hg : s.globalAddr ea (Machine.sizeOf z) false = .ok ph)
    (hat : s.atOnce (dieOf s.lc) ph.pa s.tid s.fresh = true) (hh : s.home ph.pa = .mem k) (hp : s.poisPA ph.pa = false) :
    s.loadGlobal z d ea = (s.modBun (fun b => { b with pages := b.pages ++ [ea] })).load (s.ldgRes z d ea ph) := by
  unfold State.loadGlobal
  extract_lets n die v me
  rw [hg]
  dsimp only
  have hv : v.atOnce die ph.pa v.tid v.fresh = true := hat
  have hb : v.globBytes ph.pa n = (overlay s.cx.wbuf .glob 0 ph.pa n (s.readPAn ph.pa n), false) := by
    rw [← State.readPAn_modBun s (fun b => { b with pages := b.pages ++ [ea] })]
    exact State.globBytes_mem (s := v) n (State.isLocal_of_atOnce hat) hh hp
  rw [hv, Bool.true_or, if_pos rfl, hb]
  rfl

/-- How LDL brings back a clean value. -/
def State.ldlRes (s : State) (z d q ea u o : Nat) : LoadRes :=
  ⟨.x, d, s.spLat u, scalarVal z (overlay s.cx.wbuf .sp u o (Machine.sizeOf z) ((s.lcore u).readN .sp none o (Machine.sizeOf z))), none, ea, q, z % 4, false,
    false, 1⟩

/-- A load of clean scratchpad bytes that does not consume. -/
theorem State.loadLocal_clean {s : State} (i : Instr) {z d q ea u o : Nat} (h : spScalar s.lc ea (Machine.sizeOf z) (Machine.sizeOf z) = .ok (u, o))
    (hq : q < 2) (hp : s.spPois false u none o (Machine.sizeOf z) 1 = false) : s.loadLocal i z d q ea = s.load (s.ldlRes z d q ea u o) := by
  have h2 : q ≠ 2 := by omega
  have h3 : q ≠ 3 := by omega
  rw [State.loadLocal, h]
  dsimp only
  rw [if_neg h2, if_neg h3, hp]
  rfl

/-- Settles O32: the load completes by O33, and `State.load_onTime` says what it leaves. -/
theorem loadsReturnMemory : Obligations.LoadsReturnMemory := by
  obtain ⟨hldg, -, hldl, -⟩ := scalarMemoryCompletes
  refine ⟨fun s z d a i w ph _ hx hl hlate hg hat ⟨k, hk⟩ hp => ?_, fun s z d a i w u o _ hx hl hlate hq h hp => ?_, fun z v hz => ?_⟩
  · have hmem (u o : Nat) (_ : s.isLocal (dieOf s.lc) ph.pa = true) (hacc : s.home ph.pa = .acc u o) :
        addTouches s.cx.wbuf .acc u o (Machine.sizeOf z) = false ∧ s.matMeet u o (Machine.sizeOf z) ≠ .wait := by simp [hk] at hacc
    rw [hldg s z d a i w ph hx hl hg hmem, State.loadGlobal_clean hg hat hk hp,
      State.load_onTime (s := s.modBun _) hlate RKind.noConfusion]
    refine ⟨_, rfl, rfl, rfl, ?_, ?_⟩
    · rw [State.ar_bump, State.ar_modAr]
      rfl
    · rw [State.ar_bump, State.ar_modAr]
      rfl
  · have hq2 : qualOf w < 2 := by omega
    have hstrong : qualOf w = 0 ∨ s.strongHeld = false := hq.imp id And.right
    rw [(hldl s z d a i w u o hx hl hstrong h).1, State.loadLocal_clean _ h hq2 hp, State.load_onTime hlate RKind.noConfusion]
    refine ⟨_, rfl, rfl, rfl, ?_, ?_⟩
    · rw [State.ar_bump, State.ar_modAr]
    · rw [State.ar_bump, State.ar_modAr]
      rfl
  · rw [scalarVal, Machine.sizeOf]
    split
    · rw [if_neg (by omega)]
    · rw [if_pos (by omega), Nat.mod_eq_of_lt (by omega : z < 4)]

end Sys2Proof.Machine
end

/-! ## A token release keeps a third operand for its commit -/

section
namespace Sys2Proof.Machine

theorem exec_tokrel (d a b : Nat) (s : State) : exec (.tokrel d a b) s = State.runOp (.tokrel d a b)
    (fun s => s.defer (.tokrel d a b) [(s.rx a).toNat, (s.rx b).toNat, s.fresh]) s := rfl

theorem State.defer_vals_inj {s : State} {i : Instr} {u v : List Nat} (h : s.defer i u = s.defer i v) : u = v := by
  have hops := congrArg (fun t => t.bun.ops) h
  simpa [State.defer] using hops

/-- Refutes O48, whose clauses for the transfers and for TOKREL leave out an operand: beside its registers, the operation keeps the number that the
next message gets (R105), by which its commit tells the messages before it from those behind. In the state after reset it is 1. -/
theorem not_commitOperationsComplete : ¬ Obligations.CommitOperationsComplete := by
  intro h
  obtain ⟨-, -, -, htok, -⟩ := h
  have hready : ({} : State).xReady [0, 0] := by
    intro n hn
    obtain rfl : n = 0 := by simpa using hn
    exact ⟨rfl, rfl⟩
  have hexec : exec (.tokrel 0 0 0) {} = .next (({} : State).defer (.tokrel 0 0 0) [0, 0, 1]) :=
    (exec_tokrel 0 0 0 {}).trans (State.runOp_mem _ hready rfl rfl)
  obtain ⟨-, hclaim⟩ := htok {} 0 0 0 hready ⟨rfl, by decide⟩ rfl
  exact absurd (State.defer_vals_inj (Host.Outcome.next.inj (hexec.symm.trans hclaim))) (by decide)

end Sys2Proof.Machine
end

/-! ## Ticket domains, ticketed updates and locks -/

section
namespace Sys2Proof.Machine

/-! ### Domains of a logical core -/

@[simp] theorem LCore.dom_setDom_same (c : LCore) (td : Nat) (m : Dom) : (c.setDom td m).dom td = m := Tbl.get_put_self _ _ _ _

theorem LCore.dom_setDom_ne (c : LCore) {td k : Nat} (m : Dom) (h : k ≠ td) : (c.setDom td m).dom k = c.dom k := Tbl.get_put_ne _ _ _ h

theorem LCore.discardHeld_parts (c : LCore) (td : Nat) (f : Part → Bool) :
    (c.discardHeld td f).parts = c.parts.filter (fun p => !(p.td == td && f p)) := rfl

theorem LCore.discardHeld_next (c : LCore) (td : Nat) (f : Part → Bool) : ((c.discardHeld td f).dom td).next = (c.dom td).next := by
  rw [LCore.discardHeld, LCore.dom_setDom_same]

theorem LCore.not_held_discardHeld {c : LCore} {td : Nat} {f : Part → Bool} {p : Part} (h : p ∈ (c.discardHeld td f).parts) :
    ¬ (p.td = td ∧ f p = true) := by
  have hp := (List.mem_filter.1 (c.discardHeld_parts td f ▸ h)).2
  rintro ⟨hd, hf⟩
  simp [hd, hf] at hp

/-! ### What a domain instruction makes of its domain (R327 to R331) -/

section
variable {m : Dom} {task asid base count win : Nat}

theorem Dom.openAs_range (h : count = 0 ∨ 2 ^ 32 < base + count) : m.openAs task asid base count win = (2, m) := by
  rw [Dom.openAs, if_pos (by simpa using h)]

theorem Dom.openAs_closed (hc : count ≠ 0) (hr : base + count ≤ 2 ^ 32) (h : m.state = 0) : m.openAs task asid base count win = (0,
    { state := 1, owner := task, asid := asid, base := base, count := count, next := base, win := win, opened := true }) := by
  rw [Dom.openAs, if_neg (by simp; omega), if_pos h]

theorem Dom.openAs_open (hc : count ≠ 0) (hr : base + count ≤ 2 ^ 32) (h : m.state ≠ 0) : m.openAs task asid base count win =
    (if m.state = 1 ∧ m.owner = task ∧ m.base = base ∧ m.count = count then 0 else if m.asid ≠ asid then 4 else 1, m) := by
  rw [Dom.openAs, if_neg (by simp; omega), if_neg h]
  simp only [Bool.and_eq_true, decide_eq_true_eq, and_assoc, bne_iff_ne]
  split
  · rfl
  · split <;> rfl

end

section
variable {c : LCore} {td asid k : Nat}

theorem LCore.skipTicket_status : (c.skipTicket td asid k).1 = if (c.dom td).state ≠ 1 then 3 else if (c.dom td).asid ≠ asid then 4
    else if (c.dom td).base + (c.dom td).count ≤ k then 2 else if k < (c.dom td).next + 64 then 0 else 1 := by
  simp only [LCore.skipTicket, bne_iff_ne]
  split
  · rfl
  split
  · rfl
  split
  · rfl
  by_cases hw : k < (c.dom td).next + 64
  · rw [if_pos hw, if_pos hw]
    split
    · rfl
    · split <;> rfl
  · rw [if_neg (by omega), if_neg (by omega), if_neg hw, if_neg hw]

theorem LCore.skipTicket_kept (h : (c.dom td).state ≠ 1 ∨ (c.dom td).asid ≠ asid ∨ (c.dom td).base + (c.dom td).count ≤ k ∨
    k < (c.dom td).next ∨ (c.dom td).next + 64 ≤ k) : (c.skipTicket td asid k).2 = c := by
  simp only [LCore.skipTicket, bne_iff_ne]
  split
  · rfl
  split
  · rfl
  split
  · rfl
  rcases h with h | h | h | h | h
  · contradiction
  · contradiction
  · contradiction
  · rw [if_pos h]
  · rw [if_neg (by omega), if_neg (by omega), if_neg (by omega)]

/-- A ticket within the window ahead of NEXT is marked as skipped, and what is held of it is discarded. -/
theorem LCore.skipTicket_ahead (hs : (c.dom td).state = 1) (ha : (c.dom td).asid = asid) (hk : k < (c.dom td).base + (c.dom td).count)
    (hn : (c.dom td).next < k) (hw : k < (c.dom td).next + 64) : ∃ n,
      let u := c.discardHeld td (fun p => p.ticket == k)
      (c.skipTicket td asid k).2 =
        u.setDom td { u.dom td with skip := (u.dom td).skip ||| 2 ^ (k - (u.dom td).next), skipped := n } := by
  simp only [LCore.skipTicket, bne_iff_ne]
  rw [if_neg (not_not.2 hs), if_neg (not_not.2 ha), if_neg (by omega), if_neg (by omega), if_neg (by omega), if_pos hw]
  exact ⟨_, rfl⟩

end

theorem bit_or_two_pow (x k : Nat) : bit (x ||| 2 ^ k) k = true := by
  have h : (x ||| 2 ^ k).testBit k = true := by rw [Nat.testBit_or, Nat.testBit_two_pow_self, Bool.or_true]
  rwa [Nat.testBit_eq_decide_div_mod_eq] at h

section
variable {c : LCore} {td task : Nat} {force : Bool}

theorem LCore.closeDom_status : (c.closeDom td task force).1 = if (c.dom td).state = 0 then 0
    else if (c.dom td).owner ≠ task ∨ (c.dom td).state ≠ 1 then 4
    else if (c.dom td).next ≠ (c.dom td).base + (c.dom td).count ∧ force = false then 1 else 0 := by
  simp only [LCore.closeDom, Dom.done, Bool.or_eq_true, Bool.and_eq_true, Bool.not_eq_true', bne_iff_ne, beq_eq_false_iff_ne]
  split
  · rfl
  split
  · rfl
  split <;> rfl

theorem LCore.closeDom_kept (h : (c.closeDom td task force).1 ≠ 0 ∨ (c.dom td).state = 0) : (c.closeDom td task force).2 = c := by
  rw [LCore.closeDom] at h ⊢
  split
  · rfl
  split
  · rfl
  split
  · rfl
  · simp_all

theorem LCore.closeDom_done (h : (c.closeDom td task force).1 = 0) (hs : (c.dom td).state ≠ 0) :
    ((c.closeDom td task force).2.dom td).state = 0 ∧ ∀ p ∈ (c.closeDom td task force).2.parts, p.td ≠ td := by
  have hclosed : (c.closeDom td task force).2 =
      (c.discardHeld td (fun _ => true)).setDom td { (c.discardHeld td (fun _ => true)).dom td with state := 0 } := by
    rw [LCore.closeDom, if_neg hs] at h ⊢
    split
    · simp_all
    split
    · simp_all
    · rfl
  rw [hclosed]
  exact ⟨by rw [LCore.dom_setDom_same], fun p hp hd => LCore.not_held_discardHeld hp ⟨hd, rfl⟩⟩

end

/-- What TKSTAT answers of a domain of another address space (R330). -/
theorem Dom.stat_foreign {m : Dom} {td sel asid : Nat} (ho : m.opened = true) (ha : m.asid ≠ asid) : m.stat td sel asid = 2 ^ 57 :=
  if_pos (by simp [ho, ha])

/-! ### Where the domain instructions complete -/

theorem exec_tkopen (d a b td : Nat) (s : State) : exec (.tkopen d a b td) s = State.runOp (.tkopen d a b td)
    (fun s => s.domOp (.tkopen d a b td) d (s.domEa a) [(s.rx b).toNat, (s.ar.getSr 0x00A).toNat] (fun c =>
      let r := (c.dom td).openAs s.tid s.asid ((s.rx b).toNat % 2 ^ 32) ((s.rx b).toNat / 2 ^ 32) (s.ar.getSr 0x00A).toNat
      (r.1, c.setDom td r.2))
      (if (s.rx b).toNat / 2 ^ 32 = 0 || 2 ^ 32 < (s.rx b).toNat % 2 ^ 32 + (s.rx b).toNat / 2 ^ 32 then 2 else s.anyOf [0, 1, 4])) s := rfl

theorem exec_tkskip (d a b td : Nat) (s : State) : exec (.tkskip d a b td) s = State.runOp (.tkskip d a b td)
    (fun s => s.domOp (.tkskip d a b td) d (s.domEa a) [(s.rx b).toNat % 2 ^ 32]
      (fun c => c.skipTicket td s.asid ((s.rx b).toNat % 2 ^ 32)) (s.anyOf [0, 1, 2, 3, 4])) s := rfl

theorem exec_tkstat (d a sel td : Nat) (s : State) : exec (.tkstat d a sel td) s = State.runOp (.tkstat d a sel td)
    (fun s => s.domOp (.tkstat d a sel td) d (s.domEa a) [] (fun c => ((c.dom td).stat td sel s.asid, c)) (s.anyStat td sel)) s := rfl

theorem exec_tkclose (d a f td : Nat) (s : State) : exec (.tkclose d a f td) s = State.runOp (.tkclose d a f td)
    (fun s => s.domOp (.tkclose d a f td) d (s.domEa a) [] (fun c => c.closeDom td s.tid (f == 1))
      (s.anyOf (if f = 1 then [0, 4] else [0, 1, 4]))) s := rfl

theorem exec_tkadd (a b xt td : Nat) (s : State) : exec (.tkadd a b xt td) s = State.runOp (.tkadd a b xt td)
    (fun s => s.sendScalar 0 (s.domEa a) (s.rx b).toNat (s.rx xt).toNat td) s := rfl

theorem exec_tkmin (a b xt td : Nat) (s : State) : exec (.tkmin a b xt td) s = State.runOp (.tkmin a b xt td)
    (fun s => s.sendScalar 1 (s.domEa a) (s.rx b).toNat (s.rx xt).toNat td) s := rfl

theorem exec_tkmax (a b xt td : Nat) (s : State) : exec (.tkmax a b xt td) s = State.runOp (.tkmax a b xt td)
    (fun s => s.sendScalar 2 (s.domEa a) (s.rx b).toNat (s.rx xt).toNat td) s := rfl

section
variable {s : State} {ea n : Nat} {t : AccTgt} (h : s.accOperand ea n = .ok t)
include h

theorem State.chkAcc_ok : s.chkAcc ea n = .ok := by rw [State.chkAcc, h, Chk.ofRes_ok]

theorem State.chkAcc_chkRoom_ok (hl : s.loadReady) : (s.chkAcc ea n).andThen s.chkRoom = .ok := by
  rw [State.chkAcc_ok h, Chk.ok_andThen, State.chkRoom_ok hl]

end

section
variable {s : State} {ea : Nat} {t : AccTgt} (h : s.accOperand ea 1 = .ok t) (hf : t.far = none)
include h hf

/-- On a domain of this package the instruction answers what the domain's controller says. -/
theorem State.domOp_near (i : Instr) (d : Nat) (vals : List Nat) (f : LCore → Nat × LCore) (away : Nat) :
    s.domOp i d ea vals f away = (s.setLcore t.unit (f (s.lcore t.unit)).2).domResult d t ea (f (s.lcore t.unit)).1 := by
  rw [State.domOp, h]
  simp only [hf]

theorem State.chkDrain_ok {td : Nat} (hd : (((s.lcore t.unit).dom td).opened = true ∧ ((s.lcore t.unit).dom td).asid ≠ s.asid) ∨
    ((s.lcore t.unit).dom td).next = ((s.lcore t.unit).dom td).base + ((s.lcore t.unit).dom td).count ∨
    ((s.lcore t.unit).dom td).gapev = true ∨ ((s.lcore t.unit).dom td).state = 0) : s.chkDrain ea td = .ok := by
  rw [State.chkDrain, h, Chk.ofRes_ok]
  simp only [hf]
  have hgo : (((s.lcore t.unit).dom td).opened && ((s.lcore t.unit).dom td).asid != s.asid || ((s.lcore t.unit).dom td).done ||
      ((s.lcore t.unit).dom td).gapev || ((s.lcore t.unit).dom td).state == 0 || s.cx.drainGo == some (t.unit * 64 + td)) = true := by
    simp only [Bool.or_eq_true, Bool.and_eq_true, bne_iff_ne, beq_iff_eq, Dom.done]
    tauto
  rw [hgo]
  rfl

end

/-- The gap event of a domain is taken by the drain that returns it. -/
def State.takeGap (s : State) (u td : Nat) : State :=
  if !(((s.lcore u).dom td).opened && ((s.lcore u).dom td).asid != s.asid) then
    s.modLcore u (fun c => c.setDom td { (s.lcore u).dom td with gapev := false })
  else s

theorem exec_tkdrain (d a td : Nat) (s : State) : exec (.tkdrain d a td) s = State.runOp (.tkdrain d a td) (fun s =>
    match s.accOperand (s.domEa a) 1 with
    | .error _ => s
    | .ok t =>
      match t.far with
      | some pa => (s.sendAway (.tkdrain d a td) pa []).outX d 1 (BitVec.ofNat 64 (s.anyDrain td))
      | none => ((s.takeGap t.unit td).outX d 1 (BitVec.ofNat 64 (((s.lcore t.unit).dom td).stat td 0 (s.takeGap t.unit td).asid))).modCx
          (fun k => { k with drainOn := none })) s := rfl

theorem State.takeGap_asid (s : State) (u td : Nat) : (s.takeGap u td).asid = s.asid := by
  rw [State.takeGap]
  split <;> rfl

theorem State.takeGap_cx (s : State) (u td : Nat) : (s.takeGap u td).cx = s.cx := by
  rw [State.takeGap]
  split <;> rfl

/-- The drain's result is in flight as if no gap event had been taken. -/
theorem State.takeGap_out (s : State) (u td d : Nat) (v : Word) :
    (((s.takeGap u td).outX d 1 v).modCx (fun k => { k with drainOn := none })).ar.inflight = (s.outX d 1 v).ar.inflight := by
  have hcx := s.takeGap_cx u td
  have hslot : (s.takeGap u td).slot = s.slot := by
    rw [State.takeGap]
    split <;> rfl
  have hbun : (s.takeGap u td).bun = s.bun := by
    rw [State.takeGap]
    split <;> rfl
  have hdrain : ∀ w : State, (w.modCx (fun k => { k with drainOn := none })).ar.inflight = w.ar.inflight := fun w => by
    rw [State.ar, State.cx_modCx, State.ar]
  rw [hdrain, State.outX, State.outX, State.ar_out _ _ _ _ _ (by decide), State.ar_out _ _ _ _ _ (by decide)]
  simp only [State.cyc, State.ar, hcx, hslot, hbun]

theorem State.takeGap_gapev (s : State) (u td : Nat) : (((s.takeGap u td).lcore u).dom td).gapev =
    (decide (((s.lcore u).dom td).opened = true ∧ ((s.lcore u).dom td).asid ≠ s.asid) && ((s.lcore u).dom td).gapev) := by
  rw [State.takeGap]
  split
  · next hg =>
    rw [State.lcore_modLcore_self, LCore.dom_setDom_same]
    have hown : ¬ (((s.lcore u).dom td).opened = true ∧ ((s.lcore u).dom td).asid ≠ s.asid) := by
      simp only [Bool.not_eq_true', Bool.and_eq_false_iff, bne_eq_false_iff_eq] at hg
      rintro ⟨ho, ha⟩
      simp [ho, ha] at hg
    rw [decide_eq_false hown, Bool.false_and]
  · next hg =>
    simp only [Bool.not_eq_true, Bool.not_eq_false', Bool.and_eq_true, bne_iff_ne] at hg
    rw [decide_eq_true hg, Bool.true_and]

/-- A part of this cluster, or one that arrives at once, joins the parts on their way (R318). -/
theorem State.sendScalar_near {s : State} {ea : Nat} {t : AccTgt} (h : s.accOperand ea 4 = .ok t) (hw : s.wayTo t = none)
    (op x ticket td : Nat) : s.sendScalar op ea x ticket td = { s with
      parts := s.parts ++ [{ td := td, ticket := ticket % 2 ^ 32, op := op, mask := 1, lane0 := 0, off := t.off, asid := s.asid,
                             pay := [x % 2 ^ 32], lcore := t.unit, pcore := s.cur, task := s.tid, addr := ea, id := s.fresh,
                             iss := s.ar.scyc + 1, slot := s.slot }],
      fresh := s.fresh + 1 } := by
  rw [State.sendScalar, h]
  simp only [State.sendPart, hw]
  rfl

/-! ### Locks (R99 to R101) -/

/-- A line of a die's cache is locked for a task. -/
def State.lockLine (id : Nat) (s : State) (pa : Nat) : State :=
  s.modDie (homeDie pa) (fun x => { x with locks := x.locks ++ [(pa / 256, id)] })

/-- A line of a die's cache is no longer locked for a task. -/
def State.unlockLine (id : Nat) (s : State) (pa : Nat) : State :=
  s.modDie (homeDie pa) (fun x => { x with locks := x.locks.filter (fun l => l != (pa / 256, id)) })

theorem State.mem_locks_lockLine {id : Nat} {s : State} {pa k : Nat} {l : Nat × Nat} :
    l ∈ ((s.lockLine id pa).die k).locks ↔ l ∈ (s.die k).locks ∨ k = homeDie pa ∧ l = (pa / 256, id) := by
  by_cases hk : k = homeDie pa
  · subst hk
    simp [State.lockLine]
  · simp [State.lockLine, State.die_modDie_ne _ _ hk, hk]

theorem State.mem_locks_unlockLine {id : Nat} {s : State} {pa k : Nat} {l : Nat × Nat} :
    l ∈ ((s.unlockLine id pa).die k).locks ↔ l ∈ (s.die k).locks ∧ ¬ (k = homeDie pa ∧ l = (pa / 256, id)) := by
  by_cases hk : k = homeDie pa
  · subst hk
    simp [State.unlockLine]
  · simp [State.unlockLine, State.die_modDie_ne _ _ hk, hk]

theorem State.mem_locks_lockLines {id k : Nat} {l : Nat × Nat} (ls : List Nat) (s : State) :
    l ∈ ((ls.foldl (State.lockLine id) s).die k).locks ↔ l ∈ (s.die k).locks ∨ ∃ pa ∈ ls, k = homeDie pa ∧ l = (pa / 256, id) := by
  induction ls generalizing s with
  | nil => simp
  | cons pa ls ih => rw [List.foldl_cons, ih, State.mem_locks_lockLine, or_assoc, List.exists_mem_cons_iff]

theorem State.mem_locks_unlockLines {id k : Nat} {l : Nat × Nat} (ls : List Nat) (s : State) :
    l ∈ ((ls.foldl (State.unlockLine id) s).die k).locks ↔ l ∈ (s.die k).locks ∧ ∀ pa ∈ ls, ¬ (k = homeDie pa ∧ l = (pa / 256, id)) := by
  induction ls generalizing s with
  | nil => simp
  | cons pa ls ih => rw [List.foldl_cons, ih, State.mem_locks_unlockLine, and_assoc, List.forall_mem_cons]

theorem nodup_eraseDups {α : Type} [DecidableEq α] : ∀ l : List α, l.eraseDups.Nodup
  | [] => List.nodup_nil
  | a :: l => by
    rw [List.eraseDups_cons, List.nodup_cons, List.mem_eraseDups]
    exact ⟨by simp, nodup_eraseDups (l.filter (fun b => !b == a))⟩
termination_by l => l.length
decreasing_by exact Nat.lt_succ_of_le (List.length_filter_le _ _)

section
variable {s : State} {va len : Nat}

theorem State.lockTest_refused (h : (s.lockTest va len).1 ≠ 0) : (s.lockTest va len).2 = [] := by
  revert h
  simp only [State.lockTest]
  split
  · exact fun _ => rfl
  split
  · exact fun _ => rfl
  split
  · exact fun _ => rfl
  split
  · exact fun _ => rfl
  · exact fun h => absurd rfl h

/-- The lines that a successful LOCK takes: whole lines, each once, none of them the task's already, within its share. -/
theorem State.lockTest_ok (h : (s.lockTest va len).1 = 0) : (lineRange va len).2 ≠ 0 ∧
    s.lockUse s.tid + (s.lockTest va len).2.length ≤ s.myTask.lockq ∧ (s.lockTest va len).2.Nodup ∧
    ∀ pa ∈ (s.lockTest va len).2, pa % 256 = 0 ∧ (pa / 256, s.tid) ∉ (s.die (homeDie pa)).locks := by
  revert h
  simp only [State.lockTest]
  split
  · exact fun h => absurd h (by decide)
  next hshare =>
  split
  · exact fun h => absurd h (by decide)
  split
  · exact fun h => absurd h (by decide)
  next hrange =>
  split
  · exact fun h => absurd h (by decide)
  refine fun _ => ⟨fun hn => hrange (by simp [hn]), Nat.le_of_not_lt hshare, nodup_eraseDups _, fun pa hpa => ?_⟩
  rw [List.mem_eraseDups, List.mem_filter, List.mem_map] at hpa
  obtain ⟨⟨p, -, rfl⟩, hfree⟩ := hpa
  exact ⟨Nat.mul_mod_left _ _, by simpa using hfree⟩

end

theorem exec_lock (d a b : Nat) (s : State) : exec (.lock d a b) s = State.runOp (.lock d a b) (fun s =>
    ((s.lockTest (s.rx a).toNat (s.rx b).toNat).2.foldl (State.lockLine s.tid) s).lockResult d
      (s.lockTest (s.rx a).toNat (s.rx b).toNat).1 (s.lockTest (s.rx a).toNat (s.rx b).toNat).2.length (s.rx a).toNat) s := rfl

/-- UNLOCK's effect on registers that hold an address and a length. -/
def State.unlockRange (s : State) (d va len : Nat) : State :=
  if (lineRange va len).2 = 0 || (256 * (lineRange va len).1) / 2 ^ 21 !=
      (256 * ((lineRange va len).1 + (lineRange va len).2) - 1) / 2 ^ 21 then s.lockResult d 3 0 va
  else ((s.lockedLines va len).foldl (State.unlockLine s.tid) s).lockResult d 0 (s.lockedLines va len).length va

theorem exec_unlock (d a b : Nat) (s : State) : exec (.unlock d a b) s = State.runOp (.unlock d a b)
    (fun s => s.unlockRange d (s.rx a).toNat (s.rx b).toNat) s := rfl

theorem lineRange_fst (va len : Nat) : (lineRange va len).1 = va / 256 := by
  rw [lineRange]
  split <;> rfl

theorem State.unlockRange_empty {s : State} {d va len : Nat} (h : (lineRange va len).2 = 0) : s.unlockRange d va len = s.lockResult d 3 0 va :=
  if_pos (by rw [h]; rfl)

theorem State.unlockRange_within {s : State} {d va len : Nat} (h : (lineRange va len).2 ≠ 0)
    (hr : va / 256 * 256 / 2 ^ 21 = ((va / 256 + (lineRange va len).2) * 256 - 1) / 2 ^ 21) : s.unlockRange d va len =
      ((s.lockedLines va len).foldl (State.unlockLine s.tid) s).lockResult d 0 (s.lockedLines va len).length va := by
  refine if_neg ?_
  rw [lineRange_fst, Nat.mul_comm 256, Nat.mul_comm 256, hr]
  simpa using h

/-- A domain instruction whose operand names a domain of this package completes with what its controller answers. -/
theorem State.runOp_dom {s : State} {i : Instr} {F : State → State} {ea d away : Nat} {t : AccTgt} {vals : List Nat}
    {f : LCore → Nat × LCore} (hx : s.xReady i.xsrcs) (hl : s.loadReady) (h : s.accOperand ea 1 = .ok t) (hf : t.far = none)
    (hF : F s = s.domOp i d ea vals f away) (ho : s.chkOp i = (s.chkAcc ea 1).andThen s.chkRoom := by rfl)
    (hj : s.chkJump i = .ok := by rfl) (hv : i.vsrcs = [] := by rfl) (hd : i.vdests = [] := by rfl) (hp : i.psrcs = [] := by rfl)
    (hm : i.needsMatrix = false := by rfl) :
    s.runOp i F = .next ((s.setLcore t.unit (f (s.lcore t.unit)).2).domResult d t ea (f (s.lcore t.unit)).1) := by
  rw [State.runOp_mem F hx hl.1 (ho.trans (State.chkAcc_chkRoom_ok h hl)) hj hv hd hp hm, hF, State.domOp_near h hf]

/-- Settles O47: the domain instructions by `State.runOp_dom` and what each makes of its domain, the updates by their one part, the locks
by what the loops over lines do to the dies' lock tables. -/
theorem domainOperationsComplete : Obligations.DomainOperationsComplete := by
  refine ⟨fun s d a b td t hx hl h hf => ?tkopen, fun s d a b td t hx hl h hf => ?tkskip, fun s d a sel td t hx hl h hf => ?tkstat,
    fun s d a f td t hx hl h hf => ?tkclose, fun s d a td t hx ha h hf hd => ?tkdrain, fun s a b xt td t hx ha h => ?updates,
    fun s d a b hx hl h => ?locks⟩
  case tkopen =>
    refine ⟨_, _, (exec_tkopen d a b td s).trans (State.runOp_dom hx hl h hf rfl), rfl, rfl, fun k hk => LCore.dom_setDom_ne _ _ hk,
      fun hr => ?_, fun hc hr hs => ?_, fun hc hr hs => ?_⟩
    · simp only [Dom.openAs_range hr, LCore.dom_setDom_same, and_self]
    · simp only [Dom.openAs_closed hc hr hs, LCore.dom_setDom_same, and_self]
    · simp only [Dom.openAs_open hc hr hs, LCore.dom_setDom_same, and_self]
  case tkskip =>
    refine ⟨_, _, (exec_tkskip d a b td s).trans (State.runOp_dom hx hl h hf rfl), LCore.skipTicket_status, LCore.skipTicket_kept,
      fun hs ha hk hn hw => ?_⟩
    obtain ⟨n, hn⟩ := LCore.skipTicket_ahead hs ha hk hn hw
    rw [hn, LCore.dom_setDom_same]
    refine ⟨?_, LCore.discardHeld_next _ _ _, fun p hp => by simpa using LCore.not_held_discardHeld hp⟩
    rw [LCore.discardHeld_next]
    exact bit_or_two_pow _ _
  case tkstat =>
    refine ⟨?_, Dom.stat_foreign⟩
    rw [exec_tkstat]
    exact State.runOp_dom (i := .tkstat d a sel td) (f := fun c => ((c.dom td).stat td sel s.asid, c)) hx hl h hf rfl
  case tkclose =>
    refine ⟨_, _, (exec_tkclose d a f td s).trans (State.runOp_dom hx hl h hf rfl), ?_, LCore.closeDom_kept, LCore.closeDom_done⟩
    rw [LCore.closeDom_status]
    simp only [beq_eq_false_iff_ne]
  case tkdrain =>
    refine ⟨((s.takeGap t.unit td).outX d 1 (BitVec.ofNat 64 (((s.lcore t.unit).dom td).stat td 0 (s.takeGap t.unit td).asid))).modCx
      (fun k => { k with drainOn := none }), ?_, ?_, s.takeGap_gapev t.unit td⟩
    · rw [exec_tkdrain, State.runOp_mem (i := .tkdrain d a td) _ hx ha (State.chkDrain_ok h hf hd)]
      simp only [h, hf]
    · rw [State.takeGap_asid]
      exact State.takeGap_out s t.unit td d _
  case updates =>
    refine ⟨?_, ?_, ?_, fun hw op => State.sendScalar_near h hw _ _ _ _⟩
    · exact (exec_tkadd a b xt td s).trans (State.runOp_mem _ hx ha (State.chkAcc_ok h))
    · exact (exec_tkmin a b xt td s).trans (State.runOp_mem _ hx ha (State.chkAcc_ok h))
    · exact (exec_tkmax a b xt td s).trans (State.runOp_mem _ hx ha (State.chkAcc_ok h))
  case locks =>
    have hok : (s.chkLock (s.rx a).toNat (s.rx b).toNat).andThen s.chkRoom = .ok := by rw [h, Chk.ok_andThen, State.chkRoom_ok hl]
    refine ⟨⟨_, (exec_lock d a b s).trans (State.runOp_mem _ hx hl.1 hok), State.lockTest_ok, fun hr => ?_, fun pa hpa => ?_, fun k l hkl => ?_⟩,
      _, (exec_unlock d a b s).trans (State.runOp_mem _ hx hl.1 hok), State.unlockRange_empty, fun hn hr =>
        ⟨_, State.unlockRange_within hn hr, fun pa hpa hmem => ?_, fun k l ht hkl => ?_⟩⟩
    · rw [State.lockTest_refused hr]
      exact ⟨rfl, rfl⟩
    · exact (State.mem_locks_lockLines _ s).2 (.inr ⟨pa, hpa, rfl, rfl⟩)
    · exact (State.mem_locks_lockLines _ s).2 (.inl hkl)
    · exact ((State.mem_locks_unlockLines _ s).1 hmem).2 pa hpa ⟨rfl, rfl⟩
    · exact (State.mem_locks_unlockLines _ s).2 ⟨hkl, fun pa _ hpa => ht (congrArg Prod.snd hpa.2)⟩

end Sys2Proof.Machine
end

/-! ## What the stores of a commit leave of the contexts -/

section
namespace Sys2Proof.Machine

/-! ### Steps that change no core -/

theorem CoresKept.refl (s : State) : CoresKept s s := ⟨rfl, rfl, rfl⟩

theorem CoresKept.trans {s t u : State} (h : CoresKept s t) (k : CoresKept t u) : CoresKept s u :=
  ⟨k.cores.trans h.cores, k.cur.trans h.cur, k.ctx.trans h.ctx⟩

theorem CoresKept.foldl {α : Type} {f : State → α → State} (hf : ∀ s a, CoresKept s (f s a)) (l : List α) (s : State) :
    CoresKept s (l.foldl f s) := by
  induction l generalizing s with
  | nil => exact .refl s
  | cons a l ih => exact (hf s a).trans (ih _)

theorem CoresKept.ctxAt {s t : State} (h : CoresKept s t) (p c : Nat) : t.ctxAt p c = s.ctxAt p c := by
  rw [State.ctxAt, State.core, h.cores]
  rfl

theorem CoresKept.modLcore (s : State) (l : Nat) (f : LCore → LCore) : CoresKept s (s.modLcore l f) := ⟨rfl, rfl, rfl⟩

theorem CoresKept.passed (s : State) (d : Nat) (m : Msg) : CoresKept s (s.passed d m) := by
  refine .foldl (fun t h => ?_) _ s
  split
  · exact (CoresKept.refl t).modDie _ _
  · exact .refl t

theorem CoresKept.emit (s : State) (d : Nat) (m : Msg) : CoresKept s (s.emit d m) := by
  rw [State.emit]
  split
  · exact .trans (t := s.passed d m) (.passed s d m) ⟨rfl, rfl, rfl⟩
  · exact ⟨rfl, rfl, rfl⟩

theorem CoresKept.memStore (s : State) (l : List (Nat × Nat)) (pois : Bool) : CoresKept s (s.memStore l pois) := ⟨rfl, rfl, rfl⟩

theorem CoresKept.storeFar (s : State) (d pa mask data mode pois : Nat) (engine : Bool) (by_ : Sender) :
    CoresKept s (s.storeFar d pa mask data mode pois engine by_) := by
  have hsend (t : State) (h : CoresKept s t) : CoresKept s ((t.staleLine d pa).sendHome d 3 pa pois [mask, mode, data, b2n engine] by_) :=
    h.trans (.trans (t := t.staleLine d pa) ⟨rfl, rfl, rfl⟩ (.trans (t := (t.staleLine d pa).modDie d _) ⟨rfl, rfl, rfl⟩ (.emit _ _ _)))
  rw [State.storeFar]
  refine hsend _ ?_
  split
  · exact .foldl (fun t g => .memStore t _ _) _ s
  · exact .refl s

theorem CoresKept.performEnt (s : State) (e : WEnt) : CoresKept s (s.performEnt e) := by
  rw [State.performEnt.eq_def]
  split
  · exact .storePA ..
  · exact .modLcore ..

theorem CoresKept.performPart (s : State) (e : WEnt) : CoresKept s (s.performPart e) := by
  rw [State.performPart.eq_def]
  extract_lets d far
  have hfar (pa : Nat) : CoresKept s (far pa) := .storeFar ..
  split
  · split
    · exact .performEnt s e
    · exact hfar _
  · split
    · exact .performEnt s e
    · exact hfar _
  · exact .performEnt s e

theorem CoresKept.performStore (s : State) (e : WEnt) : CoresKept s (s.performStore e) := .foldl .performPart _ _

/-! ### Steps that keep the registers, images and checkpoint counts of every context -/

/-- What a checkpoint speaks of: live state, image, held operations and the counts of commits. -/
def Ctx.saved (k : Ctx) : Arch × Arch × List CommitOp × Nat × Nat := (k.arch, k.image, k.held, k.ckexp, k.ckimp)

/-- From `s` to `t`, that much of every context, and which of them issues, are unchanged. -/
structure CtxsKept (s t : State) : Prop where
  saved : ∀ p c, (t.ctxAt p c).saved = (s.ctxAt p c).saved
  cur : t.cur = s.cur
  ctx : t.ctx = s.ctx

theorem CtxsKept.refl (s : State) : CtxsKept s s := ⟨fun _ _ => rfl, rfl, rfl⟩

theorem CtxsKept.trans {s t u : State} (h : CtxsKept s t) (k : CtxsKept t u) : CtxsKept s u :=
  ⟨fun p c => (k.saved p c).trans (h.saved p c), k.cur.trans h.cur, k.ctx.trans h.ctx⟩

theorem CtxsKept.foldl {α : Type} {f : State → α → State} (hf : ∀ s a, CtxsKept s (f s a)) (l : List α) (s : State) :
    CtxsKept s (l.foldl f s) := by
  induction l generalizing s with
  | nil => exact .refl s
  | cons a l ih => exact (hf s a).trans (ih _)

theorem CoresKept.ctxsKept {s t : State} (h : CoresKept s t) : CtxsKept s t := ⟨fun p c => congrArg Ctx.saved (h.ctxAt p c), h.cur, h.ctx⟩

theorem CtxsKept.modCx (s : State) {f : Ctx → Ctx} (hf : ∀ k, (f k).saved = k.saved := by intro; rfl) : CtxsKept s (s.modCx f) := by
  refine ⟨fun p c => ?_, rfl, rfl⟩
  by_cases h : p = s.cur ∧ c = s.ctx
  · obtain ⟨rfl, rfl⟩ := h
    exact (congrArg Ctx.saved (s.cx_modCx f)).trans (hf s.cx)
  · rw [State.ctxAt_modCx_ne s f (by tauto)]

theorem State.ctxAt_modCore (s : State) {p : Nat} {f : PCore → PCore} (hf : (f (s.core p)).ctxs = (s.core p).ctxs) (q c : Nat) :
    (s.modCore p f).ctxAt q c = s.ctxAt q c := by
  by_cases h : q = p
  · subst h
    rw [State.ctxAt, State.core_modCore_self, hf, State.ctxAt]
  · rw [State.ctxAt, State.core_modCore_ne s f h, State.ctxAt]

theorem CtxsKept.modCore (s : State) (p : Nat) {f : PCore → PCore} (hf : ∀ q, (f q).ctxs = q.ctxs) : CtxsKept s (s.modCore p f) :=
  ⟨fun q c => congrArg Ctx.saved (s.ctxAt_modCore (hf _) q c), rfl, rfl⟩

theorem CtxsKept.within {s : State} (p c : Nat) {f : State → State} (hf : ∀ t, CtxsKept t (f t)) : CtxsKept s (s.within p c f) :=
  ⟨(hf { s with cur := p, ctx := c }).saved, rfl, rfl⟩

theorem CtxsKept.writeResAt (s : State) (p i : Nat) : CtxsKept s (s.writeResAt p i) := by
  rw [State.writeResAt]
  split
  · exact .refl s
  · next r _ =>
    have hcut : CtxsKept (s.writeRes r) ((s.writeRes r).within p r.ctx (fun s =>
        (List.range r.a.length).foldl (fun s m => s.cutWindows .acc r.lcore (tileOff r.tile m) 512) s)) :=
      .within p r.ctx (CtxsKept.foldl (fun t _ => .modCx t) _)
    exact ((CoresKept.modLcore s r.lcore _).ctxsKept.trans hcut).trans (.modCore _ p fun _ => rfl)

theorem CtxsKept.matFlushIf (s : State) (f : MRes → Bool) : CtxsKept s (s.matFlushIf f) := by
  refine .foldl (fun t i => ?_) _ s
  split
  · split
    · exact .writeResAt t _ i
    · exact .refl t
  · exact .refl t

theorem CtxsKept.resultsBefore (s : State) (e : WEnt) : CtxsKept s (s.resultsBefore e) := by
  rw [State.resultsBefore]
  split
  · exact .refl s
  · exact .matFlushIf s _

/-! ### Withheld stores -/

theorem CtxsKept.withheld (s : State) (l : List WEnt) : CtxsKept s (s.modCx (fun k => { k with wbuf := l })) := .modCx s

theorem CtxsKept.performSome (rest l : List WEnt) (s : State) : CtxsKept s (s.performSome rest l).1 := by
  induction l generalizing s with
  | nil => exact .withheld s rest
  | cons e l ih =>
    rw [State.performSome]
    split
    · exact .withheld s _
    · exact ((CtxsKept.resultsBefore s e).trans (CoresKept.performStore _ e).ctxsKept).trans (ih _)

/-- Stores without a release are all performed. -/
theorem State.performSome_free {rest l : List WEnt} (h : ∀ e ∈ l, e.releases = false) (s : State) :
    (s.performSome rest l).2 = false ∧ (s.performSome rest l).1.cx.wbuf = rest := by
  induction l generalizing s with
  | nil => exact ⟨rfl, congrArg Ctx.wbuf (s.cx_modCx _)⟩
  | cons e l ih =>
    rw [State.performSome, h e List.mem_cons_self, Bool.false_and, if_neg Bool.false_ne_true]
    exact ih (fun x hx => h x (List.mem_cons_of_mem _ hx)) _

/-- A commit's first operation, or an ENDT's release: the withheld stores alone. -/
def storesOp (k : Nat) : CommitOp := { withheldOp 0 with slot := k }

/-- The stores of an operation wait, and what the commit has still to do with them. -/
def State.holdAt (s : State) (k : Nat) (os : List CommitOp) : State :=
  s.modCx (fun x => { x with hold := some ⟨k, .fenceL, [0], os, s.bun.pc, s.bun.after, 0, 0⟩ })

theorem State.runOps_storesOp (s : State) (k : Nat) (os : List CommitOp) :
    s.runOps (storesOp k :: os) =
      if (s.performSome [] s.cx.wbuf).2 || (k != 9 && (s.performSome [] s.cx.wbuf).1.openBefore (s.performSome [] s.cx.wbuf).1.ar.scyc k) then
        (s.performSome [] s.cx.wbuf).1.holdAt k os
      else (s.performSome [] s.cx.wbuf).1.runOps os := by
  have hperf : s.performOp (storesOp k) =
      if (s.performSome [] s.cx.wbuf).2 || (k != 9 && (s.performSome [] s.cx.wbuf).1.openBefore (s.performSome [] s.cx.wbuf).1.ar.scyc k) then
        .hold (s.performSome [] s.cx.wbuf).1 [0] 0
      else .done (s.performSome [] s.cx.wbuf).1 := by
    change s.perfFence (storesOp k) = _
    simp [State.perfFence, storesOp, withheldOp]
  rw [State.runOps, hperf]
  by_cases h : ((s.performSome [] s.cx.wbuf).2 || (k != 9 && (s.performSome [] s.cx.wbuf).1.openBefore (s.performSome [] s.cx.wbuf).1.ar.scyc k)) = true
  · rw [if_pos h, if_pos h]
    rfl
  · rw [if_neg h, if_neg h]

theorem CtxsKept.runOps_stores (ks : List Nat) (s : State) : CtxsKept s (s.runOps (ks.map storesOp)) := by
  induction ks generalizing s with
  | nil => exact .refl s
  | cons k ks ih =>
    rw [List.map_cons, State.runOps_storesOp]
    have hp := CtxsKept.performSome [] s.cx.wbuf s
    split
    · exact hp.trans (.modCx _)
    · exact hp.trans (ih _)

/-- With no release among them, every withheld store is performed. -/
theorem State.runOps_stores_wbuf (ks : List Nat) {s : State} (h : s.cx.wbuf = []) : (s.runOps (ks.map storesOp)).cx.wbuf = [] := by
  induction ks generalizing s with
  | nil => exact h
  | cons k ks ih =>
    rw [List.map_cons, State.runOps_storesOp]
    have hp := (State.performSome_free (rest := []) (l := s.cx.wbuf) (by simp [h]) s).2
    split
    · rw [State.holdAt, State.cx_modCx]
      exact hp
    · exact ih hp

theorem State.runOps_all_wbuf (ks : List Nat) {s : State} (h : ∀ e ∈ s.cx.wbuf, e.releases = false) :
    (s.runOps ((9 :: ks).map storesOp)).cx.wbuf = [] := by
  obtain ⟨hwait, hbuf⟩ := State.performSome_free (rest := []) h s
  rw [List.map_cons, State.runOps_storesOp, hwait, if_neg (by simp)]
  exact State.runOps_stores_wbuf ks hbuf

/-! ### The commit at a bundle boundary (R395, R398) -/

/-- The context as a commit at a boundary leaves it, before the stores. -/
def Ctx.checkpoint (k : Ctx) : Ctx := { k with image := k.arch, held := [], nb := 0, wrote := [], ckexp := k.ckexp % 2 ^ 32,
                                               ckimp := (k.ckimp + 1) % 2 ^ 32 }

/-- The record of a commit. -/
def State.traceCommit (s : State) : State :=
  (if s.bun.checked then s.traceRec 3 s.bun.pc s.ar.scyc else s.traceRec 3 (s.nextHeader s.ar.pc) s.cyc) (s.cx.ckexp * 2 ^ 32 + s.cx.ckimp)

theorem CoresKept.traceCommit (s : State) : CoresKept s s.traceCommit := by
  rw [State.traceCommit]
  split
  · exact .traceRec ..
  · exact .traceRec ..

/-- The state that performs the commit's operations. -/
def State.checkpointed (s : State) : State := (s.modCx Ctx.checkpoint).traceCommit.commitResults

theorem State.checkpointed_cx (s : State) : s.checkpointed.cur = s.cur ∧ s.checkpointed.ctx = s.ctx ∧ s.checkpointed.cx = s.cx.checkpoint := by
  have ht := CoresKept.traceCommit (s.modCx Ctx.checkpoint)
  have hres (t : State) : t.commitResults.cx = t.cx := State.ctxAt_modCore t rfl t.cur t.ctx
  refine ⟨ht.cur, ht.ctx, (hres _).trans ?_⟩
  rw [State.cx, ht.cur, ht.ctx, ht.ctxAt]
  exact s.cx_modCx _

theorem State.implicitCommit_eq {s : State} (h : s.cx.held = []) : ∃ ks, s.implicitCommit = s.checkpointed.runOps ((9 :: ks).map storesOp) := by
  by_cases ha : s.bun.after = some .endt
  · refine ⟨[0], ?_⟩
    have hops : s.commitOps [] = [storesOp 9, storesOp 0] := by
      rw [State.commitOps, h, if_pos ha]
      rfl
    rw [State.implicitCommit, State.commit, hops]
    rfl
  · refine ⟨[], ?_⟩
    have hops : s.commitOps [] = [storesOp 9] := by
      rw [State.commitOps, h, if_neg ha]
      rfl
    rw [State.implicitCommit, State.commit, hops]
    rfl

/-- An implicit checkpoint with nothing held: the image is the live state, which stands, and the withheld stores go where none releases. -/
theorem State.implicitCommit_ctx {s : State} (h : s.cx.held = []) : (s.implicitCommit.ctxAt s.cur s.ctx).saved = s.cx.checkpoint.saved ∧
    ((∀ e ∈ s.cx.wbuf, e.releases = false) → (s.implicitCommit.ctxAt s.cur s.ctx).wbuf = []) := by
  obtain ⟨ks, hks⟩ := State.implicitCommit_eq h
  obtain ⟨hcur, hctx, hcx⟩ := s.checkpointed_cx
  have hkept := CtxsKept.runOps_stores (9 :: ks) s.checkpointed
  have hat : s.implicitCommit.ctxAt s.cur s.ctx = s.implicitCommit.cx := by
    rw [State.cx, hks, hkept.cur, hkept.ctx, hcur, hctx]
  refine ⟨?_, fun hw => ?_⟩
  · rw [hks, hkept.saved, ← hcur, ← hctx, ← hcx]
    rfl
  · rw [hat, hks]
    exact State.runOps_all_wbuf ks (by rwa [hcx])

end Sys2Proof.Machine
end

/-! ## Commands that are parked, resumed and cancelled -/

section
namespace Sys2Proof.Machine

/-! ### Tasks that a step leaves alone -/

theorem State.task_modDie (s : State) (d id : Nat) {f : Die → Die} (hf : ∀ x, (f x).tasks = x.tasks := by intro; rfl) :
    (s.modDie d f).task id = s.task id := by
  by_cases h : fld id 18 16 = d
  · rw [State.task, h, State.die_modDie_self, hf, State.task, h]
  · rw [State.task, State.die_modDie_ne _ _ h, State.task]

theorem State.task_of_dies {s t : State} (h : t.dies = s.dies) (id : Nat) : t.task id = s.task id := by
  rw [State.task, State.die, h]
  rfl

theorem State.task_setQueue (s : State) (kind p : Nat) (q : List Cmd) (id : Nat) : (s.setQueue kind p q).task id = s.task id := by
  rw [State.setQueue.eq_def]
  split
  · rfl
  · rfl
  · rfl
  · exact s.task_modDie _ id
  · exact s.task_modDie _ id
  · exact s.task_modDie _ id

theorem State.task_dropReady (s : State) (n id : Nat) : (s.dropReady n).task id = s.task id :=
  State.task_mapDies (f := fun d => { d with copies := d.copies.filter (fun k => !(k.m.kind == 18 && k.lane == n)) }) rfl (fun _ => rfl) rfl id

theorem State.storePA_dies (s : State) (l : List (Nat × Nat)) (pois engine : Bool) : (s.storePA l pois engine).dies = s.dies := by
  unfold State.storePA
  split
  · rfl
  · split
    · rfl
    · rfl

theorem State.frameSr_dies (s : State) (id n : Nat) (user : Bool) (f : Nat → Nat) : (s.frameSr id n user f).dies = s.dies := by
  rw [State.frameSr]
  generalize s.xlate _ _ _ _ = r
  cases r with
  | error e => rfl
  | ok ph => exact State.storePA_dies ..

theorem State.frameDown_dies (s : State) (id cc iss : Nat) (user : Bool) : (s.frameDown id cc iss user).dies = s.dies := by
  obtain ⟨slots, hslots⟩ : ∃ l, List.range 128 = l := ⟨_, rfl⟩
  rw [State.frameDown, hslots]
  generalize s.xlate _ _ _ _ = r
  split
  · rfl
  · extract_lets scyc
    split
    · exact State.frameSr_dies ..
    · exact State.storePA_dies ..

theorem State.counterDown_dies (s : State) (id cc iss : Nat) : (s.counterDown id cc iss).dies = s.dies := by
  rw [State.counterDown]
  split
  · dsimp only
    split
    · exact State.frameDown_dies ..
    · rfl
  · dsimp only
    split
    · exact State.frameDown_dies ..
    · rfl

/-! ### Queues of commands -/

theorem State.queueOf_setQueue (s : State) (p : Nat) (q : List Cmd) : ∀ kind, (s.setQueue kind p q).queueOf kind p = q
  | 0 => congrArg PCore.copyQ (s.core_modCore_self p _)
  | 1 => congrArg Cluster.gq (Tbl.get_put_self _ _ _ _)
  | 2 => congrArg PCore.sieveQ (s.core_modCore_self p _)
  | 3 => congrArg Die.fillQ (s.die_modDie_self (dieOf p) _)
  | 4 => congrArg Die.collQ (s.die_modDie_self (dieOf p) _)
  | _ + 5 => congrArg Die.noteQ (s.die_modDie_self (dieOf p) _)

theorem mem_queueBack (c : Cmd) (l : List Cmd) : c ∈ queueBack c l := by
  induction l with
  | nil => exact List.mem_singleton_self c
  | cons d l ih =>
    rw [queueBack]
    split
    · exact List.mem_cons_self
    · exact List.mem_cons_of_mem _ ih

/-- A parked command that resumes leaves its place and stands in its queue, as it was captured (R155). -/
theorem State.engResume_parked {s : State} {id k : Nat} {q : Cmd} (h : (s.task id).parked.find? (fun t => t.1 == k) = some (k, q)) :
    ((s.engResume id k).task id).parked = Tbl.del (s.task id).parked k ∧
    ∃ r ∈ (s.engResume id k).queueOf q.kind q.pcore, r.id = q.id ∧ r.stg = q.stg ∧ r.fault = none ∧ r.started = false := by
  rw [State.engResume, h]
  dsimp only
  refine ⟨?_, { q with fault := none, started := false, aux := if q.kind = 4 then collResume q.aux else q.aux }, ?_, rfl, rfl, rfl, rfl⟩
  · rw [State.task_setQueue]
    have hpark : ((s.modTask id (fun t => { t with parked := Tbl.del t.parked k })).task id).parked = Tbl.del (s.task id).parked k := by
      rw [State.task_modTask_self]
    split
    · split
      · exact hpark
      · exact hpark
    · exact hpark
  · rw [State.queueOf_setQueue]
    exact mem_queueBack _ _

theorem State.engCancel_parked {s : State} {id k : Nat} {q : Cmd} (h : (s.task id).parked.find? (fun t => t.1 == k) = some (k, q)) :
    ((s.engCancel id k).task id).parked = Tbl.del (s.task id).parked k := by
  have hpark : (((s.dropReady q.id).modTask id (fun t => { t with parked := Tbl.del t.parked k })).task id).parked =
      Tbl.del (s.task id).parked k := by
    rw [State.task_modTask_self, State.task_dropReady]
  have hdown (t : State) (ht : (t.task id).parked = Tbl.del (s.task id).parked k) :
      ((if bit q.h.cmode 0 then t.counterDown id q.h.cc q.capt else t).task id).parked = Tbl.del (s.task id).parked k := by
    split
    · rw [State.task_of_dies (State.counterDown_dies ..)]
      exact ht
    · exact ht
  rw [State.engCancel, h]
  refine hdown _ ?_
  split
  · split
    · exact hpark
    · exact hpark
  · exact hpark

/-- The queue, engine and barrier that a stopped command leaves. -/
def State.unqueueStopped (s : State) (q : QRef) (c : Cmd) : State :=
  let s := s.putQueue q (removeAt (s.queueAt q) q.pos)
  let s := if c.kind = 0 && inPlace c.stg then s.modCore c.pcore (fun p => { p with ttBusy := false }) else s
  if c.h.cmode < 2 then s else
    match clusterAddr c.lcore spSize (c.stg.getD 15 0) 8 with
    | .error _ => s
    | .ok (u, o) => s.barMod u o barFault

theorem State.task_unqueueStopped (s : State) (q : QRef) (c : Cmd) (id : Nat) : (s.unqueueStopped q c).task id = s.task id := by
  have hput := s.task_setQueue q.kind (QRef.core q) (removeAt (s.queueAt q) q.pos) id
  have hbusy (t : State) (h : t.task id = s.task id) (b : Bool) :
      (if b then t.modCore c.pcore (fun p => { p with ttBusy := false }) else t).task id = s.task id := by
    split
    · exact h
    · exact h
  have hstop := hbusy _ hput (c.kind = 0 && inPlace c.stg)
  rw [State.unqueueStopped]
  split
  · exact hstop
  · split
    · exact hstop
    · exact hstop

/-- A stopped command is parked, and its task takes ENGINE with what stopped it (R155). -/
theorem State.faultCmd_eq {s : State} {q : QRef} {c : Cmd} {f : Trap} (hq : (s.queueAt q)[q.pos]? = some c) (hf : c.fault = some f)
    (hs : s.slotTaken c = false) (ht : (s.task c.task).state ≠ 5) : s.faultCmd q =
      ((s.unqueueStopped q c).modTask c.task (fun k => { k with parked := Tbl.put k.parked c.kind c })).modTask c.task
        (fun k => { k with async := k.async ++ [{ f with slot := 9, async := true }] }) := by
  have hlive : (((s.unqueueStopped q c).modTask c.task (fun k => { k with parked := Tbl.put k.parked c.kind c })).task c.task).state ≠ 5 := by
    rw [State.task_modTask_self, State.task_unqueueStopped]
    exact ht
  rw [State.faultCmd, hq]
  dsimp only
  rw [hf]
  dsimp only
  rw [hs, if_neg Bool.false_ne_true]
  exact if_neg hlive

theorem State.faultCmd_parked {s : State} {q : QRef} {c : Cmd} {f : Trap} (hq : (s.queueAt q)[q.pos]? = some c) (hf : c.fault = some f)
    (hs : s.slotTaken c = false) (ht : (s.task c.task).state ≠ 5) :
    (∀ x, Tbl.get x ((s.faultCmd q).task c.task).parked c.kind = c) ∧
    ∃ l, ((s.faultCmd q).task c.task).async = l ++ [{ f with slot := 9, async := true }] := by
  rw [State.faultCmd_eq hq hf hs ht, State.task_modTask_self, State.task_modTask_self]
  exact ⟨fun x => Tbl.get_put_self _ _ _ _, _, rfl⟩

end Sys2Proof.Machine
end

/-! ## Events inside a core and its engines -/

section
namespace Sys2Proof.Machine

/-! ### What the events are -/

theorem exec_implicitCheckpoint (p c : Nat) (s : State) : exec (.implicitCheckpoint p c) s =
    .next (s.within p c (fun s => if s.atBoundary then s.implicitCommit else s)) := rfl

theorem exec_xferComplete (p c : Nat) (s : State) : exec (.xferComplete p c) s =
    .next (s.within p c (fun s => if s.canTransfer then s.finishHold else s)) := rfl

theorem exec_engctlResume (p c k : Nat) (s : State) : exec (.engctlResume p c k) s = .next (s.engResume (s.ctxAt p c).tid k) := rfl

theorem exec_engctlCancel (p c k : Nat) (s : State) : exec (.engctlCancel p c k) s = .next (s.engCancel (s.ctxAt p c).tid k) := rfl

theorem exec_commandStart (q : QRef) (s : State) : exec (.commandStart q) s = .next (if s.canStart q then s.startCmd q else s) := rfl

theorem exec_engineCompletion (q : QRef) (s : State) :
    exec (.engineCompletion q) s = .next (if s.canComplete q then s.completeCmd q else s) := rfl

theorem exec_engineFault (q : QRef) (s : State) : exec (.engineFault q) s = .next (if s.canPark q then s.faultCmd q else s) := rfl

theorem exec_flowstoneDemand (d : Nat) (s : State) :
    exec (.flowstoneDemand d) s = .next (if s.canDemand d then s.serveDemand d else s) := rfl

theorem exec_streamFetch (p c q : Nat) (s : State) : exec (.streamFetch p c q) s = .next (s.within p c (fun s => s.fetchOne q)) := rfl

theorem exec_matrixResultWrite (p n : Nat) (s : State) :
    exec (.matrixResultWrite p n) s = .next (if s.canWrite p n then s.writeResAt p n else s) := rfl

theorem exec_pairTimeout (p c : Nat) (s : State) :
    exec (.pairTimeout p c) s = .next (s.within p c (fun s => if s.pairExpired then s.timeoutPair else s)) := rfl

theorem exec_ticketPartArrive (n : Nat) (s : State) : exec (.ticketPartArrive n) s = .next (s.bringPart n false) := rfl

theorem exec_ticketPartRetry (n : Nat) (s : State) : exec (.ticketPartRetry n) s = .next (s.bringPart n true) := rfl

theorem exec_ticketGap (l td : Nat) (s : State) : exec (.ticketGap l td) s = .next (if s.gapDue l td then s.gapEvent l td else s) := rfl

theorem exec_selectorPromotion (p c : Nat) (s : State) : exec (.selectorPromotion p c) s =
    .next (s.modCtxAt p c (fun k => if 64 ≤ k.wait && !k.prom then { k with prom := true, promCyc := (s.core p).cyc } else k)) := rfl

/-- What runs for a context is read off what it makes of the state that issues from it. -/
theorem State.within_congr {s : State} {p c : Nat} {f g : State → State}
    (h : f { s with cur := p, ctx := c } = g { s with cur := p, ctx := c }) : s.within p c f = s.within p c g := by
  rw [State.within, h, State.within]

theorem State.ctxAt_within (s : State) (p c q r : Nat) (f : State → State) :
    (s.within p c f).ctxAt q r = (f { s with cur := p, ctx := c }).ctxAt q r := rfl

theorem State.ctxAt_modCtxAt_self (s : State) (p c : Nat) (f : Ctx → Ctx) : (s.modCtxAt p c f).ctxAt p c = f (s.ctxAt p c) :=
  State.ctxAt_setCtxAt_self ..

/-! ### Loads -/

/-- Data of a load that a context itself awaits reaches its registers, live and in the image (R121, R402). -/
theorem exec_loadDataArrive_ctx {s : State} {p c n : Nat} {q : PendLoad} (h : s.loadAt n = some (.ctx p c q)) (hw : q.waits = false)
    (hf : (s.ctxAt p c).frameLoads = []) (hs : q.toStream = false) : exec (.loadDataArrive p c n) s = .next (s.within p c (fun s =>
      s.asyncWrite s.cur s.ctx (fun a => a.arrive q s.cx.owed))) := by
  have hgive : exec (.loadDataArrive p c n) s = .next (s.giveLoad n id) := by
    change execLoadDataArrive p c n s = _
    simp only [execLoadDataArrive, h, hw]
    simp
  have hhere (v : State) (hv : v.cx.frameLoads = []) : v.arriveHere (id q) = v.asyncWrite v.cur v.ctx (fun a => a.arrive q v.cx.owed) := by
    rw [State.arriveHere, hv]
    simp [hs]
  rw [hgive, State.giveLoad, h]
  exact congrArg _ (State.within_congr (hhere _ hf))

theorem exec_lateData_trap {s : State} {p c n : Nat} {o : Offer} {x : SlotInst} {t : Trap}
    (h : ({ s with cur := p, ctx := c } : State).prep = .trap o x t) (ht : t.cause = 8)
    (hq : ∃ q ∈ ({ s with cur := p, ctx := c } : State).ar.loads, q.id = n ∧ q.addr = t.d1) :
    exec (.lateData p c n) s = .next (s.within p c (fun s => s.trapOffer o x t)) := by
  change Host.Outcome.next _ = _
  refine congrArg _ (State.within_congr ?_)
  obtain ⟨q, hq, hid, haddr⟩ := hq
  have hany : ({ s with cur := p, ctx := c } : State).ar.loads.any (fun q => q.id == n && q.addr == t.d1) = true :=
    List.any_eq_true.2 ⟨q, hq, by simp [hid, haddr]⟩
  simp only [h, ht, hany]
  rfl

theorem exec_feWaitSatisfy_full {s : State} {n l : Nat} {k : LCore} {w : BankWait} (p c : Nat)
    (h : s.lcores.find? (fun t => t.2.waits.any (fun w => w.id == n)) = some (l, k)) (hw : s.fullWait l = some w) (hid : w.id = n) :
    exec (.feWaitSatisfy p c n) s = .next (s.satisfy l w) := by
  change execFeWaitSatisfy p c n s = _
  simp only [execFeWaitSatisfy, h, hw, hid, if_true]

/-! ### Replays and matrix results -/

/-- A register holds its value again, and its replay is over. -/
def Ctx.replayed (k : Ctx) (r x : Nat) : Ctx :=
  { k with replay := none, arch := { k.arch.setV r (BitVec.ofNat 2048 x) with
      vst := Tbl.put k.arch.vst r 1, vpois := Tbl.del k.arch.vpois r } }

theorem Ctx.replayed_getV (k : Ctx) (r x : Nat) : (k.replayed r x).arch.getV r = BitVec.ofNat 2048 x :=
  (if_pos (Tbl.get_put_self _ _ _ _)).trans (Tbl.get_put_self _ _ _ _)

theorem exec_recipeReplay_due {s : State} {p c r x v : Nat} (h : (s.ctxAt p c).replay = some ⟨r, x, v⟩) (hv : v < (s.core p).cyc) :
    exec (.recipeReplay p c r) s = .next (s.within p c (fun s => s.modCx (fun k => k.replayed r x))) := by
  have hcx : ({ s with cur := p, ctx := c } : State).cx.replay = some ⟨r, x, v⟩ := h
  have hland : ({ s with cur := p, ctx := c } : State).landReplay = ({ s with cur := p, ctx := c } : State).modCx (fun k => k.replayed r x) := by
    rw [State.landReplay, hcx]
    exact if_pos hv
  change Host.Outcome.next _ = _
  refine congrArg _ (State.within_congr ?_)
  simp only [hcx, if_true]
  exact hland

theorem State.canWrite_of {s : State} {p n : Nat} {r : MRes} (hr : (s.core p).matPend[n]? = some r) (ha : s.asleep p = false)
    (hc : r.committed = true) (hw : r.written = false) (hd : r.at_ < (s.core p).cyc) (ho : (s.ctxAt p r.ctx).commitOver = true)
    (hb : ∀ q ∈ (s.core p).matPend.take n, q.ctx = r.ctx → q.written = true) : s.canWrite p n = true := by
  have hall : ((s.core p).matPend.take n).all (fun q => q.ctx != r.ctx || q.written) = true := by
    refine List.all_eq_true.2 fun q hq => ?_
    by_cases hx : q.ctx = r.ctx
    · rw [hb q hq hx, Bool.or_true]
    · rw [bne_iff_ne.2 hx, Bool.true_or]
  rw [State.canWrite, hr]
  simp only [ha, hc, hw, ho, hall, decide_eq_true hd]
  rfl

theorem State.cutWindows_foldl (k : Space) (u n : Nat) (off : Nat → Nat) (l : List Nat) (s : State) :
    (l.foldl (fun s m => s.cutWindows k u (off m) n) s).lcores = s.lcores ∧ (l.foldl (fun s m => s.cutWindows k u (off m) n) s).mem = s.mem := by
  induction l generalizing s with
  | nil => exact ⟨rfl, rfl⟩
  | cons m l ih => exact ih (s.cutWindows k u (off m) n)

/-- A result that is written changes its tile, and no memory. -/
theorem State.writeResAt_tile {s : State} {p n : Nat} {r : MRes} (hr : (s.core p).matPend[n]? = some r) :
    (s.writeResAt p n).lcores = (s.writeRes r).lcores ∧ (s.writeResAt p n).mem = s.mem := by
  rw [State.writeResAt, hr]
  exact State.cutWindows_foldl .acc r.lcore 512 (tileOff r.tile) (List.range r.a.length) { s.writeRes r with cur := p, ctx := r.ctx }

/-! ### Ticketed parts (R319 to R322) -/

theorem findIdx?_append_of_not {α : Type} {f : α → Bool} {l m : List α} {a : α} (hl : ∀ b ∈ l, f b = false) (ha : f a = true) (i : Nat) :
    findIdx? f (l ++ a :: m) i = some (i + l.length, a) := by
  induction l generalizing i with
  | nil => exact if_pos ha
  | cons b l ih =>
    rw [List.cons_append, findIdx?, hl b List.mem_cons_self, if_neg Bool.false_ne_true, ih (fun c hc => hl c (List.mem_cons_of_mem _ hc)),
      List.length_cons, Nat.add_right_comm, Nat.add_assoc]

theorem removeAt_append {α : Type} (l m : List α) (a : α) : removeAt (l ++ a :: m) l.length = l ++ m := by
  induction l with
  | nil => rfl
  | cons b l ih => exact congrArg (b :: ·) ih

/-- The first part of its number and its kind leaves its way and reaches its controller. -/
theorem State.bringPart_first {s : State} {p : Part} {l m : List Part} (h : s.parts = l ++ p :: m)
    (hl : ∀ q ∈ l, q.id ≠ p.id ∨ q.refused ≠ p.refused) : s.bringPart p.id p.refused = ({ s with parts := l ++ m } : State).deliverPart p := by
  have hfind : findIdx? (fun q => q.id == p.id && q.refused == p.refused) s.parts 0 = some (l.length, p) := by
    rw [h, findIdx?_append_of_not (fun q hq => ?_) (by simp), Nat.zero_add]
    rw [Bool.and_eq_false_iff, beq_eq_false_iff_ne, beq_eq_false_iff_ne]
    exact hl q hq
  rw [State.bringPart, hfind]
  dsimp only
  rw [h, removeAt_append]

theorem State.gapEvent_lcores (s : State) (l td : Nat) : (s.gapEvent l td).lcores =
    (s.modLcore l (fun c => c.setDom td { (s.lcore l).dom td with gapev := true, timer := 0 })).lcores := rfl

/-- A ticket gap marks its domain and starts its timer again; no byte changes. -/
theorem State.gapEvent_dom (s : State) (l td : Nat) : (((s.gapEvent l td).lcore l).dom td).gapev = true ∧
    (((s.gapEvent l td).lcore l).dom td).timer = 0 ∧ ((s.gapEvent l td).lcore l).acc = (s.lcore l).acc := by
  have h : (s.gapEvent l td).lcore l = (s.lcore l).setDom td { (s.lcore l).dom td with gapev := true, timer := 0 } := by
    rw [State.lcore, State.gapEvent_lcores]
    exact s.lcore_modLcore_self l _
  rw [h, LCore.dom_setDom_same]
  exact ⟨rfl, rfl, rfl⟩

/-! ### Their conditions -/

/-- Settles O52: each event is unfolded under its condition; `State.implicitCommit_ctx` says what a checkpoint leaves, `State.engResume_parked` and
`State.faultCmd_parked` what becomes of parked commands, `State.bringPart_first` which part arrives. -/
theorem coreEvents : Obligations.CoreEvents := by
  refine ⟨fun s p c h => ?checkpoint, fun s p c h => ?transfer, fun s p c k q h => ?parked, fun s q => ⟨fun h => ?_, fun h => ?_, fun c f hq hf hs ht => ?fault⟩,
    fun s d h => ?_, fun s p c n q h hw hf hs => ?load, fun s p c n o x t => exec_lateData_trap, fun s p c n l k w => exec_feWaitSatisfy_full p c,
    fun s p c q n st => ?fetch, fun s p c r v x h hv => ?replay, fun s p n r hr ha hc hw hd ho hb => ?result, fun s p c g k l h hk => ?pair,
    fun s p l m h hl => ⟨fun hr => ?_, fun hr => ?_⟩, fun s l td h => ?gap, fun s p c t => ?trap, fun s p c hw hp => ?promote⟩
  case checkpoint =>
    refine ⟨_, (exec_implicitCheckpoint p c s).trans (congrArg _ (State.within_congr (g := State.implicitCommit) (if_pos h))), fun hh => ?_⟩
    rw [State.ctxAt_within]
    obtain ⟨hsaved, hbuf⟩ := State.implicitCommit_ctx (s := { s with cur := p, ctx := c }) hh
    simp only [Ctx.saved, Prod.mk.injEq] at hsaved
    obtain ⟨harch, himage, hheld, hexp, himp⟩ := hsaved
    exact ⟨himage, harch, hheld, hbuf, himp, hexp⟩
  case transfer =>
    rw [exec_xferComplete]
    exact congrArg _ (State.within_congr (if_pos h))
  case parked =>
    rw [exec_engctlResume, exec_engctlCancel]
    exact ⟨⟨_, rfl, State.engResume_parked h⟩, _, rfl, State.engCancel_parked h⟩
  · rw [exec_commandStart, if_pos h]
  · rw [exec_engineCompletion, if_pos h]
  case fault =>
    have hpark : s.canPark q = true := by
      rw [State.canPark, hq]
      simp [hf, hs]
    rw [exec_engineFault, if_pos hpark]
    exact ⟨_, rfl, State.faultCmd_parked hq hf hs ht⟩
  · rw [exec_flowstoneDemand, if_pos h]
  case load =>
    refine ⟨_, exec_loadDataArrive_ctx h hw hf hs, ?_, ?_, rfl, rfl⟩
    · rw [State.ctxAt_within, State.asyncWrite, State.ctxAt_modCtxAt_self]
      rfl
    · rw [State.ctxAt_within, State.asyncWrite, State.ctxAt_modCtxAt_self]
      rfl
  case fetch =>
    intro v hv hn
    rw [exec_streamFetch]
    refine congrArg _ (State.within_congr ?_)
    change v.fetchOne q = _
    rw [State.fetchOne, if_pos hv, hn]
  case replay =>
    refine ⟨_, exec_recipeReplay_due h hv, ?_⟩
    rw [State.ctxAt_within]
    have hcx : (({ s with cur := p, ctx := c } : State).modCx (fun k => k.replayed r x)).ctxAt p c = (s.ctxAt p c).replayed r x :=
      State.cx_modCx { s with cur := p, ctx := c } _
    rw [hcx]
    exact ⟨rfl, Ctx.replayed_getV _ _ _, Tbl.get_put_self _ _ _ _, rfl⟩
  case result =>
    rw [exec_matrixResultWrite, if_pos (State.canWrite_of hr ha hc hw hd ho hb)]
    exact ⟨_, rfl, State.writeResAt_tile hr⟩
  case pair =>
    have hexp : ({ s with cur := p, ctx := c } : State).pairExpired = true := by
      have hcx : ({ s with cur := p, ctx := c } : State).cx.presented = some (g, k, l) := h
      rw [State.pairExpired, hcx]
      exact decide_eq_true hk
    rw [exec_pairTimeout]
    exact congrArg _ (State.within_congr (if_pos hexp))
  · rw [exec_ticketPartArrive, ← hr, State.bringPart_first h hl]
  · rw [exec_ticketPartRetry, ← hr, State.bringPart_first h hl]
  case gap =>
    rw [exec_ticketGap, if_pos h]
    exact ⟨_, rfl, s.gapEvent_dom l td⟩
  case trap =>
    intro v hv hpend
    change Host.Outcome.next _ = _
    refine congrArg _ (State.within_congr ?_)
    change (match v.prep with
      | .stop t => if v.cx.trpend.isSome || !v.myTask.async.isEmpty then v.takeStop t else v
      | _ => v) = v.takeStop t
    rw [hv]
    exact if_pos (by simpa using hpend)
  case promote =>
    refine ⟨_, exec_selectorPromotion p c s, ?_⟩
    rw [State.ctxAt_modCtxAt_self, if_pos (by simp [hw, hp])]
    exact ⟨rfl, rfl, rfl, rfl, rfl⟩

end Sys2Proof.Machine
end

/-! ## Events that change a task's state -/

section
namespace Sys2Proof.Machine

/-! ### What the events are -/

theorem exec_taskDispatch (p c : Nat) (s : State) : exec (.taskDispatch p c) s = .next (if s.canDispatch p c then s.dispatch p c else s) := rfl

theorem exec_taskTerminate (p c : Nat) (s : State) : exec (.taskTerminate p c) s = .next (s.within p c (fun s =>
    match s.cx.task with
    | none => s
    | some id =>
      let s := (List.range 4).foldl (fun s n => s.leaveGroup id n) s
      ((s.dropLocks id).modTask id (fun t => { t with state := 5, async := [] })).freeCtx)) := rfl

theorem exec_resumption (id : Nat) (s : State) :
    exec (.resumption id) s = .next ((s.savedWith id).foldl (fun s t => s.readyAgain t) (s.readyAgain id)) := rfl

theorem exec_launchComplete (d n : Nat) (s : State) : exec (.launchComplete d n) s =
    .next (match s.launches.find? (fun l => l.id == n && l.die == d) with
      | some l => if s.launchOver l then s.endLaunch l else s
      | none => s) := rfl

/-! ### Dispatch (R213, R383) -/

theorem startArch_getX_one (t : Task) : ((startArch t).getX 1).toNat = t.arg % 2 ^ 64 := by
  rw [startArch, Arch.getX_setX_self _ _ (by decide), BitVec.toNat_ofNat]

theorem startArch_getX_ne (t : Task) {r : Nat} (h : r ≠ 1) : (startArch t).getX r = 0 := by
  rw [startArch, Arch.getX_setX_ne _ _ h, Arch.getX]
  split <;> rfl

/-- The issuing context starts a task from its record. -/
def State.started (s : State) (id : Nat) : State :=
  (s.modTask id (fun k => { k with state := 3, ran := true, flush := 0 })).setCx
    { task := some id, stop := s.cx.stop, stopped := s.cx.stopped, arch := startArch (s.task id), image := startArch (s.task id) }

theorem State.takeTask_new {s : State} {id : Nat} (h : (s.task id).ran = false) : s.takeTask id = s.started id := by
  rw [State.takeTask]
  exact if_neg (by rw [h]; decide)

theorem State.started_arch (s : State) (id : Nat) : (s.started id).cx.task = some id ∧ (s.started id).cx.arch = startArch (s.task id) ∧
    (s.started id).cx.image = startArch (s.task id) := by
  rw [State.started, State.cx_setCx]
  exact ⟨rfl, rfl, rfl⟩

theorem State.started_task (s : State) (id : Nat) : ((s.started id).task id).state = 3 := by
  have h := s.task_modTask_self id (fun k => { k with state := 3, ran := true, flush := 0 })
  exact congrArg Task.state h

theorem State.core_setCtxAt_self (s : State) (p c : Nat) (k : Ctx) :
    (s.setCtxAt p c k).core p = { s.core p with ctxs := Tbl.put (s.core p).ctxs c k } := State.core_modCore_self ..

theorem State.started_ready (s : State) (id : Nat) : ((s.started id).core s.cur).ready = (s.core s.cur).ready := by
  have h : (s.started id).core s.cur = _ := (s.modTask id _).core_setCtxAt_self s.cur s.ctx _
  rw [h]
  rfl

/-- The head of a ready queue leaves it. -/
def State.popReady (s : State) (p n : Nat) (rest : List Nat) : State := s.modCore p (fun q => { q with ready := Tbl.put q.ready n rest })

theorem State.popReady_ready (s : State) (p n : Nat) (rest : List Nat) : Tbl.get [] ((s.popReady p n rest).core p).ready n = rest := by
  rw [State.popReady, State.core_modCore_self, Tbl.get_put_self]

theorem State.canDispatch_head {s : State} {p c n id : Nat} {rest : List Nat} (hc : (s.ctxAt p c).task = none) (hl : (s.core p).level = some n)
    (hq : Tbl.get [] (s.core p).ready n = id :: rest) (hm : s.mayStart id = true) (ha : s.asleep p = false) : s.canDispatch p c = true := by
  rw [State.canDispatch, hc, ha, hl]
  simp [hq, hm]

theorem State.dispatch_head {s : State} {p n id : Nat} {rest : List Nat} (c : Nat) (hl : (s.core p).level = some n)
    (hq : Tbl.get [] (s.core p).ready n = id :: rest) : s.dispatch p c =
      (s.popReady p n rest).within p c (fun s => s.takeTask id) := by
  rw [State.dispatch, hl]
  simp only [hq]
  rfl

/-! ### Saving (R388, R390, R410) -/

theorem Tbl.any_of_get {α : Type} {d : α} {g : α → Bool} (hd : g d = false) {t : Tbl α} {k : Nat} (h : g (Tbl.get d t k) = true) :
    t.any (fun x => g x.2) = true := by
  induction t with
  | nil => exact absurd (hd.symm.trans h) Bool.false_ne_true
  | cons a t ih =>
    rw [Tbl.get_cons] at h
    rw [List.any_cons, Bool.or_eq_true]
    split at h
    · exact .inl h
    · exact .inr (ih h)

/-- A test of all entries sees a new entry as the one that it replaces. -/
theorem Tbl.any_put {α : Type} {d v : α} {g : α → Bool} (hd : g d = false) {t : Tbl α} {k : Nat} (hv : g v = g (Tbl.get d t k)) :
    (Tbl.put t k v).any (fun x => g x.2) = t.any (fun x => g x.2) := by
  induction t with
  | nil => exact (Bool.or_false _).trans (hv.trans hd)
  | cons a t ih =>
    have hget : g v = true → (a :: t).any (fun x => g x.2) = true := fun h => Tbl.any_of_get hd (hv ▸ h)
    rw [Tbl.put]
    split
    · rw [List.any_cons]
      cases hgv : g v with
      | false => exact Bool.false_or _
      | true => rw [hget hgv, Bool.true_or]
    · rw [Tbl.get_cons] at hv
      split
      · next he =>
        rw [if_pos he] at hv
        rw [List.any_cons, List.any_cons, hv]
      · next he =>
        rw [if_neg he] at hv
        rw [List.any_cons, List.any_cons, ih hv]

theorem State.farOpen_modDie (s : State) (d : Nat) {f : Die → Die} (hf : (f (s.die d)).copies = (s.die d).copies) (g : Copy → Bool) :
    (s.modDie d f).farOpen g = s.farOpen g :=
  Tbl.any_put (d := ({} : Die)) (g := fun x => x.copies.any (fun k => k.task == s.tid && g k)) rfl
    (congrArg (fun l => l.any (fun k => k.task == s.tid && g k)) hf)

theorem State.asleep_modDie (s : State) (d p : Nat) {f : Die → Die} (hf : ∀ x, (f x).elw = x.elw := by intro; rfl) :
    (s.modDie d f).asleep p = s.asleep p := by
  by_cases h : dieOf p = d
  · rw [State.asleep, h, State.die_modDie_self, hf, State.asleep, h]
  · rw [State.asleep, State.die_modDie_ne _ _ h, State.asleep]

def Ctx.flag (k : Ctx) : Ctx := { k with preempt := true }

/-- The issuing context is flagged for a pre-emption, and a task's record changes. -/
def State.flagged (s : State) (id : Nat) (g : Task → Task) : State := (s.modCx Ctx.flag).modTask id g

theorem State.flagged_cx (s : State) (id : Nat) (g : Task → Task) : (s.flagged id g).cx = s.cx.flag := s.cx_modCx Ctx.flag

theorem State.flagged_core (s : State) (id : Nat) (g : Task → Task) : ((s.flagged id g).core s.cur).cyc = (s.core s.cur).cyc ∧
    ((s.flagged id g).core s.cur).matPend = (s.core s.cur).matPend := by
  have h : (s.flagged id g).core s.cur = _ := s.core_setCtxAt_self s.cur s.ctx s.cx.flag
  rw [h]
  exact ⟨rfl, rfl⟩

theorem State.flagged_farOpen (s : State) (id : Nat) (g : Task → Task) (f : Copy → Bool) : (s.flagged id g).farOpen f = s.farOpen f := by
  have htid : (s.modCx Ctx.flag).tid = s.tid := by
    rw [State.tid, State.cx_modCx]
    rfl
  rw [State.flagged, State.modTask, State.setTask, State.farOpen_modDie _ _ rfl, State.farOpen, htid]
  rfl

theorem State.flagged_openBefore (s : State) (id : Nat) (g : Task → Task) (iss slot : Nat) :
    (s.flagged id g).openBefore iss slot = s.openBefore iss slot := by
  simp only [State.openBefore, State.farAcc, State.flagged_farOpen, State.ar, State.tid, State.flagged_cx]
  rfl

/-- Whether a context may be saved is as before it was flagged. -/
theorem State.flagged_canSave (s : State) (id : Nat) (g : Task → Task) : (s.flagged id g).canSave = s.canSave := by
  obtain ⟨hcyc, hpend⟩ := s.flagged_core id g
  have hasleep : (s.flagged id g).asleep s.cur = s.asleep s.cur := (s.modCx Ctx.flag).asleep_modDie _ _
  have hown : (s.flagged id g).matOwn = s.matOwn := congrArg (List.filter (fun r : MRes => r.ctx == s.ctx && !r.written)) hpend
  have hwaits : (s.flagged id g).releaseWaits s.cx.flag.held = s.releaseWaits s.cx.held := by
    simp only [State.releaseWaits, State.flagged_openBefore, State.ar, State.flagged_cx]
    rfl
  simp only [State.canSave, State.flagged_cx, hown]
  rw [show (s.flagged id g).cur = s.cur from rfl, hasleep, hcyc, hwaits]
  rfl

theorem State.savePreempted_due {s : State} {p c : Nat} (hp : (s.ctxAt p c).preempt = true)
    (hc : ({ s with cur := p, ctx := c } : State).canSave = true) : s.savePreempted p c = s.within p c (fun s =>
      (s.modCx (fun k => { k with preempt := false, stop := false, stopped := false, replay := none, presented := none })).saveCtx false) :=
  State.within_congr (if_pos (by rw [hc, Bool.and_true]; exact hp))

theorem exec_preempt_alone {s : State} {p c id : Nat} (ht : (s.ctxAt p c).task = some id) (hl : s.preemptSet id = [(p, c)]) :
    exec (.preempt p c) s =
      .next (((s.modCtxAt p c Ctx.flag).modTask id (fun k => { k with gp := false })).savePreempted p c) := by
  have htid : ((s.modCtxAt p c Ctx.flag).ctxAt p c).tid = id := by
    rw [State.ctxAt_modCtxAt_self]
    exact congrArg (Option.getD · 0) ht
  have hexec : exec (.preempt p c) s = .next (((s.modCtxAt p c Ctx.flag).modTask ((s.modCtxAt p c Ctx.flag).ctxAt p c).tid
      (fun k => { k with gp := false })).savePreempted p c) := by
    change execPreempt p c s = _
    simp only [execPreempt, ht, hl, List.foldl_cons, List.foldl_nil]
    rfl
  rw [hexec, htid]

/-! ### A context that becomes free -/

theorem State.writeResAt_dies (s : State) (p i : Nat) : (s.writeResAt p i).dies = s.dies ∧ (s.writeResAt p i).mem = s.mem := by
  have hcut (off : Nat → Nat) (u : Nat) (l : List Nat) (t : State) :
      (l.foldl (fun s m => s.cutWindows .acc u (off m) 512) t).dies = t.dies := by
    induction l generalizing t with
    | nil => rfl
    | cons m l ih => exact ih (t.cutWindows .acc u (off m) 512)
  cases hr : (s.core p).matPend[i]? with
  | none =>
    rw [State.writeResAt, hr]
    exact ⟨rfl, rfl⟩
  | some r =>
    refine ⟨?_, (State.writeResAt_tile hr).2⟩
    rw [State.writeResAt, hr]
    exact hcut (tileOff r.tile) r.lcore (List.range r.a.length) { s.writeRes r with cur := p, ctx := r.ctx }

theorem State.matSettle_dies (s : State) : s.matSettle.dies = s.dies ∧ s.matSettle.mem = s.mem := by
  refine List.foldlRecOn (motive := fun t : State => t.dies = s.dies ∧ t.mem = s.mem) _ _ ⟨rfl, rfl⟩ fun t h i _ => ?_
  split
  · split
    · obtain ⟨hdies, hmem⟩ := t.writeResAt_dies t.cur i
      exact ⟨hdies.trans h.1, hmem.trans h.2⟩
    · exact h
  · exact h

/-- With nothing committed left to write, no result is written. -/
theorem State.matSettle_done {s : State} (h : ∀ r ∈ (s.core s.cur).matPend, r.ctx = s.ctx → r.committed = false ∨ r.written = true) :
    s.matSettle = s := by
  refine List.foldl_fixed' (fun i => ?_) _
  split
  · next r hr =>
    refine if_neg fun hc => ?_
    simp only [Bool.and_eq_true, beq_iff_eq, Bool.not_eq_true'] at hc
    obtain ⟨⟨hctx, hw⟩, hcom⟩ := hc
    rcases h r (List.mem_of_getElem? hr) hctx with hn | hn
    · exact Bool.false_ne_true (hn.symm.trans hcom)
    · exact Bool.false_ne_true (hw.symm.trans hn)
  · rfl

theorem State.freeCtx_ctx (s : State) : (s.freeCtx.ctxAt s.cur s.ctx).task = none := by
  have hm : CtxsKept s s.matSettle := .matFlushIf s _
  rw [State.freeCtx, ← hm.cur, ← hm.ctx, State.ctxAt_modCore _ rfl]
  exact congrArg Ctx.task (State.ctxAt_setCtxAt_self ..)

theorem State.die_mapDies {s t : State} {f : Die → Die} (h0 : f {} = {}) (h : t.dies = s.dies.map (fun d => (d.1, f d.2))) (k : Nat) :
    t.die k = f (s.die k) := by
  rw [State.die, h]
  exact Tbl.get_map (g := fun d => (d.1, f d.2)) (fun _ => rfl) h0 s.dies

theorem State.die_dropGot (s : State) (g : Nat → Bool) (d : Nat) :
    ((s.dropGot g).die d).tasks = (s.die d).tasks ∧ ((s.dropGot g).die d).locks = (s.die d).locks := by
  rw [State.die_mapDies (s := s) (t := s.dropGot g) (f := fun x => { x with copies := x.copies.map (fun k =>
    if k.m.kind == 1 && k.req != 0 && g k.req then { k with stale := true } else k) }) rfl rfl]
  exact ⟨rfl, rfl⟩

theorem State.die_of_dies {s t : State} (h : t.dies = s.dies) (d : Nat) : t.die d = s.die d := by
  rw [State.die, h, State.die]

theorem State.die_freeCtx (s : State) (d : Nat) : (s.freeCtx.die d).tasks = (s.die d).tasks ∧ (s.freeCtx.die d).locks = (s.die d).locks := by
  have hfree : s.freeCtx.die d = (s.matSettle.dropGotOf s.matSettle.cur s.matSettle.ctx).die d := State.die_of_dies rfl d
  rw [hfree, ← State.die_of_dies s.matSettle_dies.1 d]
  exact State.die_dropGot ..

theorem State.task_freeCtx (s : State) (id : Nat) : s.freeCtx.task id = s.task id := by
  rw [State.task, (s.die_freeCtx _).1, State.task]

theorem State.freeCtx_mem (s : State) : s.freeCtx.mem = s.mem := s.matSettle_dies.2

theorem State.freeCtx_lcores {s : State} (h : ∀ r ∈ (s.core s.cur).matPend, r.ctx = s.ctx → r.committed = false ∨ r.written = true) :
    s.freeCtx.lcores = s.lcores := by
  have hset : s.freeCtx.lcores = s.matSettle.lcores := rfl
  rw [hset, State.matSettle_done h]

/-! ### Termination (R101, R378, R386) -/

/-- From `s` to `t`, nothing but the dies' records changes of what a termination speaks of. -/
structure DiesOnly (s t : State) : Prop where
  cores : t.cores = s.cores
  cur : t.cur = s.cur
  ctx : t.ctx = s.ctx
  mem : t.mem = s.mem
  lcores : t.lcores = s.lcores

theorem DiesOnly.refl (s : State) : DiesOnly s s := ⟨rfl, rfl, rfl, rfl, rfl⟩

theorem DiesOnly.trans {s t u : State} (h : DiesOnly s t) (k : DiesOnly t u) : DiesOnly s u :=
  ⟨k.cores.trans h.cores, k.cur.trans h.cur, k.ctx.trans h.ctx, k.mem.trans h.mem, k.lcores.trans h.lcores⟩

theorem DiesOnly.foldl {α : Type} {f : State → α → State} (hf : ∀ s a, DiesOnly s (f s a)) (l : List α) (s : State) :
    DiesOnly s (l.foldl f s) := by
  induction l generalizing s with
  | nil => exact .refl s
  | cons a l ih => exact (hf s a).trans (ih _)

theorem DiesOnly.modDie (s : State) (d : Nat) (f : Die → Die) : DiesOnly s (s.modDie d f) := ⟨rfl, rfl, rfl, rfl, rfl⟩

theorem DiesOnly.modGroup (s : State) (d gid : Nat) (f : Group → Group) : DiesOnly s (s.modGroup d gid f) := by
  rw [State.modGroup]
  split
  · exact .foldl (fun t k => .modDie t k _) _ s
  · exact .modDie s d _

theorem State.task_modGroup (s : State) (d gid id : Nat) (f : Group → Group) : (s.modGroup d gid f).task id = s.task id := by
  rw [State.modGroup]
  split
  · exact List.foldlRecOn (motive := fun t : State => t.task id = s.task id) _ _ rfl
      fun t h k _ => (t.task_modDie k id).trans h
  · exact s.task_modDie d id

/-- A task's own record of the group of a slot, as leaving it makes it. -/
def Task.left (t : Task) (n : Nat) : Task := { t with gv := Tbl.put t.gv n false, gw := Tbl.put t.gw n false }

theorem State.leaveGroup_some {s : State} {id n gid : Nat} (h : (s.task id).slotGid n = some gid) :
    ∃ g, s.leaveGroup id n = (s.modTask id (fun t => t.left n)).modGroup (dieOf (s.task id).lcore) gid g := by
  rw [State.leaveGroup]
  simp only [h]
  exact ⟨_, rfl⟩

theorem State.leaveGroup_none {s : State} {id n : Nat} (h : (s.task id).slotGid n = none) : s.leaveGroup id n = s := by
  rw [State.leaveGroup]
  simp only [h]

theorem DiesOnly.leaveGroup (s : State) (id n : Nat) : DiesOnly s (s.leaveGroup id n) := by
  cases h : (s.task id).slotGid n with
  | none =>
    rw [State.leaveGroup_none h]
    exact .refl s
  | some gid =>
    obtain ⟨g, hg⟩ := State.leaveGroup_some h
    rw [hg]
    exact (DiesOnly.modDie s _ _).trans (.modGroup _ _ _ g)

theorem Task.left_slotGid (t : Task) (n m : Nat) : (t.left n).slotGid m = if m = n then none else t.slotGid m := by
  by_cases h : m = n
  · rw [if_pos h, h]
    exact if_neg (by rw [Task.left, Tbl.get_put_self]; decide)
  · rw [if_neg h, Task.slotGid, Task.left, Tbl.get_put_ne _ _ _ h, Task.slotGid]

/-- A task is in no group of a slot that it left, and in none of another slot that it was not in. -/
theorem State.leaveGroup_slotGid (s : State) (id n : Nat) : ((s.leaveGroup id n).task id).slotGid n = none ∧
    ∀ m, (s.task id).slotGid m = none → ((s.leaveGroup id n).task id).slotGid m = none := by
  cases h : (s.task id).slotGid n with
  | none =>
    rw [State.leaveGroup_none h]
    exact ⟨h, fun _ hm => hm⟩
  | some gid =>
    obtain ⟨g, hg⟩ := State.leaveGroup_some h
    rw [hg, State.task_modGroup, State.task_modTask_self]
    refine ⟨(Task.left_slotGid _ n n).trans (if_pos rfl), fun m hm => ?_⟩
    rw [Task.left_slotGid, hm, ite_self]

/-- A task leaves the groups of several slots. -/
def State.leaveGroups (s : State) (id : Nat) (ns : List Nat) : State := ns.foldl (fun s n => s.leaveGroup id n) s

theorem State.leaveGroups_slotGid (id : Nat) (ns : List Nat) (s : State) {m : Nat} (h : m ∈ ns ∨ (s.task id).slotGid m = none) :
    ((s.leaveGroups id ns).task id).slotGid m = none := by
  induction ns generalizing s with
  | nil => exact h.resolve_left List.not_mem_nil
  | cons n ns ih =>
    obtain ⟨hsame, hother⟩ := s.leaveGroup_slotGid id n
    refine ih (s.leaveGroup id n) ?_
    rcases h with hm | hm
    · rcases List.mem_cons.1 hm with rfl | hm
      · exact .inr hsame
      · exact .inl hm
    · exact .inr (hother m hm)

/-- A terminated task's state before its context is free. -/
def State.terminated (s : State) (id : Nat) : State :=
  ((s.leaveGroups id (List.range 4)).dropLocks id).modTask id (fun t => { t with state := 5, async := [] })

theorem DiesOnly.leaveGroups (s : State) (id : Nat) (ns : List Nat) : DiesOnly s (s.leaveGroups id ns) :=
  .foldl (fun t n => .leaveGroup t id n) ns s

theorem DiesOnly.dropLocks (s : State) (id : Nat) : DiesOnly s (s.dropLocks id) := ⟨rfl, rfl, rfl, rfl, rfl⟩

theorem DiesOnly.modTask (s : State) (id : Nat) (f : Task → Task) : DiesOnly s (s.modTask id f) := ⟨rfl, rfl, rfl, rfl, rfl⟩

theorem DiesOnly.terminated (s : State) (id : Nat) : DiesOnly s (s.terminated id) := by
  rw [State.terminated]
  exact ((DiesOnly.leaveGroups s id (List.range 4)).trans (.dropLocks _ id)).trans (.modTask _ id _)

theorem State.task_dropLocks (s : State) (n id : Nat) : (s.dropLocks n).task id = s.task id :=
  State.task_mapDies (f := fun d => { d with locks := d.locks.filter (fun l => l.2 != n) }) rfl (fun _ => rfl) rfl id

theorem State.terminated_task (s : State) (id : Nat) : ((s.terminated id).task id).state = 5 ∧
    ∀ n, n < 4 → ((s.terminated id).task id).slotGid n = none := by
  have hslot (t : Task) (n : Nat) : Task.slotGid { t with state := 5, async := [] } n = t.slotGid n := rfl
  rw [State.terminated, State.task_modTask_self, State.task_dropLocks]
  refine ⟨rfl, fun n hn => ?_⟩
  rw [hslot]
  exact State.leaveGroups_slotGid id (List.range 4) s (.inl (List.mem_range.2 hn))

theorem State.locks_modTask (s : State) (id d : Nat) (f : Task → Task) : ((s.modTask id f).die d).locks = (s.die d).locks := by
  by_cases h : d = fld id 18 16
  · rw [h, State.modTask, State.setTask, State.die_modDie_self]
  · rw [State.modTask, State.setTask, State.die_modDie_ne _ _ h]

theorem State.not_mem_locks_dropLocks {s : State} {id d : Nat} {l : Nat × Nat} (h : l ∈ ((s.dropLocks id).die d).locks) : l.2 ≠ id := by
  rw [State.die_mapDies (s := s) (t := s.dropLocks id) (f := fun d => { d with locks := d.locks.filter (fun l => l.2 != id) }) rfl rfl] at h
  exact bne_iff_ne.1 (List.mem_filter.1 h).2

theorem State.terminated_locks {s : State} {id d : Nat} {l : Nat × Nat} (h : l ∈ ((s.terminated id).die d).locks) : l.2 ≠ id := by
  rw [State.terminated, State.locks_modTask] at h
  exact State.not_mem_locks_dropLocks h

theorem exec_taskTerminate_running {s : State} {p c id : Nat} (h : (s.ctxAt p c).task = some id) :
    exec (.taskTerminate p c) s = .next (s.within p c (fun s => (s.terminated id).freeCtx)) := by
  rw [exec_taskTerminate]
  refine congrArg _ (State.within_congr ?_)
  have hcx : ({ s with cur := p, ctx := c } : State).cx.task = some id := h
  simp only [hcx, State.terminated, State.leaveGroups]

end Sys2Proof.Machine
end

/-! ## Tasks that are saved, resumed, and freed with their launch -/

section
namespace Sys2Proof.Machine

/-! ### The tail of a ready queue (R378) -/

theorem mem_insertId (id : Nat) (l : List Nat) : id ∈ insertId id l := by
  induction l with
  | nil => exact List.mem_singleton_self id
  | cons n l ih =>
    rw [insertId]
    split
    · exact List.mem_cons_of_mem _ ih
    · exact List.mem_cons_self

theorem PCore.mem_ready_join (p : PCore) (lvl id : Nat) : id ∈ Tbl.get [] (p.join lvl id).ready lvl := by
  rw [PCore.join, Tbl.get_put_self]
  exact List.mem_append_right _ (mem_insertId id _)

/-- The first task that joins in a core cycle stands at the tail. -/
theorem PCore.ready_join_first {p : PCore} {lvl : Nat} (id : Nat) (h : (Tbl.get (0, 0) p.joins lvl).1 ≠ p.cyc) :
    Tbl.get [] (p.join lvl id).ready lvl = Tbl.get [] p.ready lvl ++ [id] := by
  rw [PCore.join, Tbl.get_put_self]
  simp only [if_neg h, Nat.sub_zero, List.take_length, List.drop_length]
  rfl

theorem State.hostOf_modDie (s : State) (d l : Nat) {f : Die → Die} (hf : ∀ x, (f x).remap = x.remap := by intro; rfl) :
    (s.modDie d f).hostOf l = s.hostOf l := by
  by_cases h : dieOf l = d
  · rw [State.hostOf, h, State.die_modDie_self, hf, State.hostOf, h]
  · rw [State.hostOf, State.die_modDie_ne _ _ h, State.hostOf]

theorem State.task_makeReady (s : State) (id : Nat) : (s.makeReady id).task id = { s.task id with state := 2 } :=
  s.task_setTask_self id _

theorem State.core_makeReady (s : State) (id : Nat) : (s.makeReady id).core (s.hostOf (s.task id).lcore) =
    (s.core (s.hostOf (s.task id).lcore)).join (s.task id).prio id := by
  have hhost : (s.setTask id { s.task id with state := 2 }).hostOf (s.task id).lcore = s.hostOf (s.task id).lcore := s.hostOf_modDie _ _
  rw [State.makeReady, hhost, State.core_modCore_self]
  rfl

theorem State.ctxAt_makeReady (s : State) (id p c : Nat) : (s.makeReady id).ctxAt p c = s.ctxAt p c :=
  (State.ctxAt_modCore _ rfl p c)

/-! ### Saving a frame (R388, R410) -/

theorem CoresKept.clearPA (s : State) (pa n : Nat) : CoresKept s (s.clearPA pa n) := by
  unfold State.clearPA
  split
  · exact ⟨rfl, rfl, rfl⟩
  · dsimp only
    split
    · exact ⟨rfl, rfl, rfl⟩
    · exact ⟨rfl, rfl, rfl⟩

theorem CoresKept.writeFrame (s : State) (pa : Nat) (items : List Item) : CoresKept s (s.writeFrame pa items) :=
  (CoresKept.clearPA s pa frameSize).trans (.foldl (fun t _ => .storePA t _ _ _) items _)

theorem CoresKept.keepRows (s : State) (user : Bool) (capt held : List CommitOp) (a : Arch) : CoresKept s (s.keepRows user capt held a) :=
  ⟨rfl, rfl, rfl⟩

theorem CoresKept.keepLoads (s : State) : CoresKept s s.keepLoads := ⟨rfl, rfl, rfl⟩

/-- A save with its frame mapped frees the context and makes its task READY or SAVED. -/
theorem State.saveFrame_ok {s : State} {pa : Nat} (h : s.framePA false true = .ok pa) (yield : Bool) (left : List CommitOp) :
    ∃ items capt held, s.saveFrame yield left = (let u := (((s.writeFrame pa items).keepRows false capt held s.cx.arch).keepLoads).freeCtx
      if yield then u.makeReady s.tid else u.modTask s.tid (fun t => { t with state := 4 })) := by
  rw [State.saveFrame, h]
  exact ⟨_, _, _, rfl⟩

theorem State.saveFrame_task {s : State} {pa : Nat} (h : s.framePA false true = .ok pa) (yield : Bool) (left : List CommitOp) :
    ((s.saveFrame yield left).ctxAt s.cur s.ctx).task = none ∧
    ((s.saveFrame yield left).task s.tid).state = if yield = true then 2 else 4 := by
  obtain ⟨items, capt, held, hu⟩ := State.saveFrame_ok h yield left
  have hkept := ((CoresKept.writeFrame s pa items).trans (.keepRows _ false capt held s.cx.arch)).trans (.keepLoads _)
  have hfree := (((s.writeFrame pa items).keepRows false capt held s.cx.arch).keepLoads).freeCtx_ctx
  rw [hkept.cur, hkept.ctx] at hfree
  rw [hu]
  cases yield with
  | true =>
    rw [if_pos rfl, State.ctxAt_makeReady, State.task_makeReady]
    exact ⟨hfree, rfl⟩
  | false =>
    rw [if_neg Bool.false_ne_true, State.task_modTask_self]
    exact ⟨hfree, rfl⟩

/-! ### Resumption (R378) -/

theorem State.readyAgain_saved {s : State} {id : Nat} (hs : (s.task id).state = 4) (hid : (s.task id).id = id) :
    ((s.readyAgain id).task id).state = 2 ∧ (s.readyAgain id).core (s.hostOf (s.task id).lcore) =
      (s.core (s.hostOf (s.task id).lcore)).join (s.task id).prio id := by
  have htask : (s.modTask id (fun t => { t with gp := false })).task id = { s.task id with gp := false } := s.task_modTask_self id _
  have hhost : (s.modTask id (fun t => { t with gp := false })).hostOf (s.task id).lcore = s.hostOf (s.task id).lcore := s.hostOf_modDie _ _
  have hcore := (s.modTask id (fun t => { t with gp := false })).core_makeReady id
  rw [htask] at hcore
  rw [State.readyAgain, if_pos (by simp [hs, hid]), State.task_makeReady]
  refine ⟨rfl, ?_⟩
  rw [← hhost]
  exact hcore

/-! ### The end of a launch (R393) -/

/-- A task slot becomes FREE. -/
def State.freeSlot (s : State) (t : Nat) : State :=
  s.modDie (fld t 18 16) (fun d => { d with tasks := d.tasks.filter (fun k => k.1 != fld t 15 0) })

theorem Tbl.get_filter_ne_self {α : Type} (d : α) (t : Tbl α) (k : Nat) : Tbl.get d (t.filter (fun x => x.1 != k)) k = d := by
  induction t with
  | nil => rfl
  | cons a t ih =>
    rw [List.filter_cons]
    split
    · next h => rw [Tbl.get_cons, if_neg (bne_iff_ne.1 h), ih]
    · exact ih

theorem State.task_freeSlot_self (s : State) (t : Nat) : (s.freeSlot t).task t = {} := by
  rw [State.task, State.freeSlot, State.die_modDie_self]
  exact Tbl.get_filter_ne_self ..

/-- Another slot's record is as before, or free as well. -/
theorem State.task_freeSlot (s : State) (t k : Nat) : (s.freeSlot t).task k = {} ∨ (s.freeSlot t).task k = s.task k := by
  by_cases hd : fld k 18 16 = fld t 18 16
  · rw [State.task, State.freeSlot, hd, State.die_modDie_self, State.task, hd]
    by_cases hn : fld k 15 0 = fld t 15 0
    · exact .inl (hn ▸ Tbl.get_filter_ne_self ..)
    · exact .inr (Tbl.get_filter _ _ (fun x hx => bne_iff_ne.2 (hx ▸ hn)))
  · rw [State.task, State.freeSlot, State.die_modDie_ne _ _ hd]
    exact .inr rfl

theorem State.freeSlots_state (ts : List Nat) (s : State) {k : Nat} (h : k ∈ ts ∨ (s.task k).state = 0) :
    ((ts.foldl State.freeSlot s).task k).state = 0 := by
  induction ts generalizing s with
  | nil => exact h.resolve_left List.not_mem_nil
  | cons t ts ih =>
    refine ih (s.freeSlot t) ?_
    rcases h with hk | hk
    · rcases List.mem_cons.1 hk with rfl | hk
      · exact .inr (congrArg Task.state (s.task_freeSlot_self k))
      · exact .inl hk
    · rcases s.task_freeSlot t k with hf | hf
      · exact .inr (congrArg Task.state hf)
      · exact .inr (hf ▸ hk)

theorem State.freeSlots_launches (ts : List Nat) (s : State) : (ts.foldl State.freeSlot s).launches = s.launches := by
  induction ts generalizing s with
  | nil => rfl
  | cons t ts ih => exact ih (s.freeSlot t)

theorem State.freeLaunch_done (s : State) (l : Launch) : (s.freeLaunch l).launches = s.launches.filter (fun k => k.id != l.id) ∧
    ∀ k ∈ l.tasks, ((s.freeLaunch l).task k).state = 0 :=
  ⟨congrArg (List.filter (fun k : Launch => k.id != l.id)) (s.freeSlots_launches l.tasks), fun _ hk => State.freeSlots_state l.tasks s (.inl hk)⟩

/-- A completion word within reach is performed at once; the launches stand. -/
theorem State.addDone_launches {s : State} {l : Launch} (h : l.done ≠ 0 → ∀ ph, s.xlate (.die l.die) l.asid (l.done % 2 ^ 57) true = .ok ph →
    s.atOnce l.die ph.pa 0 s.fresh = true) : (s.addDone l).launches = s.launches := by
  rw [State.addDone]
  split
  · rfl
  next hd =>
  split
  · rfl
  next ph hph =>
  rw [h hd ph hph, if_neg (by decide)]
  split
  · split
    · rfl
    · rfl
  · rfl

theorem State.endLaunch_eq {s : State} {l : Launch} (hu : ∀ k ∈ s.launches, k.id = l.id → k = l)
    (hd : l.sent = none → (s.addDone l).launches = s.launches) : ∃ t : State, s.endLaunch l = t.freeLaunch l ∧ t.launches = s.launches := by
  rw [State.endLaunch]
  cases hs : l.sent with
  | some n => exact ⟨s, rfl, rfl⟩
  | none =>
    have hnone : (s.addDone l).launches.any (fun k => k.id == l.id && k.sent.isSome) = false := by
      rw [hd hs, List.any_eq_false]
      intro k hk hb
      obtain ⟨hid, hsent⟩ := Bool.and_eq_true_iff.1 hb
      rw [hu k hk (beq_iff_eq.1 hid), hs] at hsent
      exact Bool.false_ne_true hsent
    refine ⟨s.addDone l, ?_, hd hs⟩
    rw [if_neg (by decide)]
    exact if_neg (by rw [hnone]; decide)

theorem State.launchOver_of {s : State} {l : Launch} (ht : ∀ t ∈ l.tasks, (s.task t).state = 5 ∧ s.cmdsOf t = [] ∧
    s.flushOwed (fld t 18 16) (fun _ => true) = false) (hs : ∀ n, l.sent = some n → (s.die l.die).copies.any (fun k => k.m.kind == 7 && k.ref == n) = false) :
    s.launchOver l = true := by
  have hended : l.tasks.all (fun t => (s.task t).state == 5 && (s.cmdsOf t).isEmpty) = true :=
    List.all_eq_true.2 fun t h => by simp [(ht t h).1, (ht t h).2.1]
  have hflushed : l.tasks.all (fun t => !s.flushOwed (fld t 18 16) (fun _ => true)) = true :=
    List.all_eq_true.2 fun t h => by simp [(ht t h).2.2]
  rw [State.launchOver, hended, hflushed, Bool.and_true, Bool.and_true]
  cases h : l.sent with
  | none => rfl
  | some n => simp only [hs n h, Bool.not_false]

/-! ### The events -/

theorem exec_waitYield_hold {s : State} {p c : Nat} {o : Offer} {l : List (SlotInst × Wait)}
    (h : ({ s with cur := p, ctx := c } : State).prep = .hold o l) (hy : ({ s with cur := p, ctx := c } : State).yieldDue = true)
    (hl : l.any yieldable = true) : exec (.waitYield p c) s = .next (s.within p c (fun s => s.saveCtx true)) := by
  change Host.Outcome.next _ = _
  refine congrArg _ (State.within_congr ?_)
  simp only [h, hy, hl]
  rfl

theorem exec_taskDispatch_new {s : State} {p c id n : Nat} {rest : List Nat} (hc : (s.ctxAt p c).task = none) (hl : (s.core p).level = some n)
    (hq : Tbl.get [] (s.core p).ready n = id :: rest) (hran : (s.task id).ran = false) (hm : s.mayStart id = true) (ha : s.asleep p = false) :
    exec (.taskDispatch p c) s = .next ((s.popReady p n rest).within p c (fun s => s.started id)) := by
  have htake := State.takeTask_new (s := { s.popReady p n rest with cur := p, ctx := c }) hran
  rw [exec_taskDispatch, if_pos (State.canDispatch_head hc hl hq hm ha), State.dispatch_head c hl hq, State.within_congr (f := fun s => s.takeTask id) (g := fun s => s.started id) htake]

theorem exec_preempt_due {s : State} {p c id : Nat} (ht : (s.ctxAt p c).task = some id) (hl : s.preemptSet id = [(p, c)])
    (hs : ({ s with cur := p, ctx := c } : State).canSave = true) : exec (.preempt p c) s =
      .next (((s.modCtxAt p c Ctx.flag).modTask id (fun k => { k with gp := false })).within p c (fun s =>
        (s.modCx (fun k => { k with preempt := false, stop := false, stopped := false, replay := none, presented := none })).saveCtx false)) := by
  have hflag : (((s.modCtxAt p c Ctx.flag).modTask id (fun k => { k with gp := false })).ctxAt p c).preempt = true :=
    congrArg Ctx.preempt (State.ctxAt_modCtxAt_self s p c Ctx.flag)
  have hsave : ({ (s.modCtxAt p c Ctx.flag).modTask id (fun k => { k with gp := false }) with cur := p, ctx := c } : State).canSave = true :=
    (State.flagged_canSave { s with cur := p, ctx := c } id (fun k => { k with gp := false })).trans hs
  rw [exec_preempt_alone ht hl, State.savePreempted_due hflag hsave]

theorem State.die_within (s : State) (p c d : Nat) (f : State → State) : (s.within p c f).die d = (f { s with cur := p, ctx := c }).die d := rfl

theorem State.task_within (s : State) (p c id : Nat) (f : State → State) :
    (s.within p c f).task id = (f { s with cur := p, ctx := c }).task id := rfl

theorem State.mem_within (s : State) (p c : Nat) (f : State → State) : (s.within p c f).mem = (f { s with cur := p, ctx := c }).mem := rfl

theorem State.lcores_within (s : State) (p c : Nat) (f : State → State) : (s.within p c f).lcores = (f { s with cur := p, ctx := c }).lcores := rfl

/-- What a terminated task and its context are. -/
theorem State.terminated_freeCtx (s : State) (id : Nat) : (((s.terminated id).freeCtx).task id).state = 5 ∧
    (((s.terminated id).freeCtx).ctxAt s.cur s.ctx).task = none ∧ (∀ n, n < 4 → (((s.terminated id).freeCtx).task id).slotGid n = none) ∧
    (∀ d l, l ∈ (((s.terminated id).freeCtx).die d).locks → l.2 ≠ id) ∧ ((s.terminated id).freeCtx).mem = s.mem ∧
    ((∀ r ∈ (s.core s.cur).matPend, r.ctx = s.ctx → r.committed = false ∨ r.written = true) → ((s.terminated id).freeCtx).lcores = s.lcores) := by
  have hkept := DiesOnly.terminated s id
  obtain ⟨hstate, hslots⟩ := s.terminated_task id
  have hfree := (s.terminated id).freeCtx_ctx
  rw [hkept.cur, hkept.ctx] at hfree
  rw [State.task_freeCtx, State.freeCtx_mem, hkept.mem]
  refine ⟨hstate, hfree, hslots, fun d l hl => ?_, rfl, fun hdone => ?_⟩
  · rw [(State.die_freeCtx _ d).2] at hl
    exact State.terminated_locks hl
  · rw [State.freeCtx_lcores, hkept.lcores]
    rw [State.core, hkept.cores, hkept.cur, hkept.ctx]
    exact hdone

/-- What a task that starts finds in its registers, and what its start leaves alone. -/
theorem State.started_effect (s : State) (id : Nat) : (s.started id).cx.arch.pc = (s.task id).entry ∧
    ((s.started id).cx.arch.getX 1).toNat = (s.task id).arg % 2 ^ 64 ∧ (∀ r, r ≠ 1 → (s.started id).cx.arch.getX r = 0) ∧
    (s.started id).cx.image = (s.started id).cx.arch := by
  obtain ⟨-, harch, himage⟩ := s.started_arch id
  rw [harch, himage]
  exact ⟨rfl, startArch_getX_one _, fun r hr => startArch_getX_ne _ hr, rfl⟩

/-- Settles O53: a new task starts from its record (`State.started_effect`); a flag changes nothing that a save waits for
(`State.flagged_canSave`); a terminated task has left every group and holds no lock; a launch frees each of its slots. -/
theorem taskEvents : Obligations.TaskEvents := by
  refine ⟨fun s p c id n rest hc hl hq hran hm ha => ?dispatch, fun s p c o l => exec_waitYield_hold,
    fun s p c id ht hl hs => exec_preempt_due ht hl hs, fun s pa yield h => State.saveFrame_task h yield [], fun s p c id h => ?terminate,
    fun s id hs hid hw => ?resume, fun s l hf ht hu hsent hd => ?launch⟩
  case dispatch =>
    obtain ⟨hpc, hx1, hx, himage⟩ := State.started_effect { s.popReady p n rest with cur := p, ctx := c } id
    obtain ⟨htask, -, -⟩ := State.started_arch { s.popReady p n rest with cur := p, ctx := c } id
    have hstate := State.started_task { s.popReady p n rest with cur := p, ctx := c } id
    have hready := State.started_ready { s.popReady p n rest with cur := p, ctx := c } id
    refine ⟨_, exec_taskDispatch_new hc hl hq hran hm ha, htask, hstate, ?_, hpc, hx1, hx, himage, rfl, rfl⟩
    exact (congrArg (fun t => Tbl.get [] t n) hready).trans (s.popReady_ready p n rest)
  case terminate =>
    refine ⟨_, exec_taskTerminate_running h, ?_⟩
    simp only [State.task_within, State.ctxAt_within, State.die_within, State.mem_within, State.lcores_within]
    exact State.terminated_freeCtx { s with cur := p, ctx := c } id
  case resume =>
    obtain ⟨hstate, hcore⟩ := State.readyAgain_saved hs hid
    refine ⟨s.readyAgain id, ?_, hstate, ?_⟩
    · rw [exec_resumption, hw]
      rfl
    · rw [hcore]
      exact ⟨PCore.mem_ready_join _ _ _, PCore.ready_join_first id⟩
  case launch =>
    obtain ⟨t, ht', hlaunches⟩ := State.endLaunch_eq hu (fun hn => State.addDone_launches (hd hn))
    obtain ⟨hgone, hfreed⟩ := t.freeLaunch_done l
    rw [exec_launchComplete, hf]
    refine ⟨s.endLaunch l, ?_, ?_, ?_⟩
    · simp only [State.launchOver_of ht hsent, if_true]
    · rw [ht', hgone, hlaunches]
    · rw [ht']
      exact hfreed

end Sys2Proof.Machine
end

/-! ## Words that the manual writes out -/

section
namespace Sys2Proof.Machine

/-- Settles O8: each word is a closed number, which the decoder evaluates to its instruction or its reason code. -/
theorem wordsOfTheManual : Obligations.WordsOfTheManual := by
  unfold Obligations.WordsOfTheManual
  decide

end Sys2Proof.Machine
end

/-! ## Rotation codes -/

section
namespace Sys2Proof.Machine

/-! ### The words of a block (R110)

Code 1 adds the block's number, codes 2 and 3 take the exclusive or with a number below 32. Codes above 3 read as 3, so the laws hold of
every code. -/

theorem bankOf_lt (c b : Nat) {j : Nat} (h : j < 32) : bankOf c b j < 32 := by
  match c with
  | 0 => exact h
  | 1 => exact Nat.mod_lt _ (by decide)
  | 2 => exact Nat.xor_lt_two_pow (n := 5) h (Nat.mod_lt _ (by decide))
  | _ + 3 => exact Nat.xor_lt_two_pow (n := 5) h (Nat.mod_lt _ (by decide))

theorem bankOf_inj (c b : Nat) {i j : Nat} (hi : i < 32) (hj : j < 32) (h : bankOf c b i = bankOf c b j) : i = j := by
  match c with
  | 0 => exact h
  | 1 =>
    simp only [bankOf] at h
    omega
  | 2 => exact Nat.xor_left_injective h
  | _ + 3 => exact Nat.xor_left_injective h

/-! ### The bytes of a scratchpad (R110 to R112) -/

/-- A rotation code moves a byte within its block. -/
theorem physOf_div (c o : Nat) : physOf c o / 2048 = o / 2048 := by
  have hlt := bankOf_lt c (o / 2048) (Nat.mod_lt (o / 64) (by decide : 0 < 32))
  rw [physOf]
  omega

theorem physOf_inj (c : Nat) {o p : Nat} (h : physOf c o = physOf c p) : o = p := by
  have hblock : o / 2048 = p / 2048 := by rw [← physOf_div c o, h, physOf_div]
  have ho := Nat.mod_lt (o / 64) (by decide : 0 < 32)
  have hp := Nat.mod_lt (p / 64) (by decide : 0 < 32)
  rw [physOf, physOf, hblock] at h
  have hword : o / 64 % 32 = p / 64 % 32 := bankOf_inj c (p / 2048) ho hp (by omega)
  omega

/-- The same where each block has the code of its own tag: equal places lie in one block. -/
theorem LCore.phys_inj (c : LCore) (code : Option Nat) {o p : Nat} (h : c.phys code o = c.phys code p) : o = p := by
  have hblock : o / 2048 = p / 2048 := by
    rw [← physOf_div (code.getD (c.codeOf o)) o, ← physOf_div (code.getD (c.codeOf p)) p]
    exact congrArg (· / 2048) h
  rw [LCore.phys, LCore.phys, LCore.codeOf, LCore.codeOf, LCore.tagOf, LCore.tagOf, hblock] at h
  exact physOf_inj _ h

/-- Settles O36: by `bankOf_lt`, `bankOf_inj`, `physOf_inj` and `physOf_div`. -/
theorem rotationCodes : Obligations.RotationCodes :=
  ⟨fun _ _ => ⟨rfl, rfl, rfl, rfl⟩, fun c b _ => ⟨fun _ => bankOf_lt c b, fun _ _ => bankOf_inj c b⟩, fun _ _ => rfl,
    fun c _ _ _ => physOf_inj c, fun c o _ => physOf_div c o⟩

end Sys2Proof.Machine
end

/-! ## What a performed store writes -/

section
namespace Sys2Proof.Machine

/-! ### Bytes under a mask -/

theorem bit_succ (x i : Nat) : bit x (i + 1) = bit (x / 2) i := by
  rw [bit, bit, Nat.pow_succ', Nat.div_div_eq_div_mul]

theorem el_succ (w x i : Nat) : el w x (i + 1) = el w (x / 2 ^ w) i := by
  rw [el, el, Nat.mul_succ, Nat.add_comm, Nat.pow_add, Nat.div_div_eq_div_mul]

/-- The bytes that a mask names, in rising order of their places. -/
theorem maskBytes_eq (n a m d : Nat) :
    maskBytes a n m d = ((List.range n).filter (bit m)).map (fun i => (a + i, el 8 d i)) := by
  induction n generalizing a m d with
  | zero => rfl
  | succ n ih =>
    have htail : maskBytes (a + 1) n (m / 2) (d / 256) =
        (((List.range n).map Nat.succ).filter (bit m)).map (fun i => (a + i, el 8 d i)) := by
      rw [ih, List.filter_map, List.map_map]
      have hbit : bit m ∘ Nat.succ = bit (m / 2) := funext fun i => bit_succ m i
      rw [hbit]
      refine List.map_congr_left fun i _ => ?_
      rw [Function.comp_apply, Nat.succ_eq_add_one, el_succ, Nat.add_assoc, Nat.add_comm 1]
      rfl
    rw [maskBytes, htail, List.range_succ_eq_map, List.filter_cons]
    by_cases h : m % 2 = 1
    · simp [h, bit, el]
    · simp [h, bit]

theorem mem_maskBytes {n a m d : Nat} {t : Nat × Nat} :
    t ∈ maskBytes a n m d ↔ a ≤ t.1 ∧ t.1 < a + n ∧ bit m (t.1 - a) = true ∧ t.2 = el 8 d (t.1 - a) := by
  rw [maskBytes_eq, List.mem_map]
  constructor
  · rintro ⟨i, hi, rfl⟩
    obtain ⟨hn, hm⟩ := List.mem_filter.1 hi
    rw [Nat.add_sub_cancel_left]
    exact ⟨Nat.le_add_right a i, Nat.add_lt_add_left (List.mem_range.1 hn) a, hm, rfl⟩
  · rintro ⟨ha, hn, hm, hv⟩
    refine ⟨t.1 - a, List.mem_filter.2 ⟨List.mem_range.2 (by omega), hm⟩, ?_⟩
    rw [Nat.add_sub_cancel' ha, ← hv]

theorem maskBytes_distinct (a n m d : Nat) : (maskBytes a n m d).Pairwise (fun t u => t.1 ≠ u.1) := by
  rw [maskBytes_eq, List.pairwise_map]
  exact (List.pairwise_lt_range.filter _).imp fun h => by omega

/-! ### A list of bytes written -/

theorem Memory.read_writeL_of_ne {l : List (Nat × Nat)} (m : Memory) {a : Nat} (h : ∀ t ∈ l, t.1 ≠ a) :
    (m.writeL l).read a = m.read a := by
  induction l generalizing m with
  | nil => rfl
  | cons t l ih =>
    rw [Memory.writeL, ih _ fun u hu => h u (List.mem_cons_of_mem _ hu)]
    exact Memory.read_write_ne m _ (h t List.mem_cons_self).symm

/-- A byte that no other of the list overwrites is read back. -/
theorem Memory.read_writeL_of_mem {l : List (Nat × Nat)} {m : Memory} (hm : Memory.wf m = true) (hl : l.Pairwise (fun t u => t.1 ≠ u.1))
    {t : Nat × Nat} (ht : t ∈ l) : (m.writeL l).read t.1 = BitVec.ofNat 8 t.2 := by
  induction l generalizing m with
  | nil => exact absurd ht List.not_mem_nil
  | cons u l ih =>
    obtain ⟨hu, hl⟩ := List.pairwise_cons.1 hl
    rcases List.mem_cons.1 ht with rfl | ht
    · rw [Memory.writeL, Memory.read_writeL_of_ne _ fun v hv => (hu v hv).symm]
      exact Memory.read_write_self hm _ _
    · exact ih (Memory.write_wf hm _ _) hl ht

/-! ### A store to a scratchpad -/

/-- The bytes at their physical places under a rotation code, or under the code of each block's tag (R110 to R112). -/
def LCore.atPlaces (c : LCore) (code : Option Nat) (l : List (Nat × Nat)) : List (Nat × Nat) := l.map (fun t => (c.phys code t.1, t.2))

theorem LCore.atPlaces_distinct (c : LCore) (code : Option Nat) {l : List (Nat × Nat)} (h : l.Pairwise (fun t u => t.1 ≠ u.1)) :
    (c.atPlaces code l).Pairwise (fun t u => t.1 ≠ u.1) :=
  h.map _ fun _ _ hne he => hne (c.phys_inj code he)

/-- A clean store writes its bytes at their places of the scratchpad, and neither the accumulator nor the code. -/
theorem LCore.store_sp (c : LCore) (code : Option Nat) (l : List (Nat × Nat)) (fill : Bool) :
    (c.store .sp code l false fill).sp.mem = c.sp.mem.writeL (c.atPlaces code l) ∧
    (c.store .sp code l false fill).acc = c.acc ∧ (c.store .sp code l false fill).code = c.code := by
  cases code <;> cases fill <;> exact ⟨rfl, rfl, rfl⟩

/-- A withheld store to a scratchpad that is no add is performed as a clean store of its masked bytes (R126). -/
theorem State.performEnt_sp (s : State) {e : WEnt} (hs : e.sp = .sp) (hf : e.kind ≠ .addF) (hi : e.kind ≠ .addI) :
    s.performEnt e = s.modLcore e.unit
      (fun c => c.store .sp (if e.rc = 4 then none else some e.rc) (maskBytes e.line 64 e.mask e.data) false (e.kind == .fe)) := by
  simp only [State.performEnt, hs, hf, hi, decide_false, Bool.or_self, Bool.false_eq_true, if_false]

/-- Settles O35: the entry is a clean store (`State.performEnt_sp`), whose bytes stand at places of their own (`LCore.phys_inj`). -/
theorem performedStoreFrame : Obligations.PerformedStoreFrame := by
  intro s e hmem hs hf hi _
  rw [s.performEnt_sp hs hf hi]
  generalize (if e.rc = 4 then none else some e.rc) = code
  generalize (e.kind == .fe) = fill
  obtain ⟨hsp, hacc, hins⟩ := (s.lcore e.unit).store_sp code (maskBytes e.line 64 e.mask e.data) fill
  have hwf : Memory.wf (s.lcore e.unit).sp.mem = true := ((State.memOk_iff s).1 hmem).lcore.1
  refine ⟨rfl, fun l => ?_, fun l hl => State.lcore_modLcore_ne _ _ hl, fun b hlow hhigh hbit => ?_, fun a ha => ?_⟩
  · by_cases hl : l = e.unit
    · subst hl
      rw [State.lcore_modLcore_self]
      exact ⟨hacc, hins⟩
    · rw [State.lcore_modLcore_ne _ _ hl]
      exact ⟨rfl, rfl⟩
  · have hbyte : (b, el 8 e.data (b - e.line)) ∈ maskBytes e.line 64 e.mask e.data := mem_maskBytes.2 ⟨hlow, hhigh, hbit, rfl⟩
    rw [State.lcore_modLcore_self, hsp, Memory.read_writeL_of_mem hwf
      ((s.lcore e.unit).atPlaces_distinct code (maskBytes_distinct ..)) (List.mem_map_of_mem hbyte), BitVec.toNat_ofNat]
    exact Nat.mod_mod _ _
  · rw [State.lcore_modLcore_self, hsp]
    refine Memory.read_writeL_of_ne _ fun t ht => ?_
    obtain ⟨u, hu, rfl⟩ := List.mem_map.1 ht
    obtain ⟨hlow, hhigh, hbit, -⟩ := mem_maskBytes.1 hu
    exact (ha u.1 hlow hhigh hbit).symm

end Sys2Proof.Machine
end

/-! ## Vector loads, stores, ticketed updates and atomics -/

section
namespace Sys2Proof.Machine

/-! ### The arms of the vector memory operations -/

theorem exec_vld (d a k p : Nat) (w : Option MW) (s : State) : exec (.vld d a k p w) s = State.runOp (.vld d a k p w)
    (fun s => s.loadRow (.vld d a k p w) false d a k p w) s := rfl

theorem exec_vlda (d a k p : Nat) (w : Option MW) (s : State) : exec (.vlda d a k p w) s = State.runOp (.vlda d a k p w)
    (fun s => s.loadRow (.vlda d a k p w) true d a k p w) s := rfl

theorem exec_vst (x a k p : Nat) (w : Option MW) (s : State) : exec (.vst x a k p w) s = State.runOp (.vst x a k p w)
    (fun s => s.storeRow false x a k (s.rp p).toNat (kindOf (qualOf w)) w) s := rfl

theorem exec_vsta (x a k p : Nat) (w : Option MW) (s : State) : exec (.vsta x a k p w) s = State.runOp (.vsta x a k p w)
    (fun s => s.storeRow true x a k (s.rp p).toNat (kindOf (qualOf w)) w) s := rfl

theorem exec_vstaAdd (x a k p : Nat) (w : Option MW) (s : State) : exec (.vstaAdd x a k p w) s = State.runOp (.vstaAdd x a k p w)
    (fun s => s.storeRow true x a k (elemMask (s.rp p).toNat) .addF w) s := rfl

theorem exec_vtkadd (x a k p xt td : Nat) (s : State) : exec (.vtkadd x a k p xt td) s = State.runOp (.vtkadd x a k p xt td)
    (fun s => s.sendTk 0 x a k p xt td) s := rfl

theorem exec_vtkmin (x a k p xt td : Nat) (s : State) : exec (.vtkmin x a k p xt td) s = State.runOp (.vtkmin x a k p xt td)
    (fun s => s.sendTk 1 x a k p xt td) s := rfl

theorem exec_vtkmax (x a k p xt td : Nat) (s : State) : exec (.vtkmax x a k p xt td) s = State.runOp (.vtkmax x a k p xt td)
    (fun s => s.sendTk 2 x a k p xt td) s := rfl

theorem exec_vaadd (x a k p vr ret uns : Nat) (s : State) : exec (.vaadd x a k p vr ret uns) s = State.runOp (.vaadd x a k p vr ret uns)
    (fun s => s.deferRow (.vaadd x a k p vr ret uns) x a k p vr ret) s := rfl

theorem exec_vamin (x a k p vr ret uns : Nat) (s : State) : exec (.vamin x a k p vr ret uns) s = State.runOp (.vamin x a k p vr ret uns)
    (fun s => s.deferRow (.vamin x a k p vr ret uns) x a k p vr ret) s := rfl

theorem exec_vamax (x a k p vr ret uns : Nat) (s : State) : exec (.vamax x a k p vr ret uns) s = State.runOp (.vamax x a k p vr ret uns)
    (fun s => s.deferRow (.vamax x a k p vr ret uns) x a k p vr ret) s := rfl

theorem exec_vaxchg (x a k p vr ret uns : Nat) (s : State) : exec (.vaxchg x a k p vr ret uns) s = State.runOp (.vaxchg x a k p vr ret uns)
    (fun s => s.deferRow (.vaxchg x a k p vr ret uns) x a k p vr ret) s := rfl

/-! ### Their checks pass -/

/-- An operation outside the matrix engine that is ready, and no jump, has its effect where its own checks pass. -/
theorem State.runOp_of_ready {s : State} {i : Instr} (f : State → State) (h : s.ReadyFor i) (ho : s.chkOp i = .ok)
    (hj : s.chkJump i = .ok := by rfl) (hm : i.needsMatrix = false := by rfl) : s.runOp i f = .next (f s) :=
  State.runOp_ready f h ho hj (Instr.ne_mmap_of_needsMatrix hm)

/-- Readiness speaks of the operation's registers, and whether it accesses memory or needs the matrix engine. -/
theorem State.ReadyFor.of_same {s : State} {i j : Instr} (h : s.ReadyFor i) (hx : j.xsrcs = i.xsrcs := by rfl)
    (hv : j.vsrcs = i.vsrcs := by rfl) (hp : j.psrcs = i.psrcs := by rfl) (hd : j.vdests = i.vdests := by rfl)
    (ha : j.accesses = i.accesses := by rfl) (hm : j.needsMatrix = i.needsMatrix := by rfl) : s.ReadyFor j :=
  ⟨hx ▸ h.x, hv ▸ h.v, hp ▸ h.p, hd ▸ h.d, ha ▸ h.acq, hm ▸ h.mat⟩

section
variable {s : State} {a k p : Nat} {w : Option MW} {r : Nat × Nat × Nat}

/-- A load of a scratchpad row whose tags agree, or are not checked (R112, R113). -/
theorem State.chkRow_vld_ok (h : s.vmRow false a k w = .ok r) (hl : s.loadReady) (hq : qualOf w = 0 ∨ s.strongHeld = false)
    (ht : s.swzOff = true ∨ ∀ g ∈ activeGranules p, (s.lcore r.1).tagFail r.2.2 (r.2.1 + 16 * g) 16 = none) :
    s.chkRow false true a k p w = .ok := by
  have htag : (if s.swzOff then none
      else (activeGranules p).findSome? (fun g => (s.lcore r.1).tagFail r.2.2 (r.2.1 + 16 * g) 16)) = none := by
    rcases ht with ht | ht
    · rw [if_pos ht]
    · rw [List.findSome?_eq_none_iff.2 ht, ite_self]
  have hall : Chk.all ((activeGranules p).map (fun _ => Chk.ok)) = .ok := Chk.all_ok (by simp)
  rw [State.chkRow, h, Chk.ofRes_ok]
  simp only [Bool.false_or, Bool.not_true, htag, if_true, Bool.false_eq_true, if_false, hall, Chk.ok_andThen]
  exact State.chkQual_ok hl hq

/-- A load of an accumulator row that meets no withheld add and no matrix result (R299, R316). -/
theorem State.chkRow_vlda_ok (h : s.vmRow true a k w = .ok r) (hl : s.loadReady) (hq : qualOf w = 0 ∨ s.strongHeld = false)
    (hacc : ∀ g ∈ activeGranules p,
      addTouches s.cx.wbuf .acc r.1 (r.2.1 + 16 * g) 16 = false ∧ s.matMeet r.1 (r.2.1 + 16 * g) 16 ≠ .wait) :
    s.chkRow true true a k p w = .ok := by
  have hall : Chk.all ((activeGranules p).map (fun g => s.chkAccRead r.1 (r.2.1 + 16 * g) 16)) = .ok := by
    refine Chk.all_ok fun c hc => ?_
    obtain ⟨g, hg, rfl⟩ := List.mem_map.1 hc
    obtain ⟨hadd, hmat⟩ := hacc g hg
    exact State.chkAccRead_ok hadd hmat
  rw [State.chkRow, h, Chk.ofRes_ok]
  simp only [Bool.true_or, if_true, hall, Chk.ok_andThen]
  exact State.chkQual_ok hl hq

/-- A store checks the address of its row alone. -/
theorem State.chkRow_store_ok {acc : Bool} (h : s.vmRow acc a k w = .ok r) : s.chkRow acc false a k p w = .ok := by
  rw [State.chkRow, h, Chk.ofRes_ok]
  simp only [Bool.not_false, Bool.or_true, Bool.true_or, if_true, Bool.false_eq_true, if_false]

/-- What a store of a row withholds (R280). -/
theorem State.storeRow_ok {acc : Bool} {x mask : Nat} {kind : WKind} (h : s.vmRow acc a k w = .ok r) :
    s.storeRow acc x a k mask kind w = s.withhold (s.ar.scyc + 1)
      (lineEntries (if acc then .acc else .sp) r.1 kind (if acc then 4 else r.2.2) s.bun.pc s.slot r.2.1 256 mask (s.rv x)) := by
  rw [State.storeRow, h, State.cyc]

end

section
variable {s : State} {a k p : Nat} {r : Nat × Bool} (h : s.accRow a k = .ok r)
include h

theorem State.chkTkRow_ok (hl : s.laneFail p r = none) : s.chkTkRow a k p = .ok := by
  rw [State.chkTkRow, h, Chk.ofRes_ok, hl]

/-- The parts of a ticketed update of a row (R333). -/
theorem State.sendTk_ok (op x xt td : Nat) :
    s.sendTk op x a k p xt td = s.sendRow op (s.rp p).toNat r.1 (s.rv x) (s.rx xt).toNat td 4 := by
  rw [State.sendTk, h]

theorem State.chkRowAtomic_ok (hl : s.loadReady) : (Chk.ofRes (fun _ => .ok) (s.accRow a k)).andThen s.chkRoom = .ok := by
  rw [h, Chk.ofRes_ok, Chk.ok_andThen, State.chkRoom_ok hl]

end

/-- A vector atomic whose stride is aligned is kept for its commit with its address, lanes and operands (R335, R399). -/
theorem State.deferRow_aligned {s : State} {a k ea : Nat} (h : s.accRow a k = .ok (ea, false)) (i : Instr) (x p vr ret : Nat) :
    s.deferRow i x a k p vr ret = (if ret = 1 then s.claimV vr else s).defer i [ea, (s.rp p).toNat, s.rv x, s.rvd vr] := by
  rw [State.deferRow, h]
  simp only [b2n, Bool.false_eq_true, if_false, Nat.zero_mul, Nat.add_zero]

/-- A register with no value becomes RESIDENT as its write issues (R214). -/
theorem State.claimV_vst {s : State} {v : Nat} (hv : v < 56) (h : Tbl.get 0 s.ar.vst v = 0) : Tbl.get 0 (s.claimV v).ar.vst v = 1 := by
  rw [State.claimV, State.ar_modAr, Arch.allocV, if_neg (Nat.not_le.2 hv)]
  simp only [h, Tbl.get_put_self]
  rfl

/-- Settles O44: each form by its checks (`State.chkRow_vld_ok` and its like) and what its row operation does
(`State.storeRow_ok`, `State.sendTk_ok`, `State.deferRow_aligned`). -/
theorem vectorMemoryCompletes : Obligations.VectorMemoryCompletes := by
  refine ⟨fun s d a k p w r h hl hq hr ht => ?_, fun s d a k p w r h hl hq hr hacc => ?_, fun s x a k p w r h hr => ?_,
    fun s x a k p w r h hr => ?_, fun s x a k p w r h hr => ?_, fun s x a k p xt td r h hr hf => ?ticketed,
    fun s x a k p vr ret uns ea h hl hr => ?atomic⟩
  · rw [exec_vld]
    exact State.runOp_of_ready _ h (State.chkRow_vld_ok hr ⟨h.acq rfl, hl⟩ hq ht)
  · rw [exec_vlda]
    exact State.runOp_of_ready _ h (State.chkRow_vlda_ok hr ⟨h.acq rfl, hl⟩ hq hacc)
  · rw [exec_vst, State.runOp_of_ready _ h (State.chkRow_store_ok hr), State.storeRow_ok hr]
    rfl
  · rw [exec_vsta, State.runOp_of_ready _ h (State.chkRow_store_ok hr), State.storeRow_ok hr]
    rfl
  · rw [exec_vstaAdd, State.runOp_of_ready _ h (State.chkRow_store_ok hr), State.storeRow_ok hr]
    rfl
  case ticketed =>
    have hchk : s.chkTkRow a k (s.rp p).toNat = .ok := State.chkTkRow_ok hr hf
    simp only [exec_vtkadd, exec_vtkmin, exec_vtkmax, ← State.sendTk_ok hr]
    exact ⟨State.runOp_of_ready _ h hchk, State.runOp_of_ready _ h.of_same hchk, State.runOp_of_ready _ h.of_same hchk⟩
  case atomic =>
    have hchk := State.chkRowAtomic_ok hr ⟨h.acq rfl, hl⟩
    simp only [exec_vaadd, exec_vamin, exec_vamax, exec_vaxchg, ← State.deferRow_aligned hr]
    exact ⟨State.runOp_of_ready _ h hchk, State.runOp_of_ready _ h.of_same hchk, State.runOp_of_ready _ h.of_same hchk,
      State.runOp_of_ready _ h.of_same hchk, State.claimV_vst⟩

end Sys2Proof.Machine
end

/-! ## Engine commands at their issue -/

section
namespace Sys2Proof.Machine

/-! ### The fifteen commands (R137) -/

/-- What all engine commands have in common: no register of theirs is read, their only check is that of a capture, and the capture is what
they do. -/
structure Instr.Captures (i : Instr) : Prop where
  exec : ∀ s, exec i s = s.runOp i (fun s => s.capture i)
  xsrcs : i.xsrcs = []
  vsrcs : i.vsrcs = []
  psrcs : i.psrcs = []
  vdests : i.vdests = []
  mat : i.needsMatrix = false
  check : ∀ s : State, s.chkOp i = s.chkCmd i
  jump : ∀ s : State, s.chkJump i = .ok

theorem Instr.captures_of_cmdOf {i : Instr} {q : Nat × Nat × CHdr} (h : i.cmdOf = some q) : Instr.Captures i := by
  unfold Instr.cmdOf at h
  split at h
  case h_16 => exact absurd h (by simp)
  all_goals exact ⟨fun _ => rfl, rfl, rfl, rfl, rfl, rfl, fun _ => rfl, fun _ => rfl⟩

section
variable {s : State} {i : Instr} {kind op : Nat} {h : CHdr} (hc : i.cmdOf = some (kind, op, h))
include hc

/-- The checks of a capture, in their order: the fields, the barrier's address, the destination, the counter. -/
theorem State.chkCmd_ok (hf : ∀ k, k < 16 → s.cfgBad kind op (s.captureStg kind op h.set) k = false)
    (hb : 2 ≤ h.cmode → ∃ u o, spScalar s.lc ((s.captureStg kind op h.set).getD 15 0) 8 8 = .ok (u, o))
    (ho : s.overlapBad kind op (s.cmdGid kind (s.captureStg kind op h.set)) (s.captureStg kind op h.set) = false)
    (hn : h.cmode % 2 = 1 →
      (s.ar.getSr (0x010 + h.cc)).toNat + s.ar.raising h.cc + (s.bun.incs.filter (fun n => n == h.cc)).length < 65535) :
    s.chkCmd i = .ok := by
  have hfields : (List.range 16).find? (fun k => s.cfgBad kind op (s.captureStg kind op h.set) k) = none := by
    rw [List.find?_eq_none]
    intro k hk
    simp [hf k (List.mem_range.1 hk)]
  have hbar : (if 2 ≤ h.cmode then (spScalar s.lc ((s.captureStg kind op h.set).getD 15 0) 8 8).map (fun _ => ()) else .ok ()) = .ok () := by
    split
    · next hm =>
      obtain ⟨u, o, hu⟩ := hb hm
      rw [hu]
      rfl
    · rfl
  have hroom : (decide (h.cmode % 2 = 1) && decide (65535 ≤ (s.ar.getSr (0x010 + h.cc)).toNat + s.ar.raising h.cc +
      (s.bun.incs.filter (fun n => n == h.cc)).length)) = false := by
    simpa using hn
  simp only [State.chkCmd, hc, hfields, hbar, ho, hroom]
  rfl

/-- What a command carries from its capture. -/
theorem State.mkCmd_some (stg : List Nat) : ∃ c, s.mkCmd i stg = some c ∧ c.kind = kind ∧ c.op = op ∧ c.h = h ∧ c.task = s.tid ∧
    c.asid = s.asid ∧ c.lcore = s.lc ∧ c.pcore = s.cur ∧ c.fault = none ∧ c.started = false ∧
    (kind ≠ 2 ∨ op ≠ 1 ∨ fld (stg.getD 2 0) 44 32 ≠ 0 → c.stg = stg) := by
  rw [State.mkCmd, hc]
  refine ⟨_, rfl, rfl, rfl, rfl, rfl, rfl, rfl, rfl, rfl, rfl, fun hset => if_neg fun hcount => ?_⟩
  simp only [Bool.and_eq_true, decide_eq_true_eq] at hcount
  obtain ⟨⟨hkind, hop⟩, hzero⟩ := hcount
  rcases hset with hn | hn | hn
  · exact hn hkind
  · exact hn hop
  · exact hn hzero

end

/-! ### What a capture leaves alone -/

/-- The counter that a command's header names, if it names one, begins to rise (R137). -/
def State.raised (s : State) (h : CHdr) : State := if h.cmode % 2 = 1 then s.out .cc h.cc 1 1 else s

/-- A command stands among its bundle's operations. -/
def State.holding (s : State) (i : Instr) (c : Cmd) : State :=
  (s.modBun (fun b => { b with ops := b.ops ++ [⟨s.slot, i, [], 0, some c⟩] })).bump

theorem State.capture_eq {s : State} {i : Instr} {kind op : Nat} {h : CHdr} {c : Cmd} (hc : i.cmdOf = some (kind, op, h))
    (hm : s.mkCmd i (s.captureStg kind op h.set) = some c) : s.capture i = (s.raised h).holding i c := by
  simp only [State.capture, hc, hm]
  rfl

theorem State.raised_ar (s : State) (h : CHdr) : (s.raised h).ar = if h.cmode % 2 = 1 then
    { s.ar with inflight := insertLanding ⟨s.ar.scyc + 2, s.ar.scyc + 1, s.slot, s.bun.pc, .cc, h.cc, 1, none⟩ s.ar.inflight } else s.ar := by
  rw [State.raised]
  split
  · exact s.ar_out h.cc 1 1 none (by decide)
  · rfl

theorem State.raised_bun (s : State) (h : CHdr) : (s.raised h).bun = s.bun ∧ (s.raised h).slot = s.slot := by
  rw [State.raised]
  split <;> exact ⟨rfl, rfl⟩

theorem State.raised_wbuf (s : State) (h : CHdr) : (s.raised h).cx.wbuf = s.cx.wbuf := by
  rw [State.raised]
  split
  · obtain ⟨f, hf⟩ := s.out_eq .cc h.cc 1 1 none
    rw [hf, State.cx_modAr]
  · rfl

theorem Arch.KeepsVisible.of_inflight (a : Arch) (l : List Landing) : a.KeepsVisible { a with inflight := l } :=
  ⟨rfl, rfl, rfl, rfl, rfl, rfl, rfl, rfl, rfl, rfl, rfl, rfl, rfl, rfl, rfl⟩

theorem State.raised_visible (s : State) (h : CHdr) : s.ar.KeepsVisible (s.raised h).ar := by
  rw [State.raised_ar]
  split
  · exact .of_inflight s.ar _
  · exact .of_inflight s.ar s.ar.inflight

theorem State.KeepsOutside.refl (s : State) : s.KeepsOutside s :=
  ⟨rfl, rfl, rfl, rfl, rfl, rfl, rfl, rfl, rfl, rfl, rfl, rfl, rfl, rfl, rfl, rfl, rfl, rfl, rfl, rfl, rfl, fun _ _ => rfl, fun _ _ => rfl⟩

/-- A change of the issuing context alone keeps everything outside it. -/
theorem State.KeepsOutside.modCx (s : State) (f : Ctx → Ctx) : s.KeepsOutside (s.modCx f) :=
  { State.KeepsOutside.refl s with
    cores := fun _ hq => s.core_modCore_ne _ hq
    ctxs := fun _ hc => s.ctxAt_modCx_ne f (.inr hc) }

theorem State.KeepsOutside.modAr (s : State) (f : Arch → Arch) : s.KeepsOutside (s.modAr f) := .modCx s fun k => { k with arch := f s.ar }

theorem State.KeepsOutside.raised (s : State) (h : CHdr) : s.KeepsOutside (s.raised h) := by
  rw [State.raised]
  split
  · obtain ⟨f, hf⟩ := s.out_eq .cc h.cc 1 1 none
    rw [hf]
    exact .modAr s f
  · exact .refl s

theorem State.KeepsOutside.holding {s t : State} (h : s.KeepsOutside t) (i : Instr) (c : Cmd) : s.KeepsOutside (t.holding i c) :=
  { h with }

/-- Settles O49: a capture is all that a command does (`Instr.captures_of_cmdOf`), its checks pass (`State.chkCmd_ok`), and it adds the command
and the rise of its counter (`State.capture_eq`). -/
theorem engineCommandsCaptured : Obligations.EngineCommandsCaptured := by
  intro i s kind op h hc hacq stg hf hb ho hn
  have hi := Instr.captures_of_cmdOf hc
  obtain ⟨c, hm, hkind, hop, hh, htask, hasid, hlcore, hpcore, hfault, hstarted, hstg⟩ := State.mkCmd_some (s := s) hc stg
  obtain ⟨hbun, hslot⟩ := s.raised_bun h
  have har : ((s.raised h).holding i c).ar = (s.raised h).ar := rfl
  have hready : s.ReadyFor i := .of_mem (hi.xsrcs ▸ s.xReady_nil) hi.vsrcs hi.vdests hacq hi.mat hi.psrcs
  have hchk : s.chkOp i = .ok := (hi.check s).trans (State.chkCmd_ok hc hf hb ho hn)
  refine ⟨(s.raised h).holding i c, c, ?_, ?_, hkind, hop, hh, htask, hasid, hlcore, hpcore, hfault, hstarted, hstg, fun hodd => ?_,
    fun heven => ?_, (State.KeepsOutside.raised s h).holding i c, s.raised_visible h, s.raised_wbuf h⟩
  · rw [hi.exec, State.runOp_ready _ hready hchk (hi.jump s) (Instr.ne_mmap_of_needsMatrix hi.mat), State.capture_eq hc hm]
  · change (s.raised h).bun.ops ++ [⟨(s.raised h).slot, i, [], 0, some c⟩] = _
    rw [hbun, hslot]
  · rw [har, s.raised_ar, if_pos hodd]
  · rw [har, s.raised_ar, if_neg (by omega)]

end Sys2Proof.Machine
end

/-! ## Streams, the group barrier and operations on tasks -/

section
namespace Sys2Proof.Machine

/-! ### Streams (R158, R163, R164) -/

theorem exec_qbind (n a dir fek add ai : Nat) (depth : Option Nat) (s : State) : exec (.qbind n a dir fek add ai depth) s =
    State.runOp (.qbind n a dir fek add ai depth) (fun s => s.modBun (fun b =>
      { b with ends := b.ends ++ [.bind n (some (s.binding a dir fek add ai depth))] })) s := rfl

theorem exec_qunbind (n : Nat) (s : State) : exec (.qunbind n) s =
    State.runOp (.qunbind n) (fun s => s.modBun (fun b => { b with ends := b.ends ++ [.bind n none] })) s := rfl

/-- What QSYNC leaves for the end of its bundle: an input stream fetches again. -/
def State.syncStream (s : State) (n : Nat) : State :=
  match s.stream n with
  | some st => if st.dir = 0 then s.modBun (fun b => { b with ends := b.ends ++ [.sync n] }) else s
  | none => s

theorem exec_qsync (n : Nat) (s : State) : exec (.qsync n) s = State.runOp (.qsync n) (fun s => s.syncStream n) s := rfl

theorem exec_qstat (d n : Nat) (s : State) :
    exec (.qstat d n) s = State.runOp (.qstat d n) (fun s => s.outX d 1 (BitVec.ofNat 64 (s.qstatWord n))) s := rfl

theorem State.chkSettled_ok {s : State} {n : Nat} (h : s.ar.flightTo n = 0) : s.chkSettled n = .ok := by
  rw [State.chkSettled, h]
  rfl

theorem State.chkOp_qbind_ok {s : State} {n a dir fek add ai : Nat} {depth : Option Nat} (hf : s.ar.flightTo n = 0)
    (hm : (s.binding a dir fek add ai depth).malformed = false) : s.chkOp (.qbind n a dir fek add ai depth) = .ok := by
  rw [State.chkOp, State.chkSettled_ok hf, hm]
  rfl

section
variable {s : State} {n : Nat} {st : Stream}

theorem State.chkOp_qsync_unbound (h : s.stream n = none) : s.chkOp (.qsync n) = .ok := by
  rw [State.chkOp, h]

theorem State.chkOp_qsync_input (h : s.stream n = some st) (hd : st.dir = 0) : s.chkOp (.qsync n) = .ok := by
  simp only [State.chkOp, h, hd]
  rfl

/-- QSYNC of an output stream: nothing is in flight to it, the boundary's commit is made, and no write is in the fabric. -/
theorem State.chkOp_qsync_output (h : s.stream n = some st) (hd : st.dir = 1) (hf : s.ar.flightTo n = 0) (hb : s.cx.bnd = true)
    (ho : s.farOpen (fun k => k.m.kind == 3 && k.req == 0) = false) : s.chkOp (.qsync n) = .ok := by
  simp only [State.chkOp, h, hd, if_true, State.chkSettled_ok hf, hb, ho]
  rfl

theorem State.syncStream_unbound (h : s.stream n = none) : s.syncStream n = s := by
  rw [State.syncStream, h]

theorem State.syncStream_input (h : s.stream n = some st) (hd : st.dir = 0) :
    s.syncStream n = s.modBun (fun b => { b with ends := b.ends ++ [.sync n] }) := by
  simp only [State.syncStream, h, hd, if_true]

theorem State.syncStream_output (h : s.stream n = some st) (hd : st.dir = 1) : s.syncStream n = s := by
  simp only [State.syncStream, h, hd]
  rfl

theorem State.qstatWord_unbound (h : s.stream n = none) : s.qstatWord n = 0 := by
  rw [State.qstatWord, h]

end

/-! ### The group barrier (R387) -/

theorem exec_gbar (d g : Nat) (s : State) : exec (.gbar d g) s = State.runOp (.gbar d g) (fun s =>
    (s.outX d 1 (BitVec.ofNat 64 (Tbl.get 0 s.myTask.gt g))).modTask s.tid (fun t => { t with gw := Tbl.put t.gw g false })) s := rfl

/-- GBAR leaves once the group's old phase is complete and everything before it is performed. -/
theorem State.chkOp_gbar_ok {s : State} {d g gid : Nat} (hr : s.releaseReady) (hg : s.myTask.slotGid g = some gid) (hb : s.cx.bnd = true)
    (hw : Tbl.get false s.myTask.gw g = true) (hp : s.phaseReached g = true) : s.chkOp (.gbar d g) = .ok := by
  simp only [State.chkOp, hg, hb, hw, hp, State.chkReleased_ok hr]
  rfl

theorem State.chkOp_gbar_slot {s : State} (d : Nat) {g : Nat} (hg : s.myTask.slotGid g = none) :
    s.chkOp (.gbar d g) = .trap { cause := 14, d0 := 3, d1 := g } := by
  rw [State.chkOp, if_pos hg]

theorem State.stopOp_gbar (s : State) (d g : Nat) (t : Trap) : s.stopOp (.gbar d g) t = s.takeTrap t := rfl

theorem State.tid_outX (s : State) (d lat : Nat) (v : Word) : (s.outX d lat v).tid = s.tid := by
  obtain ⟨f, hf⟩ := s.out_eq .x d lat v.toNat none
  rw [State.outX, hf, State.tid, State.cx_modAr]
  rfl

/-! ### The operations that act after their bundle's commit (R392, R408, R409) -/

theorem exec_endt (s : State) : exec .endt s = State.runOp .endt (fun s => s.endTask) s := rfl

theorem exec_yield (s : State) : exec .yield s = State.runOp .yield (fun s => s.matFlush.saveFrame true []) s := rfl

theorem exec_trap (n : Nat) (s : State) : exec (.trap n) s =
    State.runOp (.trap n) (fun s => s.takeTrap { cause := 20, d0 := n, slot := 0, pc := some s.bun.pc }) s := rfl

theorem exec_brk (n : Nat) (s : State) : exec (.brk n) s =
    State.runOp (.brk n) (fun s => s.takeTrap { cause := 21, d0 := n, slot := 0, pc := some s.bun.pc }) s := rfl

theorem exec_rett (s : State) : exec .rett s = State.runOp .rett (fun s => s.returnTrap s.bun.pc) s := rfl

theorem State.chkOp_endt_ok {s : State} (hr : s.releaseReady) (hl : s.ar.loads.any (PendLoad.lateStream s.ar.scyc) = false) :
    s.chkOp .endt = .ok := by
  rw [State.chkOp, State.chkReleased_ok hr, hl]
  rfl

/-- RETT outside a handler is a BRK (R409). -/
theorem State.returnTrap_outside {s : State} (pc : Nat) (h : s.cx.inh = false) :
    s.returnTrap pc = s.takeTrap { cause := 21, d0 := 1024, slot := 0, pc := some pc } := by
  rw [State.returnTrap, h]
  rfl

theorem State.traceRec_off {s : State} (h : (s.core s.cur).trace = false) (kind pc cyc w : Nat) : s.traceRec kind pc cyc w = s := by
  rw [State.traceRec, h]
  rfl

/-- The registers with which RETT goes on: the frame's, at RESUME. -/
def State.resumeRegs (s : State) (pa : Nat) : Arch := { s.frameRegs pa s.cx.frameLoads true with pc := fld (s.fw pa 0x58) 17 0 }

theorem State.returnTrap_handler {s : State} {pa : Nat} (pc : Nat) (h : s.cx.inh = true) (hpa : s.framePA true false = .ok pa)
    (hbad : s.frameBad pa = false) (ht : (s.core s.cur).trace = false) : ∃ post ppc, s.returnTrap pc =
      (s.dropKept true).modCx (fun k => { k with arch := s.resumeRegs pa, image := s.resumeRegs pa, inh := false, post := post, postPc := ppc,
                                                 frameLoads := [], job := none, jobIdx := none, wbuf := [], win := [], rets := [] }) := by
  refine ⟨s.framePost pa true (s.resumeRegs pa), fld (s.fw pa 0x48) 17 0, ?_⟩
  rw [State.returnTrap, h, hpa]
  simp only [hbad, State.traceRec_off ht]
  rfl

/-! ### The end of a task (R101, R392) -/

/-- From `s` to `t`, the same context issues. -/
structure IssuerKept (s t : State) : Prop where
  cur : t.cur = s.cur
  ctx : t.ctx = s.ctx

theorem IssuerKept.refl (s : State) : IssuerKept s s := ⟨rfl, rfl⟩

theorem IssuerKept.trans {s t u : State} (h : IssuerKept s t) (k : IssuerKept t u) : IssuerKept s u :=
  ⟨k.cur.trans h.cur, k.ctx.trans h.ctx⟩

theorem IssuerKept.foldl {α : Type} {f : State → α → State} (hf : ∀ s a, IssuerKept s (f s a)) (l : List α) (s : State) :
    IssuerKept s (l.foldl f s) := by
  induction l generalizing s with
  | nil => exact .refl s
  | cons a l ih => exact (hf s a).trans (ih _)

theorem CoresKept.issuer {s t : State} (h : CoresKept s t) : IssuerKept s t := ⟨h.cur, h.ctx⟩

theorem CtxsKept.issuer {s t : State} (h : CtxsKept s t) : IssuerKept s t := ⟨h.cur, h.ctx⟩

theorem DiesOnly.issuer {s t : State} (h : DiesOnly s t) : IssuerKept s t := ⟨h.cur, h.ctx⟩

theorem IssuerKept.modCx (s : State) (f : Ctx → Ctx) : IssuerKept s (s.modCx f) := ⟨rfl, rfl⟩

theorem IssuerKept.withhold (s : State) (iss : Nat) (es : List WEnt) : IssuerKept s (s.withhold iss es) := by
  unfold State.withhold
  extract_lets t sps u v w fs
  have ht : IssuerKept s t := .foldl (fun s _ => .modCx s _) es s
  have hw : IssuerKept v w := .foldl (fun s e => by
    split
    · exact ⟨rfl, rfl⟩
    · exact .refl s) es v
  exact ht.trans (.trans (t := v) ⟨rfl, rfl⟩ (hw.trans ⟨rfl, rfl⟩))

theorem IssuerKept.append (s : State) (l : Landing) : IssuerKept s (s.append l) := by
  unfold State.append
  extract_lets q stop
  split
  · exact .refl s
  · exact ⟨rfl, rfl⟩
  · split
    · exact ⟨rfl, rfl⟩
    · exact (IssuerKept.withhold s ..).trans ⟨rfl, rfl⟩

theorem IssuerKept.flushStreams (s : State) : IssuerKept s s.flushStreams := by
  unfold State.flushStreams
  extract_lets mine l t
  exact .trans (t := t) ⟨rfl, rfl⟩ (.foldl .append l t)

theorem IssuerKept.performAll (s : State) : IssuerKept s s.performAll := by
  have hstore (t : State) (e : WEnt) : IssuerKept t ((t.resultsBefore e).performStore e) :=
    (CtxsKept.resultsBefore t e).issuer.trans (CoresKept.performStore _ e).issuer
  exact (IssuerKept.foldl hstore s.cx.wbuf s).trans ⟨rfl, rfl⟩

/-- The state in which a task that ends leaves its groups: its appends, stores and results are done. -/
def State.settled (s : State) : State := s.flushStreams.performAll.matFlush.landAll

theorem IssuerKept.matFlush (s : State) : IssuerKept s s.matFlush := (CtxsKept.matFlushIf s fun _ => true).issuer

theorem IssuerKept.landAll (s : State) : IssuerKept s s.landAll := ⟨rfl, rfl⟩

theorem IssuerKept.settled (s : State) : IssuerKept s s.settled :=
  (((IssuerKept.flushStreams s).trans (.performAll _)).trans (.matFlush _)).trans (.landAll _)

/-- A task that ends has left its groups, released its locks and decremented its dependence links. -/
def State.ended (s : State) (id l0 l1 : Nat) : State :=
  ((((s.leaveGroups id (List.range 4)).dropLocks id).decLink l0).decLink l1).modTask id (fun t => { t with state := 5, async := [] })

theorem State.endTask_eq (s : State) : s.endTask = (s.settled.ended s.tid s.myTask.dept0 s.myTask.dept1).freeCtx := rfl

/-- From `s` to `t`, no task's groups and no lock change, and the same context issues. -/
structure MembersKept (s t : State) : Prop where
  slots : ∀ k n, (t.task k).slotGid n = (s.task k).slotGid n
  locks : ∀ d, (t.die d).locks = (s.die d).locks
  issuer : IssuerKept s t

theorem MembersKept.refl (s : State) : MembersKept s s := ⟨fun _ _ => rfl, fun _ => rfl, .refl s⟩

theorem MembersKept.trans {s t u : State} (h : MembersKept s t) (k : MembersKept t u) : MembersKept s u :=
  ⟨fun i n => (k.slots i n).trans (h.slots i n), fun d => (k.locks d).trans (h.locks d), h.issuer.trans k.issuer⟩

/-- A record that is written is read back by every identifier of its slot; the others read what they read before. -/
theorem State.task_setTask (s : State) (i k : Nat) (t : Task) :
    (s.setTask i t).task k = t ∧ s.task k = s.task i ∨ (s.setTask i t).task k = s.task k := by
  by_cases hd : fld k 18 16 = fld i 18 16
  · by_cases hn : fld k 15 0 = fld i 15 0
    · have hslot (u : State) : u.task k = u.task i := by rw [State.task, hd, hn, State.task]
      exact .inl ⟨(hslot _).trans (s.task_setTask_self i t), hslot s⟩
    · refine .inr ?_
      rw [State.task, State.setTask, hd, State.die_modDie_self, Tbl.get_put_ne _ _ _ hn, State.task, hd]
  · refine .inr ?_
    rw [State.task, State.setTask, State.die_modDie_ne _ _ hd, State.task]

theorem MembersKept.setTask {s : State} {i : Nat} {t : Task} (h : ∀ n, t.slotGid n = (s.task i).slotGid n) : MembersKept s (s.setTask i t) where
  slots k n := by
    rcases s.task_setTask i k t with ⟨hnew, hold⟩ | hkept
    · rw [hnew, hold, h]
    · rw [hkept]
  locks d := s.locks_modTask i d fun _ => t
  issuer := ⟨rfl, rfl⟩

theorem MembersKept.makeReady (s : State) (id : Nat) : MembersKept s (s.makeReady id) :=
  .trans (t := s.setTask id { s.task id with state := 2 }) (.setTask fun _ => rfl) ⟨fun _ _ => rfl, fun _ => rfl, ⟨rfl, rfl⟩⟩

theorem MembersKept.decTask (s : State) (d id n : Nat) : MembersKept s (s.decTask d id n).2 := by
  unfold State.decTask
  extract_lets t dep u
  have hu : MembersKept s u := .setTask fun _ => rfl
  split
  · exact .refl s
  · split
    · exact hu.trans (.makeReady u id)
    · exact hu

theorem MembersKept.decLink (s : State) (id : Nat) : MembersKept s (s.decLink id) := by
  rw [State.decLink]
  split
  · exact .refl s
  · exact .decTask s _ id 1

theorem MembersKept.decLinks (s : State) (l0 l1 : Nat) : MembersKept s ((s.decLink l0).decLink l1) := (MembersKept.decLink s l0).trans (.decLink _ l1)

theorem IssuerKept.ended (s : State) (id l0 l1 : Nat) : IssuerKept s (s.ended id l0 l1) := by
  have hleft := (DiesOnly.leaveGroups s id (List.range 4)).trans (.dropLocks _ id)
  exact (hleft.issuer.trans (MembersKept.decLinks _ l0 l1).issuer).trans ⟨rfl, rfl⟩

theorem State.ended_task (s : State) (id l0 l1 : Nat) : ((s.ended id l0 l1).task id).state = 5 ∧ ((s.ended id l0 l1).task id).async = [] ∧
    ∀ n, n < 4 → ((s.ended id l0 l1).task id).slotGid n = none := by
  have hslot (t : Task) (n : Nat) : Task.slotGid { t with state := 5, async := [] } n = t.slotGid n := rfl
  rw [State.ended, State.task_modTask_self]
  refine ⟨rfl, rfl, fun n hn => ?_⟩
  rw [hslot, (MembersKept.decLinks _ l0 l1).slots, State.task_dropLocks]
  exact State.leaveGroups_slotGid id (List.range 4) s (.inl (List.mem_range.2 hn))

theorem State.ended_locks {s : State} {id l0 l1 d : Nat} {l : Nat × Nat} (h : l ∈ ((s.ended id l0 l1).die d).locks) : l.2 ≠ id := by
  rw [State.ended, State.locks_modTask, (MembersKept.decLinks _ l0 l1).locks] at h
  exact State.not_mem_locks_dropLocks h

/-- What ENDT leaves of its task and its context. -/
theorem State.endTask_effect (s : State) : (s.endTask.task s.tid).state = 5 ∧ (s.endTask.task s.tid).async = [] ∧
    (∀ n, n < 4 → (s.endTask.task s.tid).slotGid n = none) ∧ (s.endTask.ctxAt s.cur s.ctx).task = none ∧
    ∀ d l, l ∈ (s.endTask.die d).locks → l.2 ≠ s.tid := by
  have hissuer := (IssuerKept.settled s).trans (.ended s.settled s.tid s.myTask.dept0 s.myTask.dept1)
  have hfree := (s.settled.ended s.tid s.myTask.dept0 s.myTask.dept1).freeCtx_ctx
  rw [hissuer.cur, hissuer.ctx] at hfree
  obtain ⟨hstate, hasync, hslots⟩ := s.settled.ended_task s.tid s.myTask.dept0 s.myTask.dept1
  rw [State.endTask_eq, State.task_freeCtx]
  refine ⟨hstate, hasync, hslots, hfree, fun d l hl => ?_⟩
  rw [(State.die_freeCtx _ d).2] at hl
  exact State.ended_locks hl

/-! ### The queue that a task joins as it yields (R378, R392) -/

/-- The ready queues of a core, and what orders the tasks that join them. -/
def PCore.queues (p : PCore) : Tbl (List Nat) × Tbl (Nat × Nat) × Nat := (p.ready, p.joins, p.cyc)

/-- From `s` to `t`, no die, no ready queue and no context's task changes, and the same context issues. -/
structure TasksKept (s t : State) : Prop where
  dies : t.dies = s.dies
  queues : ∀ p, (t.core p).queues = (s.core p).queues
  running : ∀ p c, (t.ctxAt p c).task = (s.ctxAt p c).task
  issuer : IssuerKept s t

theorem TasksKept.refl (s : State) : TasksKept s s := ⟨rfl, fun _ => rfl, fun _ _ => rfl, .refl s⟩

theorem TasksKept.trans {s t u : State} (h : TasksKept s t) (k : TasksKept t u) : TasksKept s u :=
  ⟨k.dies.trans h.dies, fun p => (k.queues p).trans (h.queues p), fun p c => (k.running p c).trans (h.running p c), h.issuer.trans k.issuer⟩

theorem TasksKept.foldl {α : Type} {f : State → α → State} (hf : ∀ s a, TasksKept s (f s a)) (l : List α) (s : State) :
    TasksKept s (l.foldl f s) := by
  induction l generalizing s with
  | nil => exact .refl s
  | cons a l ih => exact (hf s a).trans (ih _)

theorem CoresKept.tasksKept {s t : State} (h : CoresKept s t) (hd : t.dies = s.dies) : TasksKept s t where
  dies := hd
  queues p := by rw [State.core, h.cores, State.core]
  running p c := congrArg Ctx.task (h.ctxAt p c)
  issuer := h.issuer

theorem State.queues_modCore (s : State) (p : Nat) {f : PCore → PCore} (hf : (f (s.core p)).queues = (s.core p).queues) (q : Nat) :
    ((s.modCore p f).core q).queues = (s.core q).queues := by
  by_cases h : q = p
  · rw [h, State.core_modCore_self, hf]
  · rw [State.core_modCore_ne s f h]

theorem TasksKept.modCore (s : State) (p : Nat) {f : PCore → PCore} (hc : ∀ q, (f q).ctxs = q.ctxs) (hq : ∀ q, (f q).queues = q.queues) :
    TasksKept s (s.modCore p f) :=
  ⟨rfl, s.queues_modCore p (hq _), fun q c => congrArg Ctx.task (s.ctxAt_modCore (hc _) q c), rfl, rfl⟩

theorem TasksKept.modCx (s : State) {f : Ctx → Ctx} (hf : (f s.cx).task = s.cx.task) : TasksKept s (s.modCx f) where
  dies := rfl
  queues := s.queues_modCore s.cur rfl
  running p c := by
    by_cases h : p = s.cur ∧ c = s.ctx
    · obtain ⟨rfl, rfl⟩ := h
      exact (congrArg Ctx.task (s.cx_modCx f)).trans hf
    · rw [State.ctxAt_modCx_ne s f (by tauto)]
  issuer := .modCx s f

theorem TasksKept.within {s : State} (p c : Nat) {f : State → State} (hf : ∀ t, TasksKept t (f t)) : TasksKept s (s.within p c f) :=
  have h := hf { s with cur := p, ctx := c }
  ⟨h.dies, h.queues, h.running, rfl, rfl⟩

theorem TasksKept.writeResAt (s : State) (p i : Nat) : TasksKept s (s.writeResAt p i) := by
  rw [State.writeResAt]
  split
  · exact .refl s
  · next r _ =>
    have hcut : TasksKept (s.writeRes r) ((s.writeRes r).within p r.ctx (fun s =>
        (List.range r.a.length).foldl (fun s m => s.cutWindows .acc r.lcore (tileOff r.tile m) 512) s)) :=
      .within p r.ctx (TasksKept.foldl (fun t _ => .modCx t rfl) _)
    exact (((CoresKept.modLcore s r.lcore _).tasksKept rfl).trans hcut).trans (.modCore _ p (fun _ => rfl) fun _ => rfl)

theorem TasksKept.matFlushIf (s : State) (f : MRes → Bool) : TasksKept s (s.matFlushIf f) := by
  refine .foldl (fun t i => ?_) _ s
  split
  · split
    · exact .writeResAt t _ i
    · exact .refl t
  · exact .refl t

theorem TasksKept.matFlush (s : State) : TasksKept s s.matFlush := .matFlushIf s fun _ => true

theorem State.clearPA_dies (s : State) (pa n : Nat) : (s.clearPA pa n).dies = s.dies := by
  unfold State.clearPA
  split
  · rfl
  · dsimp only
    split <;> rfl

theorem TasksKept.writeFrame (s : State) (pa : Nat) (items : List Item) : TasksKept s (s.writeFrame pa items) :=
  ((CoresKept.clearPA s pa frameSize).tasksKept (s.clearPA_dies pa frameSize)).trans
    (.foldl (fun t _ => (CoresKept.storePA t _ _ _).tasksKept (t.storePA_dies _ _ _)) items _)

theorem TasksKept.tid {s t : State} (h : TasksKept s t) : t.tid = s.tid := by
  rw [State.tid, State.cx, h.issuer.cur, h.issuer.ctx, Ctx.tid, h.running]
  rfl

theorem State.hostOf_of_dies {s t : State} (h : t.dies = s.dies) (l : Nat) : t.hostOf l = s.hostOf l := by
  rw [State.hostOf, State.die_of_dies h, State.hostOf]

theorem State.hostOf_dropGot (s : State) (g : Nat → Bool) (l : Nat) : (s.dropGot g).hostOf l = s.hostOf l := by
  rw [State.hostOf, State.die_mapDies (s := s) (t := s.dropGot g) (f := fun x => { x with copies := x.copies.map (fun k =>
    if k.m.kind == 1 && k.req != 0 && g k.req then { k with stale := true } else k) }) rfl rfl]
  rfl

/-- A context that becomes free moves no logical core and changes no ready queue. -/
theorem State.hostOf_freeCtx (s : State) (l : Nat) : s.freeCtx.hostOf l = s.hostOf l := by
  have hfree : s.freeCtx.hostOf l = (s.matSettle.dropGotOf s.matSettle.cur s.matSettle.ctx).hostOf l := State.hostOf_of_dies rfl l
  rw [hfree, ← State.hostOf_of_dies s.matSettle_dies.1 l]
  exact State.hostOf_dropGot ..

theorem State.queues_freeCtx (s : State) (p : Nat) : (s.freeCtx.core p).queues = (s.core p).queues := by
  have hset : TasksKept s s.matSettle := .matFlushIf s fun r => r.committed
  rw [State.freeCtx, State.queues_modCore _ _ rfl]
  exact (State.queues_modCore _ _ rfl p).trans (hset.queues p)

/-- A task that yields joins the ready queue of its level on the core that hosts it, as that core stood. -/
theorem State.saveFrame_join {s : State} {pa : Nat} (h : s.framePA false true = .ok pa) (left : List CommitOp) :
    ∃ p : PCore, p.queues = (s.core (s.hostOf s.myTask.lcore)).queues ∧
      (s.saveFrame true left).core (s.hostOf s.myTask.lcore) = p.join s.myTask.prio s.tid := by
  obtain ⟨items, capt, held, hu⟩ := State.saveFrame_ok h true left
  have hkept : TasksKept s (((s.writeFrame pa items).keepRows false capt held s.cx.arch).keepLoads) :=
    ((TasksKept.writeFrame s pa items).trans ((CoresKept.keepRows _ false capt held s.cx.arch).tasksKept rfl)).trans
      ((CoresKept.keepLoads _).tasksKept rfl)
  generalize ((s.writeFrame pa items).keepRows false capt held s.cx.arch).keepLoads = v at hu hkept
  have htask : v.freeCtx.task s.tid = s.myTask := (v.task_freeCtx s.tid).trans (State.task_of_dies hkept.dies s.tid)
  have hhost (l : Nat) : v.freeCtx.hostOf l = s.hostOf l := (v.hostOf_freeCtx l).trans (State.hostOf_of_dies hkept.dies l)
  have hcore := v.freeCtx.core_makeReady s.tid
  rw [htask, hhost] at hcore
  rw [hu]
  exact ⟨_, (v.queues_freeCtx _).trans (hkept.queues _), hcore⟩

/-- The task of a context that yields is READY, at the tail of its queue where no other has joined in that core cycle. -/
theorem State.yield_effect {s : State} {pa : Nat} (h : s.matFlush.framePA false true = .ok pa) :
    ((s.matFlush.saveFrame true []).task s.tid).state = 2 ∧ ((s.matFlush.saveFrame true []).ctxAt s.cur s.ctx).task = none ∧
    s.tid ∈ Tbl.get [] ((s.matFlush.saveFrame true []).core (s.hostOf s.myTask.lcore)).ready s.myTask.prio ∧
    ((Tbl.get (0, 0) (s.core (s.hostOf s.myTask.lcore)).joins s.myTask.prio).1 ≠ (s.core (s.hostOf s.myTask.lcore)).cyc →
      Tbl.get [] ((s.matFlush.saveFrame true []).core (s.hostOf s.myTask.lcore)).ready s.myTask.prio =
        Tbl.get [] (s.core (s.hostOf s.myTask.lcore)).ready s.myTask.prio ++ [s.tid]) := by
  have hflush := TasksKept.matFlush s
  have hmine : s.matFlush.myTask = s.myTask := by
    rw [State.myTask, hflush.tid, State.task_of_dies hflush.dies, State.myTask]
  obtain ⟨hctx, hstate⟩ := State.saveFrame_task h true []
  obtain ⟨p, hqueues, hjoin⟩ := State.saveFrame_join h []
  rw [hflush.queues, hmine, State.hostOf_of_dies hflush.dies] at hqueues
  rw [hmine, hflush.tid, State.hostOf_of_dies hflush.dies] at hjoin
  rw [hflush.tid] at hstate
  rw [hflush.issuer.cur, hflush.issuer.ctx] at hctx
  obtain ⟨hready, hjoins, hcyc⟩ : p.ready = _ ∧ p.joins = _ ∧ p.cyc = _ := by simpa only [PCore.queues, Prod.mk.injEq] using hqueues
  rw [hjoin, ← hready, ← hjoins, ← hcyc]
  exact ⟨hstate, hctx, PCore.mem_ready_join _ _ _, PCore.ready_join_first _⟩

/-- Settles O50: each operation by its arm and its checks; the end of a task by `State.endTask_effect`, a yield by `State.yield_effect`, the return
from a handler by `State.returnTrap_handler`. -/
theorem taskOperationsComplete : Obligations.TaskOperationsComplete := by
  refine ⟨fun s n a dir fek add ai depth hx hacq hf hm => ?qbind, fun s n hf => ?qunbind, fun s n hacq => ?qsync,
    fun s d n => ⟨?qstat, State.qstatWord_unbound⟩, fun s d g gid hacq hr hg hb hw hp => ?gbar, fun s d g hacq hg hc => ?slot,
    fun s hacq hr hl => ?endt, fun s pa h => ?yield, fun s n => ⟨?trap, ?brk⟩, fun s => ⟨fun h => ?outside, fun pa h hpa hbad ht => ?handler⟩⟩
  case qbind =>
    rw [exec_qbind]
    exact State.runOp_mem _ hx hacq (State.chkOp_qbind_ok hf hm)
  case qunbind =>
    rw [exec_qunbind]
    exact State.runOp_x _ s.xReady_nil (State.chkSettled_ok hf)
  case qsync =>
    rw [exec_qsync]
    refine ⟨fun hn => ?_, fun st hn hd => ?_, fun st hn hd hf hb ho => ?_⟩
    · rw [State.runOp_mem _ s.xReady_nil hacq (State.chkOp_qsync_unbound hn), State.syncStream_unbound hn]
    · rw [State.runOp_mem _ s.xReady_nil hacq (State.chkOp_qsync_input hn hd), State.syncStream_input hn hd]
    · rw [State.runOp_mem _ s.xReady_nil hacq (State.chkOp_qsync_output hn hd hf hb ho), State.syncStream_output hn hd]
  case qstat =>
    rw [exec_qstat]
    exact State.runOp_x _ s.xReady_nil rfl
  case gbar =>
    rw [exec_gbar, State.runOp_mem _ s.xReady_nil hacq (State.chkOp_gbar_ok hr hg hb hw hp)]
    refine ⟨_, rfl, ?_, rfl⟩
    change Tbl.get false (State.task _ (s.outX d 1 _).tid).gw g = false
    rw [State.tid_outX, State.task_modTask_self, Tbl.get_put_self]
  case slot =>
    have hready : s.ReadyFor (.gbar d g) := .of_mem s.xReady_nil rfl rfl hacq rfl
    rw [exec_gbar, State.runOp_trap _ hc hready (State.chkOp_gbar_slot d hg) rfl, State.stopOp_gbar]
  case endt =>
    rw [exec_endt]
    exact ⟨_, State.runOp_mem _ s.xReady_nil hacq (State.chkOp_endt_ok hr hl), rfl, s.endTask_effect⟩
  case yield =>
    rw [exec_yield]
    exact ⟨_, State.runOp_x _ s.xReady_nil rfl, State.yield_effect h⟩
  case trap =>
    rw [exec_trap]
    exact State.runOp_x _ s.xReady_nil rfl
  case brk =>
    rw [exec_brk]
    exact State.runOp_x _ s.xReady_nil rfl
  case outside =>
    rw [exec_rett, State.runOp_x _ s.xReady_nil rfl, State.returnTrap_outside _ h]
  case handler =>
    obtain ⟨post, ppc, hret⟩ := State.returnTrap_handler s.bun.pc h hpa hbad ht
    refine ⟨s.returnTrap s.bun.pc, ?_, ?_⟩
    · rw [exec_rett, State.runOp_x _ s.xReady_nil rfl]
    · rw [hret, State.ar, State.cx_modCx]
      exact ⟨rfl, rfl, rfl, rfl, rfl, rfl, rfl, rfl⟩

end Sys2Proof.Machine
end

/-! ## Predicate operations on a predicate register marked for POISON -/

section
namespace Sys2Proof.Machine

/-- A read of a predicate register that carries a mark takes POISON (R402, R490). -/
theorem State.chkP_poisoned {s : State} {n : Nat} (h : Tbl.has s.ar.ppois n = true) :
    s.chkP n = .trap (trapPoison (Tbl.get 0 s.ar.ppois n)) := if_pos h

/-- Reading a predicate register never waits, and meets no recipe. -/
theorem State.chkP_settled (s : State) (n : Nat) : (s.chkP n).waits = false ∧ (s.chkP n).isStale = false := by
  unfold State.chkP
  split <;> exact ⟨rfl, rfl⟩

/-- Where no answer waits and none names a stale recipe, the first that is not `ok` counts. -/
theorem Chk.join_settled {l : List Chk} (h : ∀ c ∈ l, c.waits = false ∧ c.isStale = false) : Chk.join l = Chk.all l := by
  have hw : l.find? (fun c => c.waits && !c.replays) = none := List.find?_eq_none.2 (fun c hc => by simp [(h c hc).1])
  have hs : l.find? Chk.isStale = none := List.find?_eq_none.2 (fun c hc => by simp [(h c hc).2])
  have hf : l.find? Chk.waits = none := List.find?_eq_none.2 (fun c hc => by simp [(h c hc).1])
  rw [Chk.join, hw, hs, hf]
  rfl

theorem exec_pand (d a b : Nat) (s : State) :
    exec (.pand d a b) s = State.runOp (.pand d a b) (fun s => s.outP d 2 (s.rp a &&& s.rp b).toNat) s := rfl

theorem State.chkReads_pand (s : State) (d a b : Nat) : s.chkReads (.pand d a b) = (s.chkP a).andThen ((s.chkP b).andThen .ok) :=
  Chk.join_settled (l := [s.chkP a, s.chkP b]) (by simp [State.chkP_settled])

/-- A PAND whose first source carries a mark traps in its slot, where its checks have not been made with its bundle's. -/
theorem exec_pand_poisoned {s : State} {d a b : Nat} (hc : s.bun.checked = false) (hp : Tbl.has s.ar.ppois a = true) :
    exec (.pand d a b) s = .next (s.takeTrap { trapPoison (Tbl.get 0 s.ar.ppois a) with slot := s.slot }) := by
  have hread : s.chkReads (.pand d a b) = .trap (trapPoison (Tbl.get 0 s.ar.ppois a)) := by
    rw [State.chkReads_pand, State.chkP_poisoned hp]
    rfl
  have hop : s.opCheck (.pand d a b) = .trap { trapPoison (Tbl.get 0 s.ar.ppois a) with slot := s.slot } := by
    rw [State.opCheck]
    · rw [hread]
      rfl
    · exact Instr.ne_mmap_of_needsMatrix rfl
  rw [exec_pand, State.runOp, hc, hop]
  rfl

/-- The state after reset once duplicate issue has found a mismatch in p1 of context 0 of core 0, which marks it (R490). -/
def markedP1 : State := ({} : State).memError { code := 9 } .preg 0 1 false

/-- The trap leaves no result in flight. -/
theorem inflight_takeTrap_markedP1 : (markedP1.takeTrap { trapPoison (Tbl.get 0 markedP1.ar.ppois 1) with slot := markedP1.slot }).ar.inflight = [] := by
  decide +kernel

/-- Refutes O41, whose clauses for PAND, POR, PXOR, PNOT and PCNT have no premise, and those for VCMP and RCWLD none on their predicate. A predicate
register that a mismatch of duplicate issue has marked takes POISON at its read (R402, R490): in `markedP1` a PAND of p1 traps, and no
result is in flight. -/
theorem not_predicateAndSpecialOperations : ¬ Obligations.PredicateAndSpecialOperations := by
  intro h
  obtain ⟨-, -, -, -, -, -, -, hlogic⟩ := h
  obtain ⟨hclaim, -⟩ := hlogic markedP1 2 1 1 0 0
  have hexec := exec_pand_poisoned (s := markedP1) (d := 2) (b := 1) rfl (by decide +kernel : Tbl.has markedP1.ar.ppois 1 = true)
  have hnone : (markedP1.outP 2 2 (markedP1.rp 1 &&& markedP1.rp 1).toNat).ar.inflight = [] := by
    rw [← Host.Outcome.next.inj (hexec.symm.trans hclaim)]
    exact inflight_takeTrap_markedP1
  have hout := congrArg Arch.inflight (markedP1.ar_out (k := .p) 2 2 (markedP1.rp 1 &&& markedP1.rp 1).toNat none (by decide))
  rw [State.outP, hout] at hnone
  exact absurd (insertLanding_mem.2 (.inl rfl)) (hnone ▸ List.not_mem_nil)

end Sys2Proof.Machine
end

/-! ## The recipe table -/

section
namespace Sys2Proof.Machine

/-! ### What entering and clearing a recipe do to the context (R219, R224) -/

@[simp] theorem Arch.inflight_putRecipe (a : Arch) (r : Recipe) : (a.putRecipe r).inflight = a.inflight := rfl

theorem Arch.recipe_clearRecipe_self (a : Arch) (v : Nat) : (a.clearRecipe v).recipe v = none := by
  rw [Arch.recipe, Arch.clearRecipe, List.find?_filter]
  exact List.find?_eq_none.2 (by simp)

theorem Arch.recipe_clearRecipe_ne (a : Arch) {v n : Nat} (h : n ≠ v) : (a.clearRecipe v).recipe n = a.recipe n := by
  have hsame (r : Recipe) : decide ((r.vd != v) = true ∧ (r.vd == n) = true) = (r.vd == n) := by
    by_cases hr : r.vd = n
    · simp [hr, h]
    · simp [hr]
  rw [Arch.recipe, Arch.clearRecipe, List.find?_filter, funext hsame, Arch.recipe]

/-- A new entry follows what is left once its register's own is cleared. -/
theorem Arch.recipes_putRecipe (a : Arch) (r : Recipe) : (a.putRecipe r).recipes = (a.clearRecipe r.vd).recipes ++ [r] := rfl

/-- The entry of a register is the one that entered last. -/
theorem Arch.recipe_putRecipe_self (a : Arch) (r : Recipe) : (a.putRecipe r).recipe r.vd = some r := by
  rw [Arch.recipe, Arch.recipes_putRecipe, List.find?_append, ← Arch.recipe, Arch.recipe_clearRecipe_self, Option.none_or]
  exact List.find?_cons_of_pos (beq_self_eq_true _)

/-- DROPPED becomes EMPTY, and a dropped value with a write to come is that write's alone. -/
theorem Arch.vst_clearRecipe_self (a : Arch) (v : Nat) : Tbl.get 0 (a.clearRecipe v).vst v =
    if Tbl.get 0 a.vst v = 2 then 0 else if Tbl.get 0 a.vst v = 3 then 1 else Tbl.get 0 a.vst v := by
  simp only [Arch.clearRecipe]
  split
  · exact Tbl.get_put_self ..
  · split
    · exact Tbl.get_put_self ..
    · rfl

theorem Arch.vst_clearRecipe_ne (a : Arch) {v n : Nat} (h : n ≠ v) : Tbl.get 0 (a.clearRecipe v).vst n = Tbl.get 0 a.vst n := by
  simp only [Arch.clearRecipe]
  split
  · exact Tbl.get_put_ne _ _ _ h
  · split
    · exact Tbl.get_put_ne _ _ _ h
    · rfl

/-- A register that holds no recipe and is not DROPPED. -/
def Arch.NoRecipe (a : Arch) (n : Nat) : Prop := a.recipe n = none ∧ Tbl.get 0 a.vst n ≠ 2

theorem Arch.noRecipe_clearRecipe_self (a : Arch) (v : Nat) : (a.clearRecipe v).NoRecipe v := by
  refine ⟨a.recipe_clearRecipe_self v, ?_⟩
  rw [Arch.vst_clearRecipe_self]
  split
  · decide
  · split
    · decide
    · assumption

theorem Arch.NoRecipe.clearRecipe {a : Arch} {n : Nat} (h : a.NoRecipe n) (v : Nat) : (a.clearRecipe v).NoRecipe n := by
  obtain ⟨hnone, hst⟩ := h
  by_cases hn : n = v
  · exact hn ▸ a.noRecipe_clearRecipe_self n
  · exact ⟨(a.recipe_clearRecipe_ne hn).trans hnone, (a.vst_clearRecipe_ne hn).trans_ne hst⟩

/-- Clearing a list of registers clears each of them, and no later one undoes it. -/
theorem Arch.noRecipe_foldl_clearRecipe (l : List Nat) (a : Arch) {n : Nat} (h : n ∈ l ∨ a.NoRecipe n) :
    (l.foldl (fun a v => a.clearRecipe v) a).NoRecipe n := by
  induction l generalizing a with
  | nil => exact h.resolve_left List.not_mem_nil
  | cons v l ih =>
    refine ih (a.clearRecipe v) ?_
    obtain hmem | hclear := h
    · obtain rfl | hmem := List.mem_cons.1 hmem
      · exact .inr (a.noRecipe_clearRecipe_self n)
      · exact .inl hmem
    · exact .inr (hclear.clearRecipe v)

/-! ### The arms of the recipe operations -/

/-- What RCPDEF of the operation of slot k does where its bundle issues. -/
def State.enterRecipe (s : State) (d k : Nat) : State :=
  match s.ar.images.find? (fun t => t.1 == k) with
  | none => s
  | some t => s.modAr (fun a => a.putRecipe (s.recipeOf d k t.2))

theorem State.enterRecipe_image {s : State} {k : Nat} {im : Image} (d : Nat) (h : s.ar.images.find? (fun t => t.1 == k) = some (k, im)) :
    s.enterRecipe d k = s.modAr (fun a => a.putRecipe (s.recipeOf d k im)) := by
  rw [State.enterRecipe, h]

theorem exec_rcpdef (d sl : Nat) (s : State) : exec (.rcpdef d sl) s = State.runOp (.rcpdef d sl) (fun s => s.enterRecipe d (2 + sl)) s := rfl

/-- The entry that RCPDEF with SL = 2 makes for its embedded operation. -/
def State.embeddedRecipe (s : State) (d a : Nat) (w : RcpW) : Recipe :=
  ⟨d, .rcpdefEmbedded d a w, (rcpWords d a w).1, (rcpWords d a w).2, [0], 0, 0, false, 0, s.cyc, 4, s.cyc + vecLat (w.op d a)⟩

theorem exec_rcpdefEmbedded (d a : Nat) (w : RcpW) (s : State) : exec (.rcpdefEmbedded d a w) s = State.runOp (.rcpdefEmbedded d a w)
    (fun s => (s.outV d (vecLat (w.op d a)) (vecVal s.vecIn (w.op d a))).modAr (fun r => r.putRecipe (s.embeddedRecipe d a w))) s := rfl

theorem exec_drop (d : Nat) (s : State) : exec (.drop d) s = State.runOp (.drop d)
    (fun s => s.modAr (fun a => { a with drops := Tbl.put a.drops d (s.ar.scyc + 1) })) s := rfl

theorem exec_rcpclr (d : Nat) (s : State) : exec (.rcpclr d) s = State.runOp (.rcpclr d) (fun s => s.modAr (fun a => a.clearRecipe d)) s := rfl

theorem exec_rcpclrAll (s : State) : exec .rcpclrAll s = State.runOp .rcpclrAll
    (fun s => s.modAr (fun a => (List.range 56).foldl (fun a v => a.clearRecipe v) a)) s := rfl

theorem exec_rcpstat (d a : Nat) (s : State) : exec (.rcpstat d a) s = State.runOp (.rcpstat d a)
    (fun s => s.outX d 2 (BitVec.ofNat 64 (s.ar.rcpStat a))) s := rfl

/-! ### Room in the table -/

/-- A register that holds an entry, or a table that is not full, passes RCPDEF's own check. -/
theorem State.chkRecipe_ok {s : State} {d : Nat} (h : (s.ar.recipe d).isSome = true ∨ s.ar.recipes.length < 32) : s.chkRecipe d = .ok := by
  refine if_neg fun hfull => ?_
  simp only [Bool.and_eq_true, decide_eq_true_eq] at hfull
  obtain ⟨hnone, hlen⟩ := hfull
  obtain hsome | hroom := h
  · exact absurd hsome (by simpa using hnone)
  · omega

/-- A full table with no entry of the register takes RESIDENCY with reason 3. -/
theorem State.chkRecipe_full {s : State} {d : Nat} (hnone : s.ar.recipe d = none) (hfull : 32 ≤ s.ar.recipes.length) :
    s.chkRecipe d = .trap { cause := 11, d0 := 3, d1 := d } :=
  if_pos (by simp [hnone, hfull])

theorem State.stopOp_rcpdef (s : State) (d sl : Nat) (t : Trap) : s.stopOp (.rcpdef d sl) t = s.takeTrap t := rfl

/-- Settles O42: each operation by its arm and its checks; the entries by `Arch.recipe_putRecipe_self`, clearing by the lemmas on
`Arch.clearRecipe`, and by induction on the registers where all are cleared. -/
theorem recipeOperations : Obligations.RecipeOperations := by
  refine ⟨fun s d sl im hroom him => ?rcpdef, fun s d sl hnone hfull hc => ?full, fun s d a w hready hroom => ?embedded, fun s d => ?drop,
    fun s d => ?rcpclr, fun s => ?rcpclrAll, fun s d a => ?rcpstat⟩
  case rcpdef =>
    rw [exec_rcpdef, ← State.enterRecipe_image d him]
    exact State.runOp_x _ s.xReady_nil (State.chkRecipe_ok hroom)
  case full =>
    have hready : s.ReadyFor (.rcpdef d sl) := .of_x s.xReady_nil rfl rfl rfl rfl
    rw [exec_rcpdef, State.runOp_trap _ hc hready (State.chkRecipe_full hnone hfull) rfl, State.stopOp_rcpdef]
  case embedded =>
    rw [exec_rcpdefEmbedded]
    refine ⟨_, State.runOp_of_ready _ hready (State.chkRecipe_ok hroom), ?_, s.embeddedRecipe d a w, ?_, rfl, rfl⟩
    · rw [State.ar_modAr, Arch.inflight_putRecipe]
    · rw [State.ar_modAr]
      exact Arch.recipe_putRecipe_self _ (s.embeddedRecipe d a w)
  case drop =>
    rw [exec_drop]
    exact State.runOp_x _ s.xReady_nil rfl
  case rcpclr =>
    rw [exec_rcpclr]
    refine ⟨_, State.runOp_x _ s.xReady_nil rfl, ?_⟩
    rw [State.ar_modAr]
    refine ⟨s.ar.recipe_clearRecipe_self d, fun n hn => s.ar.recipe_clearRecipe_ne hn, fun hdropped => ?_, fun n hn => s.ar.vst_clearRecipe_ne hn⟩
    rw [Arch.vst_clearRecipe_self, if_pos hdropped]
  case rcpclrAll =>
    rw [exec_rcpclrAll]
    refine ⟨_, State.runOp_x _ s.xReady_nil rfl, fun n hn => ?_⟩
    rw [State.ar_modAr]
    exact Arch.noRecipe_foldl_clearRecipe (List.range 56) s.ar (.inl (List.mem_range.2 hn))
  case rcpstat =>
    rw [exec_rcpstat]
    exact State.runOp_x _ s.xReady_nil rfl

end Sys2Proof.Machine
end

/-! ## Scalar arithmetic: sums, products, logic, shifts, quotients and counted bits -/

section
namespace Sys2Proof

/-! ### Register and immediate words of the S class -/

theorem fld_mkR {op d a b f : Nat} (hop : op < 256) (hd : d < 64) (ha : a < 64) (hb : b < 64) (hf : f < 16) :
    fld (mkR 0 op d a b f) 31 31 = 0 ∧ fld (mkR 0 op d a b f) 30 30 = 0 ∧ fld (mkR 0 op d a b f) 29 22 = op ∧
    fld (mkR 0 op d a b f) 21 16 = d ∧ fld (mkR 0 op d a b f) 15 10 = a ∧ fld (mkR 0 op d a b f) 9 4 = b ∧
    fld (mkR 0 op d a b f) 3 0 = f := by
  simp only [fld, mkR]
  omega

theorem fld_mkI {e op d a i : Nat} (he : e < 2) (hop : op < 256) (hd : d < 64) (ha : a < 64) (hi : i < 1024) :
    fld (mkI e op d a i) 31 31 = 0 ∧ fld (mkI e op d a i) 30 30 = e ∧ fld (mkI e op d a i) 29 22 = op ∧
    fld (mkI e op d a i) 21 16 = d ∧ fld (mkI e op d a i) 15 10 = a ∧ fld (mkI e op d a i) 9 0 = i := by
  simp only [fld, mkI]
  omega

/-- A word without a second word, whose opcode forbids one and may stand in S1, is left to the S-class decoder (R44). -/
theorem decodeSlot_of_forbid {w op : Nat} (h31 : fld w 31 31 = 0) (h30 : fld w 30 30 = 0) (hop : fld w 29 22 = op)
    (hform : formS op = some .forbid) (hs0 : s0Only op = false) (s1 : Bool) (bw w2 : Nat) :
    decodeSlot .s s1 bw w w2 = decodeS bw w 0 false := by
  simp [decodeSlot, formOf, h31, h30, hop, hform, hs0]

/-- A second word that the opcode forbids is reason code 5, whatever it holds (R39, R44). -/
theorem decodeSlot_forbidden {w op : Nat} (h31 : fld w 31 31 = 0) (h30 : fld w 30 30 = 1) (hop : fld w 29 22 = op)
    (hform : formS op = some .forbid) (s1 : Bool) (bw w2 : Nat) : decodeSlot .s s1 bw w w2 = .error 5 := by
  simp [decodeSlot, formOf, h31, h30, hop, hform]

/-- A register word decodes to what the S class answers for its opcode and its fields; `hrow` reads that answer off the
row of the opcode. -/
theorem decodeSlot_mkR {op d a b f : Nat} {r : Except Nat Instr} (hd : d < 64) (ha : a < 64) (hb : b < 64) (hf : f < 16)
    {s1 : Bool} {bw w2 : Nat} (hop : op < 256 := by decide) (hform : formS op = some .forbid := by rfl) (hs0 : s0Only op = false := by rfl)
    (hrow : ∀ w, fld w 29 22 = op → fld w 21 16 = d → fld w 15 10 = a → fld w 9 4 = b → fld w 3 0 = f → decodeS bw w 0 false = r := by
      intro w hop hd ha hb hf
      simp only [decodeS, decodeS0, decodeS1, r3, ok7, hop, hd, ha, hb, hf, Bool.and_eq_true, beq_iff_eq, and_comm]) :
    decodeSlot .s s1 bw (mkR 0 op d a b f) w2 = r := by
  obtain ⟨h31, h30, hopc, hfd, hfa, hfb, hff⟩ := fld_mkR hop hd ha hb hf
  rw [decodeSlot_of_forbid h31 h30 hopc hform hs0]
  exact hrow _ hopc hfd hfa hfb hff

/-- An immediate word decodes to what the S class answers for its opcode and its fields; `hrow` reads that answer off the
row of the opcode. -/
theorem decodeSlot_mkI {op d a i : Nat} {r : Except Nat Instr} (hd : d < 64) (ha : a < 64) (hi : i < 1024)
    {s1 : Bool} {bw w2 : Nat} (hop : op < 256 := by decide) (hform : formS op = some .forbid := by rfl) (hs0 : s0Only op = false := by rfl)
    (hrow : ∀ w, fld w 29 22 = op → fld w 21 16 = d → fld w 15 10 = a → fld w 9 0 = i → decodeS bw w 0 false = r := by
      intro w hop hd ha hi
      simp only [decodeS, decodeS1, ok7, hop, hd, ha, hi, decide_eq_true_eq]) :
    decodeSlot .s s1 bw (mkI 0 op d a i) w2 = r := by
  obtain ⟨h31, h30, hopc, hfd, hfa, hfi⟩ := fld_mkI (e := 0) (by decide) hop hd ha hi
  rw [decodeSlot_of_forbid h31 h30 hopc hform hs0]
  exact hrow _ hopc hfd hfa hfi

end Sys2Proof

namespace Sys2Proof.Machine

/-! ### Where a scalar operation completes -/

/-- An operation whose meaning is one scalar result leaves it where its sources can be read. -/
theorem exec_scalar {s : State} {i : Instr} {d lat : Nat} (v : State → Word) {x : Word} (hx : s.xReady i.xsrcs) (hv : v s = x)
    (he : exec i s = s.scalarOp i d lat v := by rfl) (ho : s.chkOp i = .ok := by rfl) (hj : s.chkJump i = .ok := by rfl)
    (hvs : i.vsrcs = [] := by rfl) (hvd : i.vdests = [] := by rfl) (hp : i.psrcs = [] := by rfl)
    (ha : i.accesses = false := by rfl) (hm : i.needsMatrix = false := by rfl) : exec i s = .next (s.outX d lat x) := by
  rw [he, ← hv]
  exact State.runOp_x _ hx ho hj hvs hvd hp ha hm

/-! ### Sums and products (R251, R253) -/

theorem word_sub_eq (x y : Word) : x - y = BitVec.ofInt 64 ((x.toNat : Int) - y.toNat) := by
  rw [sub_eq_add_neg, Int.sub_eq_add_neg, BitVec.ofInt_add, BitVec.ofInt_neg, BitVec.ofInt_natCast, BitVec.ofInt_natCast,
    BitVec.ofNat_toNat, BitVec.ofNat_toNat, BitVec.setWidth_eq, BitVec.setWidth_eq]

theorem word_mul_eq (x y : Word) : x * y = BitVec.ofNat 64 (x.toNat * y.toNat) := by
  rw [BitVec.ofNat_mul, BitVec.ofNat_toNat, BitVec.ofNat_toNat, BitVec.setWidth_eq, BitVec.setWidth_eq]

theorem aluMulh_eq (x y : Word) : aluMulh x y = BitVec.ofInt 64 ((x.toInt * y.toInt).fdiv (2 ^ 64)) := by
  rw [aluMulh, Int.fdiv_eq_ediv_of_nonneg _ (by decide)]

/-- Settles O12: each operation is one scalar result (`exec_scalar`), whose value is rewritten to numbers. -/
theorem integerArithmetic : Obligations.IntegerArithmetic := by
  unfold Obligations.IntegerArithmetic
  exact fun s d a b hx => ⟨
    exec_scalar (fun s => s.rx a + s.rx b) hx (BitVec.add_def ..),
    exec_scalar (fun s => s.rx a - s.rx b) hx (word_sub_eq ..),
    exec_scalar (fun s => s.rx a * s.rx b) hx (word_mul_eq ..),
    exec_scalar (fun s => aluMulh (s.rx a) (s.rx b)) hx (aluMulh_eq ..),
    exec_scalar (fun s => s.rx a &&& s.rx b) hx rfl,
    exec_scalar (fun s => s.rx a ||| s.rx b) hx rfl,
    exec_scalar (fun s => s.rx a ^^^ s.rx b) hx rfl,
    exec_scalar (fun s => aluMin (s.rx a) (s.rx b)) hx rfl,
    exec_scalar (fun s => aluMax (s.rx a) (s.rx b)) hx rfl,
    exec_scalar (fun s => aluMinn (s.rx a) (s.rx b)) hx rfl,
    exec_scalar (fun s => aluMaxn (s.rx a) (s.rx b)) hx rfl⟩

/-! ### Shifts (R252) -/

theorem word_shiftLeft_eq (x : Word) (n : Nat) : x <<< n = BitVec.ofNat 64 (x.toNat * 2 ^ n) := by
  apply BitVec.eq_of_toNat_eq
  rw [BitVec.toNat_shiftLeft, Nat.shiftLeft_eq, BitVec.toNat_ofNat]

theorem word_ushiftRight_eq (x : Word) (n : Nat) : x >>> n = BitVec.ofNat 64 (x.toNat / 2 ^ n) := by
  have hlt : x.toNat / 2 ^ n < 2 ^ 64 := (Nat.div_le_self ..).trans_lt x.isLt
  apply BitVec.eq_of_toNat_eq
  rw [BitVec.toNat_ushiftRight, Nat.shiftRight_eq_div_pow, BitVec.toNat_ofNat, Nat.mod_eq_of_lt hlt]

theorem word_sshiftRight_eq (x : Word) (n : Nat) : x.sshiftRight n = BitVec.ofInt 64 (x.toInt.fdiv (2 ^ n)) := by
  rw [BitVec.sshiftRight_eq, Int.shiftRight_eq_div_pow, Int.fdiv_eq_ediv_of_nonneg _ (by positivity), Nat.cast_pow, Nat.cast_ofNat]

theorem aluShl_eq (x y : Word) : aluShl x y = BitVec.ofNat 64 (if y.toNat < 64 then x.toNat * 2 ^ y.toNat else 0) := by
  unfold aluShl
  split
  · exact word_shiftLeft_eq ..
  · rfl

theorem aluShrl_eq (x y : Word) : aluShrl x y = BitVec.ofNat 64 (if y.toNat < 64 then x.toNat / 2 ^ y.toNat else 0) := by
  unfold aluShrl
  split
  · exact word_ushiftRight_eq ..
  · rfl

/-- The largest arithmetic shift copies the sign bit to every bit. -/
theorem word_sshiftRight_63 (x : Word) : x.sshiftRight 63 = if x.toInt < 0 then BitVec.allOnes 64 else 0 := by
  have hlo : -2 ^ 63 ≤ x.toInt := x.le_toInt
  have hhi : x.toInt < 2 ^ 63 := x.toInt_lt
  rw [BitVec.sshiftRight_eq, Int.shiftRight_eq_div_pow]
  split
  · have hq : x.toInt / (2 ^ 63 : Nat) = -1 := by omega
    rw [hq]
    rfl
  · have hq : x.toInt / (2 ^ 63 : Nat) = 0 := by omega
    rw [hq]
    rfl

/-- Settles O13: each shift is one scalar result whose value is a product or a floored quotient by a power of two; each word decodes by the
row of its opcode. -/
theorem shifts : Obligations.Shifts := by
  unfold Obligations.Shifts
  refine ⟨fun s d a b hx => ?register, fun s d a n hx hn => ?immediate, fun s1 bw d a b f w2 hd ha hb hf => ?registerWord,
    fun s1 bw d a i w2 hd ha hi => ?immediateWord, by decide, fun s hx => ?manual⟩
  case register =>
    exact ⟨exec_scalar (fun s => aluShl (s.rx a) (s.rx b)) hx (aluShl_eq ..),
      exec_scalar (fun s => aluShrl (s.rx a) (s.rx b)) hx (aluShrl_eq ..),
      exec_scalar (fun s => aluShra (s.rx a) (s.rx b)) hx (word_sshiftRight_eq ..)⟩
  case immediate =>
    exact ⟨exec_scalar (fun s => s.rx a <<< n) hx (word_shiftLeft_eq ..),
      exec_scalar (fun s => s.rx a >>> n) hx (word_ushiftRight_eq ..),
      exec_scalar (fun s => (s.rx a).sshiftRight n) hx (word_sshiftRight_eq ..)⟩
  case registerWord =>
    exact ⟨decodeSlot_mkR hd ha hb hf, decodeSlot_mkR hd ha hb hf, decodeSlot_mkR hd ha hb hf⟩
  case immediateWord =>
    exact ⟨decodeSlot_mkI hd ha hi, decodeSlot_mkI hd ha hi, decodeSlot_mkI hd ha hi⟩
  case manual => exact exec_scalar (fun s => (s.rx 3).sshiftRight 63) hx (word_sshiftRight_63 _)

/-! ### Quotients and remainders (R253) -/

/-- The truncated quotient is the library's signed one, which wraps where the corner overflows. -/
theorem aluDiv_of_ne {x y : Word} (hy : y ≠ 0) : aluDiv x y = x.sdiv y := by
  rw [aluDiv, if_neg hy]
  exact BitVec.eq_of_toInt_eq ((BitVec.toInt_ofInt _).trans (BitVec.toInt_sdiv x y).symm)

theorem aluRem_of_ne {x y : Word} (hy : y ≠ 0) : aluRem x y = x.srem y := by
  rw [aluRem, if_neg hy, ← BitVec.toInt_srem, BitVec.ofInt_toInt]

theorem toNat_aluDivn {x y : Word} (hy : y ≠ 0) : (aluDivn x y).toNat = x.toNat / y.toNat := by
  have hlt : x.toNat / y.toNat < 2 ^ 64 := (Nat.div_le_self ..).trans_lt x.isLt
  rw [aluDivn, if_neg hy, BitVec.toNat_ofNat, Nat.mod_eq_of_lt hlt]

theorem toNat_aluRemn {x y : Word} (hy : y ≠ 0) : (aluRemn x y).toNat = x.toNat % y.toNat := by
  have hlt : x.toNat % y.toNat < 2 ^ 64 := (Nat.mod_le ..).trans_lt x.isLt
  rw [aluRemn, if_neg hy, BitVec.toNat_ofNat, Nat.mod_eq_of_lt hlt]

/-- Signed overflow: -2^63 by -1. -/
theorem aluDiv_aluRem_overflow {x y : Word} (hx : x.toInt = -2 ^ 63) (hy : y.toInt = -1) :
    aluDiv x y = 0x8000_0000_0000_0000 ∧ aluRem x y = 0 := by
  have hmin : x = BitVec.intMin 64 := BitVec.eq_of_toInt_eq hx
  have hneg : y = -1 := BitVec.eq_of_toInt_eq hy
  subst hmin hneg
  decide

theorem toInt_aluDiv {x y : Word} (hy : y ≠ 0) (h : ¬(x.toInt = -2 ^ 63 ∧ y.toInt = -1)) : (aluDiv x y).toInt = x.toInt.tdiv y.toInt := by
  rw [aluDiv_of_ne hy]
  refine BitVec.toInt_sdiv_of_ne_or_ne x y (not_and_or.1 (fun hboth => h ?_))
  obtain ⟨rfl, rfl⟩ := hboth
  decide

theorem toInt_aluRem {x y : Word} (hy : y ≠ 0) : (aluRem x y).toInt = x.toInt.tmod y.toInt := by
  rw [aluRem_of_ne hy, BitVec.toInt_srem]

/-- The quotient and the remainder make up the dividend modulo 2^64, in the overflowing corner too. -/
theorem eq_aluDiv_mul_add_aluRem {x y : Word} (hy : y ≠ 0) : x = aluDiv x y * y + aluRem x y := by
  calc x = BitVec.ofInt 64 (x.toInt.tdiv y.toInt * y.toInt + x.toInt.tmod y.toInt) := by
        rw [Int.tdiv_mul_add_tmod, BitVec.ofInt_toInt]
    _ = aluDiv x y * y + aluRem x y := by
        rw [BitVec.ofInt_add, BitVec.ofInt_mul, BitVec.ofInt_toInt, aluDiv, aluRem, if_neg hy, if_neg hy]

theorem eq_aluDivn_mul_add_aluRemn {x y : Word} (hy : y ≠ 0) : x = aluDivn x y * y + aluRemn x y := by
  calc x = BitVec.ofNat 64 (x.toNat / y.toNat * y.toNat + x.toNat % y.toNat) := by
        rw [Nat.div_add_mod', BitVec.ofNat_toNat, BitVec.setWidth_eq]
    _ = aluDivn x y * y + aluRemn x y := by
        rw [BitVec.ofNat_add, BitVec.ofNat_mul, BitVec.ofNat_toNat, BitVec.setWidth_eq, aluDivn, aluRemn, if_neg hy, if_neg hy]

/-- Settles O14: the four results, each with its corners and its law by the lemma of its operation; each word decodes by the row of its
opcode. -/
theorem division : Obligations.Division := by
  unfold Obligations.Division
  refine ⟨fun s d a b hx => ⟨aluDiv (s.rx a) (s.rx b), aluDivn (s.rx a) (s.rx b), aluRem (s.rx a) (s.rx b), aluRemn (s.rx a) (s.rx b),
    exec_scalar (fun s => aluDiv (s.rx a) (s.rx b)) hx rfl, exec_scalar (fun s => aluDivn (s.rx a) (s.rx b)) hx rfl,
    exec_scalar (fun s => aluRem (s.rx a) (s.rx b)) hx rfl, exec_scalar (fun s => aluRemn (s.rx a) (s.rx b)) hx rfl, ?laws⟩,
    fun s1 bw d a b f w2 hd ha hb hf => ?words⟩
  case laws =>
    exact ⟨fun hy => ⟨if_pos hy, if_pos hy, if_pos hy, if_pos hy⟩, aluDiv_aluRem_overflow,
      fun hy h => ⟨toInt_aluDiv hy h, toInt_aluRem hy⟩, fun hy => ⟨toNat_aluDivn hy, toNat_aluRemn hy⟩,
      fun hy => ⟨eq_aluDiv_mul_add_aluRem hy, eq_aluDivn_mul_add_aluRemn hy⟩⟩
  case words =>
    exact ⟨decodeSlot_mkR hd ha hb hf, decodeSlot_mkR hd ha hb hf, decodeSlot_mkR hd ha hb hf,
      decodeSlot_mkR hd ha hb hf⟩

/-! ### Counted bits (R255) -/

theorem clz_le (n x : Nat) : clz n x ≤ n := by
  unfold clz
  split <;> omega

/-- The highest one bit stands directly below the leading zeros. -/
theorem clz_bounds_of_ne_zero {n x : Nat} (hx : x < 2 ^ n) (h0 : x ≠ 0) :
    clz n x < n ∧ 2 ^ (n - 1 - clz n x) ≤ x ∧ x < 2 ^ (n - clz n x) := by
  have hlog : Nat.log2 x < n := (Nat.log2_lt h0).2 hx
  have hclz : clz n x = n - 1 - Nat.log2 x := by rw [clz, Nat.mod_eq_of_lt hx, if_neg h0]
  have hlow : n - 1 - clz n x = Nat.log2 x := by omega
  have hhigh : n - clz n x = Nat.log2 x + 1 := by omega
  rw [hlow, hhigh]
  exact ⟨by omega, Nat.log2_self_le h0, Nat.lt_log2_self⟩

theorem popcount_eq_length (n x : Nat) : popcount n x = ((List.range n).filter (fun j => x.testBit j)).length := by
  induction n generalizing x with
  | zero => rfl
  | succ n ih =>
    have htail : (List.filter (fun j => x.testBit j) ((List.range n).map Nat.succ)).length = popcount n (x / 2) := by
      rw [ih, List.filter_map, List.length_map]
      simp only [Function.comp_def, Nat.succ_eq_add_one, Nat.testBit_succ]
    have hbit : x % 2 = if x.testBit 0 then 1 else 0 := by
      simp only [Nat.testBit_zero, decide_eq_true_eq]
      split <;> omega
    rw [popcount, List.range_succ_eq_map, List.filter_cons, hbit, ← htail]
    split
    · rw [List.length_cons, Nat.add_comm]
    · rw [Nat.zero_add]

theorem popcount_le (n x : Nat) : popcount n x ≤ n := by
  rw [popcount_eq_length]
  exact (List.length_filter_le ..).trans_eq List.length_range

/-- Settles O16: leading zeros by the logarithm, one bits by induction over the bits; each word decodes by the row of its opcode. -/
theorem countBits : Obligations.CountBits := by
  unfold Obligations.CountBits
  refine ⟨fun s d a hx => ⟨clz 64 (s.rx a).toNat, popcount 64 (s.rx a).toNat, clz_le .., popcount_le ..,
    exec_scalar (fun s => aluClz (s.rx a)) hx rfl, fun h0 => ?zero, fun h0 => ?nonzero,
    exec_scalar (fun s => aluPopc (s.rx a)) hx rfl, popcount_eq_length ..⟩, fun s1 bw d a b f w2 hd ha hb hf => ?words⟩
  case zero =>
    rw [h0]
    rfl
  case nonzero => exact clz_bounds_of_ne_zero (s.rx a).isLt (fun h => h0 (BitVec.eq_of_toNat_eq h))
  case words => exact ⟨decodeSlot_mkR hd ha hb hf, decodeSlot_mkR hd ha hb hf⟩

/-! ### Immediates (R257) -/

theorem immW_eq {i : Nat} (h : i < 1024) : immW i = BitVec.ofInt 64 (if i < 512 then (i : Int) else (i : Int) - 1024) := by
  have hmod : i % 2 ^ 10 = i := Nat.mod_eq_of_lt h
  rw [immW, sextI, hmod]
  rfl

/-- Settles O17: each operation is one scalar result; the immediate is what `immW_eq` says, and 1023 stands for all ones. -/
theorem immediateArithmetic : Obligations.ImmediateArithmetic := by
  unfold Obligations.ImmediateArithmetic
  refine ⟨fun s d a i hx hi => ?results, fun s1 bw d a i w2 hd ha hi => ?words⟩
  case results =>
    have hcopy (h : i = 1023) : s.rx a &&& immW i = s.rx a := h ▸ BitVec.and_allOnes
    have hcomplement (h : i = 1023) : s.rx a ^^^ immW i = ~~~s.rx a := h ▸ BitVec.xor_allOnes
    rw [← immW_eq hi]
    exact ⟨exec_scalar (fun s => s.rx a + immW i) hx rfl, exec_scalar (fun s => s.rx a &&& immW i) hx rfl,
      exec_scalar (fun s => s.rx a ||| immW i) hx rfl, exec_scalar (fun s => s.rx a ^^^ immW i) hx rfl,
      fun h => ⟨exec_scalar (fun s => s.rx a &&& immW i) hx (hcopy h), exec_scalar (fun s => s.rx a ^^^ immW i) hx (hcomplement h)⟩⟩
  case words =>
    obtain ⟨h31, h30, hopc, -⟩ := fld_mkI (e := 1) (op := 0x18) (by decide) (by decide) hd ha hi
    exact ⟨decodeSlot_mkI hd ha hi, decodeSlot_mkI hd ha hi, decodeSlot_mkI hd ha hi,
      decodeSlot_mkI hd ha hi, decodeSlot_forbidden h31 h30 hopc rfl s1 bw 0⟩

end Sys2Proof.Machine
end

/-! ## Operations on vector registers -/

section
namespace Sys2Proof.Machine

/-! ### Elements of joined and merged vectors (R229, R264) -/

theorem el_lt (w x i : Nat) : el w x i < 2 ^ w := Nat.mod_lt _ (Nat.two_pow_pos w)

theorem el_joinEl (w : Nat) (l : List Nat) (k : Nat) : el w (joinEl w l) k = l.getD k 0 % 2 ^ w := by
  induction l generalizing k with
  | nil => simp [joinEl, el]
  | cons x l ih =>
    have hx : x % 2 ^ w < 2 ^ w := Nat.mod_lt _ (Nat.two_pow_pos w)
    cases k with
    | zero => rw [joinEl, el, Nat.mul_zero, Nat.pow_zero, Nat.div_one, Nat.add_mul_mod_self_left, Nat.mod_mod, List.getD_cons_zero]
    | succ k =>
      rw [el_succ, joinEl, Nat.add_mul_div_left _ _ (Nat.two_pow_pos w), Nat.div_eq_of_lt hx, Nat.zero_add, ih, List.getD_cons_succ]

section
variable {w p old k : Nat} {f : Nat → Nat} (hk : k < lanes w)
include hk

theorem el_buildV : el w (buildV w f) k = f k % 2 ^ w := by
  rw [buildV, el_joinEl, List.getD_eq_getElem?_getD, List.getElem?_map, List.getElem?_range hk]
  rfl

theorem el_buildV_of_lt (hf : f k < 2 ^ w) : el w (buildV w f) k = f k := by
  rw [el_buildV hk, Nat.mod_eq_of_lt hf]

theorem el_mergeV_of_inactive (ha : act p w k = false) : el w (mergeV w p old f) k = el w old k := by
  rw [mergeV, el_buildV hk, ha]
  exact Nat.mod_mod _ _

theorem el_mergeV_of_active (ha : act p w k = true) : el w (mergeV w p old f) k = f k % 2 ^ w := by
  rw [mergeV, el_buildV hk, if_pos ha]

theorem el_mergeV_of_active_of_lt (ha : act p w k = true) (hf : f k < 2 ^ w) : el w (mergeV w p old f) k = f k := by
  rw [el_mergeV_of_active hk ha, Nat.mod_eq_of_lt hf]

end

theorem vecFun_eq_mergeV (fn t p old a : Nat) :
    vecFun fn t p old a = mergeV (typeWidth t) p old (fun i => funEl fn t (el (typeWidth t) a i)) := rfl

/-- Every operation of the merge class is a merge of its old destination with its own elements. -/
theorem vecVal_of_mergeForm {i : Instr} {w d p : Nat} (h : i.mergeForm = some (w, d, p)) (o : VecIn) :
    ∃ f, vecVal o i = mergeV w (o.p p) (o.old d) f := by
  unfold Instr.mergeForm at h
  split at h
  all_goals cases h
  all_goals simp only [vecVal, vecArith, vecMinMax, vecAbsNeg, vecFun_eq_mergeV, vecShift, vecLogic, vecMov, vecBcast, vecHash, vecCrc]
  all_goals exact ⟨_, rfl⟩

/-! ### Numbers modulo a power of two (R228) -/

theorem modI_natCast (n x : Nat) : modI n (x : Int) = x % 2 ^ n := by
  rw [modI, ← Nat.cast_ofNat, ← Nat.cast_pow, ← Int.natCast_emod, Int.toNat_natCast]

theorem modI_lt (n : Nat) (x : Int) : modI n x < 2 ^ n := by
  have hpos : (0 : Int) < 2 ^ n := by positivity
  rw [modI, Int.toNat_lt (Int.emod_nonneg _ hpos.ne'), Nat.cast_pow, Nat.cast_ofNat]
  exact Int.emod_lt_of_pos _ hpos

/-- Type 10 is N32: an element is its own value, and a result that is not saturated wraps. -/
theorem wrapOrSat_n32 (x : Nat) : wrapOrSat x 10 false = x % 2 ^ 32 := modI_natCast 32 x

theorem arithEl_add_n32 (a b c : Nat) : arithEl 0 10 0 false a b c = (a + b) % 2 ^ 32 := by
  rw [Nat.add_mod, ← wrapOrSat_n32]
  rfl

theorem arithEl_mul_n32 (a b c : Nat) : arithEl 2 10 0 false a b c = a * b % 2 ^ 32 := by
  rw [Nat.mul_mod, ← wrapOrSat_n32]
  rfl

theorem el_vecArith_n32 {p old a b k : Nat} (o : Nat) (hk : k < lanes 32) (ha : act p 32 k = true) :
    el 32 (vecArith o 10 (vwDef none) p old a b 0) k = arithEl o 10 0 false (el 32 a k) (el 32 b k) (el 32 0 k) % 2 ^ 32 :=
  el_mergeV_of_active hk ha

/-! ### Logic and shifts of one element (R270) -/

theorem logicEl_lt {a b : Nat} (o : Nat) (ha : a < 2 ^ 8) (hb : b < 2 ^ 8) : logicEl o a b < 2 ^ 8 := by
  unfold logicEl
  split
  · exact Nat.and_lt_two_pow _ hb
  · exact Nat.or_lt_two_pow ha hb
  · exact Nat.xor_lt_two_pow ha hb
  · omega

theorem shiftEl_lt {w a : Nat} (o n : Nat) (ha : a < 2 ^ w) : shiftEl o w a n < 2 ^ w := by
  unfold shiftEl
  split
  · split
    · exact Nat.mod_lt _ (Nat.two_pow_pos w)
    · exact Nat.two_pow_pos w
  · exact modI_lt ..
  · split
    · exact (Nat.div_le_self ..).trans_lt ha
    · exact Nat.two_pow_pos w

theorem shiftEl_arithmetic (w a n : Nat) : shiftEl 1 w a n = modI w ((sextI w a).fdiv (2 ^ min n (w - 1))) := by
  rw [shiftEl, Int.fdiv_eq_ediv_of_nonneg _ (by positivity)]

theorem el_vecShift {w p old a b k : Nat} (o : Nat) (hk : k < lanes w) (ha : act p w k = true) :
    el w (vecShift o w p old a b) k = shiftEl o w (el w a k) (el w b k) :=
  el_mergeV_of_active_of_lt hk ha (shiftEl_lt _ _ (el_lt ..))

theorem el_vecLogic {p old a b k : Nat} (o : Nat) (hk : k < lanes 8) (ha : act p 8 k = true) :
    el 8 (vecLogic o p old a b) k = logicEl o (el 8 a k) (el 8 b k) :=
  el_mergeV_of_active_of_lt hk ha (logicEl_lt _ (el_lt ..) (el_lt ..))

/-! ### Moves across lanes (R273) -/

theorem zeroInact_all_active (w v : Nat) : zeroInact w (2 ^ 256 - 1) v = v := if_pos rfl

theorem el_vecRot {w k : Nat} (x b : Nat) (hk : k < lanes w) :
    el w (vecRot w (2 ^ 256 - 1) x b) k = el w b ((k + x) % lanes w) := by
  rw [vecRot, zeroInact_all_active, el_buildV hk, Nat.add_mod_mod]
  exact Nat.mod_mod _ _

theorem el_vecPerm {w k : Nat} (a b : Nat) (hk : k < lanes w) :
    el w (vecPerm w (2 ^ 256 - 1) a b) k = if el w b k < lanes w then el w a (el w b k) else 0 := by
  rw [vecPerm, zeroInact_all_active]
  refine el_buildV_of_lt hk ?_
  dsimp only
  split
  · exact el_lt ..
  · exact Nat.two_pow_pos w

/-! ### The elements of vector results -/

/-- Settles O40: a result of the merge class is a merge, whose inactive elements are the old ones; an active element is what its operation
makes of the elements at its place, or of those that an index names. -/
theorem vectorElements : Obligations.VectorElements := by
  unfold Obligations.VectorElements
  refine ⟨fun i o w d p k hi _ hk ha => ?inactive, fun o d a b p k w _ => ⟨fun hk ha => ?logic, fun hk ha => ?moves, fun hk => ?select,
    fun hk ha => ?sums, fun hk hp => ?across⟩⟩
  case inactive =>
    obtain ⟨f, hf⟩ := vecVal_of_mergeForm hi o
    rw [hf, el_mergeV_of_inactive hk ha]
  case logic => exact ⟨el_vecLogic 0 hk ha, el_vecLogic 1 hk ha, el_vecLogic 2 hk ha, el_vecLogic 3 hk ha⟩
  case moves =>
    exact ⟨el_mergeV_of_active_of_lt hk ha (el_lt ..), el_mergeV_of_active hk ha, el_vecShift 0 hk ha, el_vecShift 2 hk ha,
      (el_vecShift 1 hk ha).trans (shiftEl_arithmetic ..)⟩
  case select =>
    refine el_buildV_of_lt hk ?_
    split
    · exact el_lt ..
    · exact el_lt ..
  case sums =>
    exact ⟨(el_vecArith_n32 0 hk ha).trans (by rw [arithEl_add_n32, Nat.mod_mod]),
      (el_vecArith_n32 2 hk ha).trans (by rw [arithEl_mul_n32, Nat.mod_mod])⟩
  case across =>
    rw [vecVal, vecVal, hp]
    exact ⟨el_vecRot _ _ hk, el_vecPerm _ _ hk⟩

/-! ### Where the operations complete (R263, R281) -/

/-- What the operations that leave one vector have in common: they are vector operations of their latency, outside the matrix engine,
with no check of their own. -/
structure Instr.LeavesVector (i : Instr) (d lat : Nat) : Prop where
  exec : ∀ s, exec i s = s.vecOp i d
  lat : vecLat i = lat
  mat : i.needsMatrix = false
  check : ∀ s : State, s.chkOp i = .ok
  jump : ∀ s : State, s.chkJump i = .ok

theorem Instr.leavesVector_of_vecForm {i : Instr} {d lat : Nat} (h : i.vecForm = some (d, lat)) : Instr.LeavesVector i d lat := by
  unfold Instr.vecForm at h
  split at h
  all_goals cases h
  all_goals exact ⟨fun _ => rfl, rfl, rfl, fun _ => rfl, fun _ => rfl⟩

/-- Settles O39: each of these operations has no check but its registers' readiness. -/
theorem vectorOperationsComplete : Obligations.VectorOperationsComplete := by
  unfold Obligations.VectorOperationsComplete
  intro i s d lat hi hready
  have hv := Instr.leavesVector_of_vecForm hi
  rw [hv.exec, State.vecOp, State.runOp_of_ready _ hready (hv.check s) (hv.jump s) hv.mat, hv.lat]

end Sys2Proof.Machine
end

/-! ## The transpose tile, matrix operations and the results that they write -/

section
namespace Sys2Proof

/-- Keys from `b` on are listed with the values of `f`; the others stay. -/
theorem Tbl.get_foldl_put {α : Type} (z : α) (t : Tbl α) (b n : Nat) (f : Nat → α) (x : Nat) :
    Tbl.get z ((List.range n).foldl (fun t j => Tbl.put t (b + j) (f j)) t) x = if b ≤ x ∧ x < b + n then f (x - b) else Tbl.get z t x := by
  induction n with
  | zero => rw [if_neg (by omega)]; rfl
  | succ n ih =>
    rw [List.range_succ, List.foldl_append, List.foldl_cons, List.foldl_nil]
    by_cases hx : x = b + n
    · subst hx
      rw [Tbl.get_put_self, if_pos (by omega), Nat.add_sub_cancel_left]
    · have hrange : (b ≤ x ∧ x < b + (n + 1)) ↔ (b ≤ x ∧ x < b + n) := by omega
      rw [Tbl.get_put_ne _ _ _ hx, ih, if_congr hrange rfl rfl]

end Sys2Proof

namespace Sys2Proof.Machine

/-! ### Bytes of a number, written and read (R10) -/

theorem spread_eq (n a v : Nat) : spread a n v = (List.range n).map (fun i => (a + i, el 8 v i)) := by
  induction n generalizing a v with
  | zero => rfl
  | succ n ih =>
    have hhead : v % 256 = el 8 v 0 := by rw [el, Nat.mul_zero, Nat.pow_zero, Nat.div_one]; rfl
    rw [spread, ih, List.range_succ_eq_map, List.map_cons, List.map_map, hhead]
    refine congrArg (List.cons _) (List.map_congr_left fun i _ => ?_)
    rw [Function.comp_apply, Nat.succ_eq_add_one, el_succ, Nat.add_assoc, Nat.add_comm 1]
    rfl

theorem mem_spread {n a v : Nat} {t : Nat × Nat} (h : t ∈ spread a n v) : a ≤ t.1 ∧ t.1 < a + n := by
  rw [spread_eq] at h
  obtain ⟨i, hi, rfl⟩ := List.mem_map.1 h
  exact ⟨Nat.le_add_right .., Nat.add_lt_add_left (List.mem_range.1 hi) a⟩

theorem spread_distinct (a n v : Nat) : (spread a n v).Pairwise (fun t u => t.1 ≠ u.1) := by
  rw [spread_eq, List.pairwise_map]
  exact List.pairwise_lt_range.imp fun h => by omega

theorem Memory.readN_congr {m k : Memory} {n a : Nat} (h : ∀ x, a ≤ x → x < a + n → m.read x = k.read x) : m.readN a n = k.readN a n := by
  induction n generalizing a with
  | zero => rfl
  | succ n ih =>
    rw [Memory.readN, Memory.readN, h a (Nat.le_refl a) (by omega), ih fun x hl hr => h x (by omega) (by omega)]

/-- A memory that holds the bytes of a number reads the number. -/
theorem Memory.readN_of_spread {m : Memory} {n a v : Nat} (h : ∀ t ∈ spread a n v, m.read t.1 = BitVec.ofNat 8 t.2) :
    m.readN a n = v % 2 ^ (8 * n) := by
  induction n generalizing a v with
  | zero => rw [Nat.mul_zero, Nat.pow_zero, Nat.mod_one, Memory.readN]
  | succ n ih =>
    have hhead : m.read a = BitVec.ofNat 8 (v % 256) := h _ List.mem_cons_self
    have htail : m.readN (a + 1) n = v / 256 % 2 ^ (8 * n) := ih fun t ht => h t (List.mem_cons_of_mem _ ht)
    rw [Memory.readN, hhead, htail, BitVec.toNat_ofNat, Nat.mod_mod, Nat.mul_succ, Nat.add_comm (8 * n), Nat.pow_add]
    exact Nat.mod_mul.symm

/-! ### Rows of a tile (R291) -/

/-- Rows of a tile whose word passes its check stand apart (R295). -/
theorem tileOff_add_le {w m k : Nat} (h : tileBad w = none) (hmk : m < k) : tileOff w m + 512 ≤ tileOff w k := by
  have hstride : 8 ≤ fld w 28 16 := by
    by_contra hlt
    rw [tileBad, decide_eq_true (Nat.lt_of_not_le hlt), Bool.true_or, if_pos rfl] at h
    exact absurd h (Option.some_ne_none _)
  have hrow : (m + 1) * (64 * fld w 28 16) ≤ k * (64 * fld w 28 16) := Nat.mul_le_mul_right _ hmk
  rw [Nat.succ_mul] at hrow
  rw [tileOff, tileOff, Nat.mul_assoc, Nat.mul_assoc]
  omega

/-! ### One row of a result (R296, R301) -/

/-- The bytes that a result writes in row m, over the memory before it. -/
def MRes.rowData (r : MRes) (mem : Memory) (m : Nat) : List (Nat × Nat) :=
  ((List.range 128).map (fun n => spread (tileOff r.tile m + 4 * n) 4 (r.elem m n (mem.readN (tileOff r.tile m + 4 * n) 4)))).flatten

/-- The granules of row m that the result poisons. -/
def MRes.rowHurt (r : MRes) (old : NatSet) (m : Nat) : List Nat :=
  ((List.range 32).map (fun g => tileOff r.tile m / 16 + g)).filter (fun g =>
    NatSet.mem r.pa m || (List.range 4).any (fun i => NatSet.mem r.pb (4 * (g - tileOff r.tile m / 16) + i)) || (r.acc && NatSet.mem old g))

/-- An accumulator memory with row m of a result written. -/
def Bank.writeRow (r : MRes) (k : Bank) (m : Nat) : Bank :=
  let b := (k.store (r.rowData k.mem m)).fill ((r.rowData k.mem m).map (fun t => t.1))
  { b with pois := (r.rowHurt k.pois m).foldl (fun p g => NatSet.insert p g) b.pois }

/-- Row m of a result is written to the accumulator memory of its logical core. -/
def LCore.writeRow (r : MRes) (c : LCore) (m : Nat) : LCore := { c with acc := c.acc.writeRow r m }

theorem State.writeRes_eq (s : State) (r : MRes) :
    s.writeRes r = s.modLcore r.lcore (fun c => (List.range r.a.length).foldl (LCore.writeRow r) c) := rfl

@[simp] theorem LCore.writeRow_sp (r : MRes) (c : LCore) (m : Nat) : (c.writeRow r m).sp = c.sp := by rw [LCore.writeRow]
@[simp] theorem LCore.writeRow_code (r : MRes) (c : LCore) (m : Nat) : (c.writeRow r m).code = c.code := by rw [LCore.writeRow]
theorem LCore.writeRow_mem (r : MRes) (c : LCore) (m : Nat) : (c.writeRow r m).acc.mem = c.acc.mem.writeL (r.rowData c.acc.mem m) := by
  rw [LCore.writeRow, Bank.writeRow, Bank.fill_mem, Bank.store]

section
variable {r : MRes} {m : Nat}

theorem MRes.mem_rowData {mem : Memory} {t : Nat × Nat} (h : t ∈ r.rowData mem m) : tileOff r.tile m ≤ t.1 ∧ t.1 < tileOff r.tile m + 512 := by
  obtain ⟨l, hl, ht⟩ := List.mem_flatten.1 h
  obtain ⟨n, hn, rfl⟩ := List.mem_map.1 hl
  have hn := List.mem_range.1 hn
  obtain ⟨hlow, hhigh⟩ := mem_spread ht
  omega

theorem MRes.rowData_distinct (mem : Memory) : (r.rowData mem m).Pairwise (fun t u => t.1 ≠ u.1) := by
  refine List.pairwise_flatten.2 ⟨fun l hl => ?_, List.pairwise_map.2 (List.pairwise_lt_range.imp fun hlt t ht u hu => ?_)⟩
  · obtain ⟨n, -, rfl⟩ := List.mem_map.1 hl
    exact spread_distinct ..
  · obtain ⟨-, ht⟩ := mem_spread ht
    obtain ⟨hu, -⟩ := mem_spread hu
    omega

theorem LCore.writeRow_wf {c : LCore} (h : Memory.wf c.acc.mem = true) : Memory.wf (c.writeRow r m).acc.mem = true := by
  rw [LCore.writeRow_mem]
  exact Memory.writeL_wf h _

theorem LCore.read_writeRow_of_outside (c : LCore) {a : Nat} (h : ¬(tileOff r.tile m ≤ a ∧ a < tileOff r.tile m + 512)) :
    (c.writeRow r m).acc.mem.read a = c.acc.mem.read a := by
  rw [LCore.writeRow_mem]
  exact Memory.read_writeL_of_ne _ fun t ht he => h (he ▸ MRes.mem_rowData ht)

/-- Each element of the row is written from the element's earlier value. -/
theorem LCore.readN_writeRow {c : LCore} (h : Memory.wf c.acc.mem = true) {n : Nat} (hn : n < 128) :
    (c.writeRow r m).acc.mem.readN (tileOff r.tile m + 4 * n) 4 =
      r.elem m n (c.acc.mem.readN (tileOff r.tile m + 4 * n) 4) % 2 ^ 32 := by
  refine Memory.readN_of_spread fun t ht => ?_
  rw [LCore.writeRow_mem]
  exact Memory.read_writeL_of_mem h (MRes.rowData_distinct _)
    (List.mem_flatten.2 ⟨_, List.mem_map.2 ⟨n, List.mem_range.2 hn, rfl⟩, ht⟩)

/-- A granule outside the row keeps its mark: no byte of it is written, and none of the row's granules is it. -/
theorem LCore.isPois_writeRow_of_outside (c : LCore) {a : Nat} (h : ¬(tileOff r.tile m / 16 ≤ a / 16 ∧ a / 16 < tileOff r.tile m / 16 + 32)) :
    (c.writeRow r m).acc.isPois a = c.acc.isPois a := by
  have hcover : covers (r.rowData c.acc.mem m) (a / 16) = false := by
    refine List.all_eq_false.2 ⟨0, List.mem_range.2 (by decide), fun hany => ?_⟩
    obtain ⟨t, ht, he⟩ := List.any_eq_true.1 hany
    obtain ⟨hlow, hhigh⟩ := MRes.mem_rowData ht
    have he : t.1 = 16 * (a / 16) + 0 := beq_iff_eq.1 he
    have halign : tileOff r.tile m % 16 = 0 := by rw [tileOff, Nat.mul_right_comm]; omega
    omega
  have hhurt : (r.rowHurt c.acc.pois m).any (fun g => g == a / 16) = false := by
    refine List.any_eq_false.2 fun g hg he => ?_
    obtain ⟨i, hi, rfl⟩ := List.mem_map.1 (List.mem_filter.1 hg).1
    have hi := List.mem_range.1 hi
    have he := beq_iff_eq.1 he
    omega
  calc (c.writeRow r m).acc.isPois a
      = ((r.rowHurt c.acc.pois m).any (fun g => g == a / 16) || NatSet.mem (c.acc.store (r.rowData c.acc.mem m)).pois (a / 16)) :=
        NatSet.mem_foldl_insert (fun g => g) ..
    _ = c.acc.isPois a := by
        rw [hhurt, Bank.mem_store_pois, hcover, Bool.false_or, Bool.not_false, Bool.true_and]
        rfl

end

/-! ### The first rows of a result (R292, R296, R301) -/

/-- `d` is `c` with the first `k` rows of a result written, each element from its value in `c`, and all else of the accumulator memory kept. -/
structure LCore.RowsWritten (r : MRes) (k : Nat) (c d : LCore) : Prop where
  sp : d.sp = c.sp
  code : d.code = c.code
  wf : Memory.wf d.acc.mem = true
  elem : ∀ m n, m < k → n < 128 → d.acc.mem.readN (tileOff r.tile m + 4 * n) 4 =
    r.elem m n (c.acc.mem.readN (tileOff r.tile m + 4 * n) 4) % 2 ^ 32
  kept : ∀ a, (∀ m, m < k → ¬(tileOff r.tile m ≤ a ∧ a < tileOff r.tile m + 512)) → d.acc.mem.read a = c.acc.mem.read a
  pois : ∀ a, (∀ m, m < k → ¬(tileOff r.tile m / 16 ≤ a / 16 ∧ a / 16 < tileOff r.tile m / 16 + 32)) → d.acc.isPois a = c.acc.isPois a

/-- One more row: the rows before it stand apart from it, so that it finds its elements as they were and leaves theirs. -/
theorem LCore.RowsWritten.succ {r : MRes} {k : Nat} {c d : LCore} (h : LCore.RowsWritten r k c d) (ht : tileBad r.tile = none) :
    LCore.RowsWritten r (k + 1) c (d.writeRow r k) where
  sp := by rw [LCore.writeRow_sp, h.sp]
  code := by rw [LCore.writeRow_code, h.code]
  wf := LCore.writeRow_wf h.wf
  elem m n hm hn := by
    rcases Nat.lt_succ_iff_lt_or_eq.1 hm with hm | rfl
    · have hapart := tileOff_add_le ht hm
      rw [← h.elem m n hm hn]
      exact Memory.readN_congr fun x _ hx => d.read_writeRow_of_outside (by omega)
    · have hold : d.acc.mem.readN (tileOff r.tile m + 4 * n) 4 = c.acc.mem.readN (tileOff r.tile m + 4 * n) 4 :=
        Memory.readN_congr fun x hx _ => h.kept x fun j hj => by
          have hapart := tileOff_add_le ht hj
          omega
      rw [LCore.readN_writeRow h.wf hn, hold]
  kept a ha := by
    rw [d.read_writeRow_of_outside (ha k (Nat.lt_succ_self k)), h.kept a fun m hm => ha m (Nat.lt_succ_of_lt hm)]
  pois a ha := by
    rw [d.isPois_writeRow_of_outside (ha k (Nat.lt_succ_self k)), h.pois a fun m hm => ha m (Nat.lt_succ_of_lt hm)]

theorem LCore.rowsWritten_foldl {r : MRes} {c : LCore} (ht : tileBad r.tile = none) (hc : Memory.wf c.acc.mem = true) (k : Nat) :
    LCore.RowsWritten r k c ((List.range k).foldl (LCore.writeRow r) c) := by
  induction k with
  | zero => exact ⟨rfl, rfl, hc, fun _ _ hm => absurd hm (Nat.not_lt_zero _), fun _ _ => rfl, fun _ _ => rfl⟩
  | succ k ih =>
    rw [List.range_succ, List.foldl_append]
    exact ih.succ ht

/-- Settles O46, by induction on the rows (`LCore.rowsWritten_foldl`): a result is its rows written one after the other. -/
theorem matrixResultFrame : Obligations.MatrixResultFrame := by
  intro s r hmem htile _
  obtain ⟨-, hacc, -⟩ : (s.lcore r.lcore).Canon := ((State.memOk_iff s).1 hmem).lcore
  have h := LCore.rowsWritten_foldl (c := s.lcore r.lcore) htile hacc r.a.length
  rw [State.writeRes_eq]
  refine ⟨rfl, rfl, fun l hl => State.lcore_modLcore_ne s _ hl, ?_⟩
  rw [State.lcore_modLcore_self]
  exact ⟨h.sp, h.code, h.elem, fun a ha => ⟨h.kept a ha, h.pois a⟩⟩

/-! ### The transpose tile (R309 to R311) -/

theorem exec_ttw (a : Nat) (w : TileW) (s : State) : exec (.ttw a w) s = State.runOp (.ttw a w) (fun s => s.modLcore s.lc (fun c =>
    { c with ttile := (List.range 64).foldl (fun t j => Tbl.put t (s.tileIdx w * 64 + j) (el (codeWidth w.wc) (s.rv a) (64 * w.part + j))) c.ttile })) s := rfl

theorem exec_ttr (d : Nat) (w : TileW) (s : State) : exec (.ttr d w) s = State.runOp (.ttr d w)
    (fun s => s.outV d 4 ((s.lcore s.lc).ttrVal w (s.tileIdx w) (s.rvd d))) s := rfl

theorem LCore.el_ttrVal (c : LCore) (w : TileW) (i old : Nat) {k : Nat} (hk : k < 2048 / codeWidth w.wc) :
    el (codeWidth w.wc) (c.ttrVal w i old) k = if 64 * w.part ≤ k ∧ k < 64 * w.part + 64
      then Tbl.get 0 c.ttile ((k - 64 * w.part) * 64 + i) % 2 ^ codeWidth w.wc else el (codeWidth w.wc) old k := by
  rw [LCore.ttrVal, el_buildV hk]
  simp only [Bool.and_eq_true, decide_eq_true_eq]
  split
  · rfl
  · exact Nat.mod_eq_of_lt (el_lt ..)

theorem State.chkTile_ok {s : State} (h : (s.core s.cur).ttBusy = false) : Chk.when (s.core s.cur).ttBusy (.wait .engine) = .ok := by
  rw [h, Chk.when_false]

/-- Settles O43: TTW lists 64 keys of its row (`Tbl.get_foldl_put`), TTR's vector is read element by element (`LCore.el_ttrVal`). -/
theorem transposeTile : Obligations.TransposeTile := by
  refine ⟨fun s a w hready hfree => ?write, fun s d w hready hfree _ => ?read⟩
  case write =>
    rw [exec_ttw, State.runOp_of_ready _ hready (State.chkTile_ok hfree)]
    refine ⟨_, rfl, rfl, rfl, fun l hl => State.lcore_modLcore_ne s _ hl, ?_⟩
    rw [State.lcore_modLcore_self]
    refine ⟨rfl, rfl, fun k hk => ?_, fun n hn => ?_⟩
    · rw [Tbl.get_foldl_put, if_pos (by omega), Nat.add_sub_cancel_left]
      rfl
    · rw [Tbl.get_foldl_put, if_neg (by omega)]
  case read =>
    rw [exec_ttr, State.runOp_of_ready _ hready (State.chkTile_ok hfree)]
    exact ⟨_, rfl, fun k hk => LCore.el_ttrVal _ w _ _ hk⟩

/-! ### Matrix operations (R290, R295 to R297, R302 to R308) -/

theorem exec_mma (x b n : Nat) (w : MmaW) (s : State) : exec (.mma x b n w) s = State.runOp (.mma x b n w)
    (fun s => s.matStart (s.captureMma x b n w) (matBusyOf w.ta ((w.kg + 1) * 32))) s := rfl

theorem exec_mmap (x b n : Nat) (w : MmaW) (s : State) : exec (.mmap x b n w) s = State.runOp (.mmap x b n w)
    (fun s => s.matStart (s.captureHalf x b n w) (matBusyOf w.ta ((w.kg + 1) * 32))) s := rfl

theorem exec_mscl (n a : Nat) (s : State) : exec (.mscl n a) s = State.runOp (.mscl n a) (fun s => s.out .latch n 3 (s.rv a)) s := rfl

theorem exec_mzero (n : Nat) (s : State) : exec (.mzero n) s = State.runOp (.mzero n) (fun s => s.matStart (s.captureZero n) 32) s := rfl

theorem exec_mtile (n a : Nat) (s : State) : exec (.mtile n a) s = State.runOp (.mtile n a)
    (fun s => s.out .tile n 1 ((s.rx a).toNat % 2 ^ 29)) s := rfl

theorem exec_mtileImm (n w : Nat) (s : State) : exec (.mtileImm n w) s = State.runOp (.mtileImm n w) (fun s => s.out .tile n 1 w) s := rfl

theorem matBusyOf_eq (ta k : Nat) : matBusyOf ta k = if ta = 1 ∨ ta = 2 then 2 * k else if ta = 5 then k / 2 else k := by
  simp only [matBusyOf, Bool.or_eq_true, decide_eq_true_eq]

section
variable {s : State} {x b n : Nat} {w : MmaW}

/-- The checks of an MMA: its tile, the rows of both operands, their tags (R295). -/
theorem State.chkMma_ok {la lb : List (Nat × Nat × Nat)} (ht : tileBad (s.ar.tile n) = none)
    (ha : if w.av = 1 then la = []
      else s.matRows (s.matBases x b).1 (s.rx (x + 1)).toNat (rowBytes w.ta ((w.kg + 1) * 32)) (w.mm1 + 1) 0 = .ok la)
    (hb : s.matRows (s.matBases x b).2 (s.rx (b + 1)).toNat (rowBytes w.tb ((w.kg + 1) * 32)) 128 0 = .ok lb)
    (hta : s.matTags (rowBytes w.ta ((w.kg + 1) * 32)) la = none) (htb : s.matTags (rowBytes w.tb ((w.kg + 1) * 32)) lb = none) :
    s.chkMma x b n w = .ok := by
  have hrows : (if w.av = 1 then .ok []
      else s.matRows (s.matBases x b).1 (s.rx (x + 1)).toNat (rowBytes w.ta ((w.kg + 1) * 32)) (w.mm1 + 1) 0) = Except.ok la := by
    split at ha
    · next hav => rw [if_pos hav, ha]
    · next hav => rw [if_neg hav, ha]
  simp only [State.chkMma, ht, hrows, hb, hta, htb]

/-- A group that has recorded no timeout, with a partner: no trap of R308 without a look at the partner. -/
theorem State.pairTrap_none {gid t : Nat} (hp : s.partner w.gid = some (gid, t)) (ho : (s.group (dieOf s.lc) gid).tout = false) :
    s.pairTrap w = none := by
  simp only [State.pairTrap, hp, ho, Bool.false_and, Bool.false_eq_true, if_false]

/-- An MMAP whose partner is presented with the same shape, both engines free, passes with its half's own checks (R307, R308). -/
theorem State.chkMmap_ok {gid t p c x' b' n' : Nat} {v : MmaW} {im : Option Image} (hp : s.partner w.gid = some (gid, t))
    (ho : (s.group (dieOf s.lc) gid).tout = false) (hreads : s.pairReads x b w = .ok) (hat : s.presentedAt t gid = some (p, c))
    (hfree : s.pairFree p = true) (hv : s.mmapOf p c = some (.mmap x' b' n' v, im)) (hta : v.ta = w.ta) (htb : v.tb = w.tb) (hkg : v.kg = w.kg)
    (hmm : v.mm1 = w.mm1) (hhalf : s.chkHalf x b n w t = .ok) : s.chkMmap x b n w = .ok := by
  have hmine : s.matFree = true := by
    rw [State.pairFree, Bool.and_eq_true, Bool.and_eq_true] at hfree
    obtain ⟨⟨hmine, -⟩, -⟩ := hfree
    exact hmine
  simp [State.chkMmap, hmine, hreads, State.pairTrap_none hp ho, hp, hat, hfree, hv, hta, htb, hkg, hmm, hhalf]

theorem State.opCheck_mmap (ha : s.acquires = []) (h : s.chkMmap x b n w = .ok) : s.opCheck (.mmap x b n w) = .ok := by
  simp [State.opCheck, State.chkAcquired, ha, h]

end

/-- Settles O45: each operation by its arm and its checks (`State.chkMma_ok`, `State.chkMmap_ok`). -/
theorem matrixOperationsComplete : Obligations.MatrixOperationsComplete := by
  refine ⟨fun s x b n w la lb => ?mma, fun s x b n gid t p c w v x' b' n' im => ?mmap, fun s n a hv => ?mscl, fun s n hacq htile hfree => ?mzero,
    fun s n a hx hlt hword => ?mtile, fun s n w => ?mtileImm⟩
  case mma =>
    intro k hready htile _ ha hb hta htb
    rw [exec_mma, State.runOp_ready _ hready (State.chkMma_ok htile ha hb hta htb) rfl nofun, matBusyOf_eq]
  case mmap =>
    intro k hacq hp ho hreads hat hfree hv hta htb hkg hmm hhalf
    rw [exec_mmap, State.runOp_ok _ _ _ (State.opCheck_mmap hacq (State.chkMmap_ok hp ho hreads hat hfree hv hta htb hkg hmm hhalf)), matBusyOf_eq]
  case mscl =>
    have hready : s.ReadyFor (.mscl n a) := ⟨s.xReady_nil, hv, nofun, nofun, nofun, nofun⟩
    rw [exec_mscl, State.runOp_of_ready _ hready rfl]
  case mzero =>
    have hready : s.ReadyFor (.mzero n) := ⟨s.xReady_nil, nofun, nofun, nofun, fun _ => hacq, fun _ => hfree⟩
    have hchk : s.chkOp (.mzero n) = .ok := congrArg Chk.ofTrap htile
    rw [exec_mzero, State.runOp_ready _ hready hchk rfl nofun]
  case mtile =>
    have hchk : s.chkOp (.mtile n a) = .ok := by
      simp only [State.chkOp, hword, decide_eq_false (Nat.not_le.2 hlt), Bool.not_true, Bool.or_false, Chk.when_false]
    rw [exec_mtile, State.runOp_x _ hx hchk, Nat.mod_eq_of_lt hlt]
  case mtileImm => rw [exec_mtileImm, State.runOp_x _ s.xReady_nil rfl]

end Sys2Proof.Machine
end

/-! ## Transfers, loops and the other bank -/

section
namespace Sys2Proof.Machine

/-- Settles O9: a step takes the head of its agenda. -/
theorem stepRunsDueEvent : Obligations.StepRunsDueEvent := by
  intro s i l h
  rw [step, h]

/-! ### The transfers (R353 to R366) -/

theorem exec_br (a b c off : Nat) (s : State) :
    exec (.br a b c off) s = State.runOp (.br a b c off) (fun s => s.takeJump (.br a b c off) true) s := rfl

theorem exec_j (o : Nat) (s : State) : exec (.j o) s = State.runOp (.j o) (fun s => s.takeJump (.j o) true) s := rfl

theorem exec_jr (a : Nat) (s : State) : exec (.jr a) s = State.runOp (.jr a) (fun s => s.takeJump (.jr a) true) s := rfl

theorem exec_ret (a : Nat) (s : State) : exec (.ret a) s = State.runOp (.ret a)
    (fun s => (s.takeJump (.ret a) true).modCx (fun k => { k with rets := k.rets.drop 1 })) s := rfl

theorem exec_brt (ca cb cc neg cd off : Nat) (s : State) : exec (.brt ca cb cc neg cd off) s =
    State.runOp (.brt ca cb cc neg cd off) (fun s => s.takeJump (.brt ca cb cc neg cd off) true) s := rfl

theorem exec_call (o : Nat) (s : State) : exec (.call o) s = State.runOp (.call o)
    (fun s => ((s.takeJump (.call o) false).outX 63 1 (BitVec.ofNat 64 s.bun.next)).pushRet) s := rfl

theorem exec_callr (d a : Nat) (s : State) : exec (.callr d a) s = State.runOp (.callr d a)
    (fun s => ((s.takeJump (.callr d a) false).outX d 1 (BitVec.ofNat 64 s.bun.next)).pushRet) s := rfl

theorem exec_loop (d a lvl src tripi last : Nat) (s : State) : exec (.loop d a lvl src tripi last) s =
    State.runOp (.loop d a lvl src tripi last) (fun s =>
      (s.takeJump (.loop d a lvl src tripi last) false).modBun (fun b =>
        { b with
          noEnd := b.noEnd || !(s.ar.endsAt s.bun.pc).isEmpty
          out := if (!(s.ar.endsAt s.bun.pc).isEmpty) = true then some b.next else b.out
          ends := b.ends ++ [.loopSet lvl (s.tripOf a src tripi) b.next (s.loopEnd last) d (s.tripOf a src tripi != 0)] })) s := rfl

theorem exec_bsw (a i : Nat) (s : State) : exec (.bsw a i) s = State.runOp (.bsw a i)
    (fun s => (s.takeJump (.bsw a i) true).modBun (fun b => { b with outAll := true })) s := rfl

/-- A transfer that is taken leaves its target and its cost with its bundle (R354). -/
theorem State.takeJump_taken {s : State} {i : Instr} {t d : Nat} (h : s.jump i = some (.ok t, d)) (ends : Bool) :
    s.takeJump i ends =
      s.modBun (fun b => { b with target := some t, cost := d, noEnd := true, out := if ends = true then some t else b.out }) := by
  rw [State.takeJump, h]

/-- One that falls through leaves its cost alone. -/
theorem State.takeJump_fall {s : State} {i : Instr} (h : s.jump i = none) (ends : Bool) :
    s.takeJump i ends = s.modBun (fun b => { b with cost := s.fallCost i }) := by
  rw [State.takeJump, h]

/-- A transfer passes its checks where it falls through or its target can be one (R353). -/
theorem State.chkJump_ok {s : State} {i : Instr} (h : ∀ e d, s.jump i ≠ some (.error e, d)) (hc : ∀ o, i ≠ .call o)
    (hl : ∀ d a lvl src tripi last, i ≠ .loop d a lvl src tripi last) : s.chkJump i = .ok := by
  unfold State.chkJump
  split
  · next e d he => exact absurd he (h e d)
  · split
    · exact absurd rfl (hc _)
    · exact absurd rfl (hl _ _ _ _ _ _)
    · rfl

theorem State.chkJump_taken {s : State} {i : Instr} {t n : Nat} (hj : s.jump i = some (.ok t, n)) (hc : ∀ o, i ≠ .call o)
    (hl : ∀ d a lvl src tripi last, i ≠ .loop d a lvl src tripi last) : s.chkJump i = .ok :=
  State.chkJump_ok (fun _ _ he => by simp [hj] at he) hc hl

theorem State.chkJump_fall {s : State} {i : Instr} (hj : s.jump i = none) (hc : ∀ o, i ≠ .call o)
    (hl : ∀ d a lvl src tripi last, i ≠ .loop d a lvl src tripi last) : s.chkJump i = .ok :=
  State.chkJump_ok (fun _ _ he => by simp [hj] at he) hc hl

/-- A CALL also needs a bundle behind it in its bank (R357). -/
theorem State.chkJump_call_ok {s : State} {o t d : Nat} (h : s.jump (.call o) = some (.ok t, d)) (hn : s.bun.next % 2 ^ 17 < codeEnd) :
    s.chkJump (.call o) = .ok := by
  simp only [State.chkJump, h, Nat.not_le.2 hn, if_false, Chk.ok_andThen]

/-- A LOOP also needs a bundle at its start (R361). -/
theorem State.chkJump_loop_ok {s : State} {d a lvl src tripi last f : Nat} (h : ∀ e n, s.jump (.loop d a lvl src tripi last) ≠ some (.error e, n))
    (hf : s.fallTarget (s.bun.pc / 2 ^ 17) s.bun.pc s.bun.words = .ok f) : s.chkJump (.loop d a lvl src tripi last) = .ok := by
  unfold State.chkJump
  split
  · next e n he => exact absurd he (h e n)
  · simp only [hf, Chk.ofRes_ok, Chk.ok_andThen]

/-- The condition that BRT picks is the lowest that holds (R359). -/
theorem State.brtPick_eq_some {s : State} {ca cb cc neg cd k : Nat} (hk : k < 4)
    (h : s.brtCond ([ca, cb, cc, cd].getD k 0) neg k = true)
    (hlow : ∀ j, j < k → s.brtCond ([ca, cb, cc, cd].getD j 0) neg j = false) : s.brtPick ca cb cc neg cd = some k := by
  rw [State.brtPick, List.find?_range_eq_some]
  exact ⟨h, List.mem_range.2 hk, fun j hj => by rw [hlow j hj]; rfl⟩

theorem State.brtPick_eq_none {s : State} {ca cb cc neg cd : Nat}
    (h : ∀ k, k < 4 → s.brtCond ([ca, cb, cc, cd].getD k 0) neg k = false) : s.brtPick ca cb cc neg cd = none :=
  List.find?_eq_none.2 fun k hk => by simp only [h k (List.mem_range.1 hk), Bool.false_eq_true, not_false_iff]

/-- What a call that is taken leaves: its target and cost with the bundle, the link value on the return stack and in flight (R354, R357). -/
theorem State.call_effect {s : State} {i : Instr} {t n : Nat} (h : s.jump i = some (.ok t, n)) (d : Nat) :
    let v := ((s.takeJump i false).outX d 1 (BitVec.ofNat 64 s.bun.next)).pushRet
    v.bun.target = some t ∧ v.bun.cost = n ∧ v.cx.rets = (s.bun.next :: s.cx.rets).take 8 ∧
      v.ar.inflight = insertLanding ⟨s.ar.scyc + 2, s.ar.scyc + 1, s.slot, s.bun.pc, .x, d, s.bun.next % 2 ^ 64, none⟩ s.ar.inflight := by
  rw [State.takeJump_taken h]
  refine ⟨rfl, rfl, ?_, ?_⟩
  · simp [State.pushRet, State.outX, State.out]
  · simp [State.pushRet, State.outX, State.out, State.ar, State.cyc]

/-- Settles O26: each transfer by its arm, its check (`State.chkJump_ok`) and what a taken one and one that falls through leave. -/
theorem transfersLeaveTheirTarget : Obligations.TransfersLeaveTheirTarget := by
  refine ⟨fun s a b c off hx => ⟨fun hc => ?brFall, fun t hc ht => ?brTaken⟩, fun s o t ht => ?j, fun s a t hx ht => ⟨?jr, ?ret⟩,
    fun s ca cb cc neg cd off hx => ⟨fun hc => ?brtFall, fun k t hk hc hlow ht => ?brtTaken⟩, fun s o t ht hn => ?call,
    fun s d a t hx ht => ?callr⟩
  case brFall =>
    have hj : s.jump (.br a b c off) = none := by simp only [State.jump, hc, Bool.false_eq_true, if_false]
    rw [exec_br, State.runOp_x _ hx rfl (State.chkJump_fall hj nofun nofun), State.takeJump_fall hj]
    rfl
  case brTaken =>
    have hj : s.jump (.br a b c off) = some (.ok t, if s.bun.bh = 1 then 2 else 6) := by
      simp only [State.jump, hc, if_true, wordDisp, ht]
    rw [exec_br, State.runOp_x _ hx rfl (State.chkJump_taken hj nofun nofun), State.takeJump_taken hj]
    rfl
  case j =>
    have hj : s.jump (.j o) = some (.ok t, 2) := by simp only [State.jump, wordDisp, ht]
    rw [exec_j, State.runOp_x _ s.xReady_nil rfl (State.chkJump_taken hj nofun nofun), State.takeJump_taken hj]
    rfl
  case jr =>
    have hj : s.jump (.jr a) = some (.ok t, 6) := by simp only [State.jump, ht]
    rw [exec_jr, State.runOp_x _ hx rfl (State.chkJump_taken hj nofun nofun), State.takeJump_taken hj]
    rfl
  case ret =>
    have hj : s.jump (.ret a) = some (.ok t, if s.cx.rets.head? = some (s.rx a).toNat then 2 else 6) := by simp only [State.jump, ht]
    rw [exec_ret, State.runOp_x _ hx rfl (State.chkJump_taken hj nofun nofun), State.takeJump_taken hj]
    exact ⟨_, rfl, rfl, rfl, by simp, by simp [State.ar]⟩
  case brtFall =>
    have hj : s.jump (.brt ca cb cc neg cd off) = none := by simp [State.jump, State.brtPick_eq_none hc]
    rw [exec_brt, State.runOp_x _ hx rfl (State.chkJump_fall hj nofun nofun), State.takeJump_fall hj]
    rfl
  case brtTaken =>
    have hj : s.jump (.brt ca cb cc neg cd off) = some (.ok t, if k = 0 ∧ s.bun.bh = 1 then 2 else 6) := by
      simp [State.jump, State.brtPick_eq_some hk hc hlow, wordDisp, ht]
    rw [exec_brt, State.runOp_x _ hx rfl (State.chkJump_taken hj nofun nofun), State.takeJump_taken hj]
    rfl
  case call =>
    have hj : s.jump (.call o) = some (.ok t, 2) := by simp only [State.jump, wordDisp, ht]
    rw [exec_call]
    exact ⟨_, State.runOp_x _ s.xReady_nil rfl (State.chkJump_call_ok hj hn), State.call_effect hj 63⟩
  case callr =>
    have hj : s.jump (.callr d a) = some (.ok t, 6) := by simp only [State.jump, ht]
    rw [exec_callr]
    exact ⟨_, State.runOp_x _ hx rfl (State.chkJump_taken hj nofun nofun), State.call_effect hj d⟩

/-- Settles O27: a LOOP by whether it skips its body, BSW by its target in the other bank. -/
theorem loopsAndBankSwitch : Obligations.LoopsAndBankSwitch := by
  refine ⟨fun s d a lvl src tripi last f hx hf => ?loop, fun s a i t hx => ?bsw⟩
  case loop =>
    have hready : s.xReady (Instr.loop d a lvl src tripi last).xsrcs := by
      simp only [Instr.xsrcs]
      split
      · next h => exact hx h
      · exact s.xReady_nil
    refine ⟨fun hn hend => ?start, fun t hz ht => ?skip⟩
    case start =>
      have hj : s.jump (.loop d a lvl src tripi last) = none := by simp only [State.jump, hn, if_false]
      rw [exec_loop, State.runOp_x _ hready rfl (State.chkJump_loop_ok (by simp [hj]) hf), State.takeJump_fall hj, hend]
      simp [State.modBun, State.fallCost, State.loopEnd, hn]
    case skip =>
      have hj : s.jump (.loop d a lvl src tripi last) = some (.ok t, 2) := by simp only [State.jump, hz, if_true, ht]
      rw [exec_loop, State.runOp_x _ hready rfl (State.chkJump_loop_ok (by simp [hj]) hf), State.takeJump_taken hj]
      exact ⟨_, rfl, rfl, rfl, rfl⟩
  case bsw =>
    intro o ho ht
    have hj : s.jump (.bsw a i) = some (.ok t, 6) := by
      have h : ¬ 2 ^ 17 ≤ modI 64 (((s.rx a).toNat : Int) + wordDisp 10 i) := Nat.not_le.2 ho
      simp only [State.jump, if_neg h]
      exact congrArg (fun r => some (r, 6)) ht
    rw [exec_bsw, State.runOp_x _ hx rfl (State.chkJump_taken hj nofun nofun), State.takeJump_taken hj]
    rfl

end Sys2Proof.Machine
end

/-! ## Taking an exception -/

section
namespace Sys2Proof.Machine

/-! ### Rollback (R400) -/

/-- A context as its rollback leaves it. -/
def Ctx.rolledBack (k : Ctx) : Ctx :=
  { k with arch := k.image, held := [], wbuf := [], win := [], rets := [], replay := none, swait := []
           presented := none, bnd := false, wrote := [], drainOn := none, drainGo := none, nb := 0, waited := 0, chain := false }

/-- A core without the matrix results of a context that no commit has reached. -/
def PCore.dropUncommitted (p : PCore) (c : Nat) : PCore := { p with matPend := p.matPend.filter (fun m => !(m.ctx == c && !m.committed)) }

/-- The state without what a rollback of the issuing context discards outside the context. -/
def State.discarded (s : State) : State :=
  let t := s.modCore s.cur (fun p => p.dropUncommitted s.ctx)
  let u := ({ t with lcores := t.lcores.map (dropWaits (t.cx.arch.loads.map (fun q => q.id)) (s.cx.image.loads.map (fun q => q.id))) } : State).dropGotOf
    t.cur t.ctx
  u.modTask u.tid (fun t => { t with async := t.async.filter (fun c => c.pc.isNone) })

theorem State.rollback_eq (s : State) : s.rollback = s.discarded.modCx Ctx.rolledBack := rfl

theorem State.cx_discarded (s : State) : s.discarded.cx = s.cx :=
  State.ctxAt_modCore (f := fun p => p.dropUncommitted s.ctx) s rfl s.cur s.ctx

theorem State.core_discarded (s : State) : s.discarded.core s.cur = (s.core s.cur).dropUncommitted s.ctx :=
  s.core_modCore_self s.cur (fun p => p.dropUncommitted s.ctx)

/-- Of a logical core nothing goes but requests that wait at its banks. -/
theorem State.lcore_rollback (s : State) (l : Nat) : ∃ w, s.rollback.lcore l = { s.lcore l with waits := w } := by
  have h (live ids : List Nat) : Tbl.get {} (s.lcores.map (dropWaits live ids)) l = (dropWaits live ids (l, s.lcore l)).2 :=
    Tbl.get_map (g := dropWaits live ids) (fun _ => rfl) (d := {}) rfl s.lcores
  exact ⟨_, h _ _⟩

theorem State.cx_rollback (s : State) : s.rollback.cx = s.cx.rolledBack := by
  rw [State.rollback_eq, State.cx_modCx, State.cx_discarded]

/-- A core with other contexts. -/
def PCore.withCtxs (p : PCore) (l : Tbl Ctx) : PCore := { p with ctxs := l }

theorem State.core_modCx (s : State) (f : Ctx → Ctx) :
    (s.modCx f).core s.cur = (s.core s.cur).withCtxs (Tbl.put (s.core s.cur).ctxs s.ctx (f s.cx)) :=
  s.core_modCore_self s.cur _

theorem State.trace_modCx (s : State) (f : Ctx → Ctx) : ((s.modCx f).core s.cur).trace = (s.core s.cur).trace := by
  rw [s.core_modCx f, PCore.withCtxs]

theorem State.core_rollback (s : State) :
    ∃ l, s.rollback.core s.cur = ((s.core s.cur).dropUncommitted s.ctx).withCtxs l := by
  have h := s.discarded.core_modCx Ctx.rolledBack
  rw [State.rollback_eq, ← s.core_discarded]
  exact ⟨_, h⟩

/-! ### Delivery (R405) -/

/-- A context as it enters its task's handler at `vec` (R405). -/
def Ctx.handling (vec : Nat) (k : Ctx) : Ctx :=
  { k with frameLoads := k.arch.loads, arch := k.arch.handler vec, image := k.arch.handler vec, inh := true, post := [], job := none, jobIdx := none }

/-- A delivery with its frame mapped enters the handler with the registers that the frame holds. -/
theorem State.deliverUser_ok {s : State} {pa : Nat} (h : s.framePA true true = .ok pa) (t : Trap) :
    ∃ u, CoresKept s u ∧ s.deliverUser t = u.modCx (Ctx.handling (s.myTask.trapvec + (if t.cause = 8 then 0x40 else 0))) := by
  unfold State.deliverUser
  rw [h]
  exact ⟨_, (CoresKept.writeFrame s pa (s.frameItems s.ar (s.trapInfo t false))).trans (.keepRows _ true s.cx.post [] s.ar), rfl⟩

/-- A task as a delivery to the supervisor leaves it, once its frame is written: SAVED, its context free, with its event. -/
def State.supervised (u : State) (t : Trap) (dbl : Bool) : State :=
  let v := u.keepLoads.modTask u.tid (fun k => { k with state := 4 })
  ((v.freeCtx).fwEvent (fld u.tid 18 16) 2 u.tid).blackBox (dieOf v.cur) 1 (unitWord v.cur v.ctx) (t.word0 dbl v.cx.inh)

theorem State.deliverSuper_ok {s : State} {pa : Nat} (h : s.framePA false true = .ok pa) (t : Trap) (dbl : Bool) :
    ∃ u, CoresKept s u ∧ s.deliverSuper t dbl = u.supervised t dbl := by
  rw [State.deliverSuper, h]
  exact ⟨_, (CoresKept.writeFrame s pa (s.frameItems s.ar (s.trapInfo t dbl))).trans (.keepRows _ false s.cx.post [] s.ar), rfl⟩

theorem CoresKept.cx {s t : State} (h : CoresKept s t) : t.cx = s.cx := by
  rw [State.cx, h.cur, h.ctx, h.ctxAt, State.cx]

theorem CoresKept.tid {s t : State} (h : CoresKept s t) : t.tid = s.tid := congrArg Ctx.tid h.cx

/-- A part of a die's record that an update of a die does not touch. -/
theorem State.proj_die_modDie {α : Type} (g : Die → α) (s : State) (d e : Nat) {f : Die → Die} (hf : ∀ x, g (f x) = g x) :
    g ((s.modDie d f).die e) = g (s.die e) := by
  by_cases h : e = d
  · rw [h, State.die_modDie_self, hf]
  · rw [State.die_modDie_ne _ _ h]

/-- What a delivery to the supervisor leaves: the task SAVED, its context free, an event that names it. -/
theorem State.supervised_effect (u : State) (t : Trap) (dbl : Bool) :
    ((u.supervised t dbl).task u.tid).state = 4 ∧ ((u.supervised t dbl).ctxAt u.cur u.ctx).task = none ∧
      ∃ l, ((u.supervised t dbl).die (fld u.tid 18 16)).fwEvents = l ++ [(2, u.tid)] := by
  let v := u.keepLoads.modTask u.tid (fun k => { k with state := 4 })
  refine ⟨?_, v.freeCtx_ctx, (v.freeCtx.die (fld u.tid 18 16)).fwEvents, ?_⟩
  · have hv : (v.task u.tid).state = 4 := congrArg Task.state (State.task_modTask_self ..)
    rw [State.supervised, State.blackBox, State.task_modDie, State.fwEvent, State.task_modDie, State.task_freeCtx]
    exact hv
  · rw [State.supervised, State.blackBox, State.proj_die_modDie Die.fwEvents _ _ _ (by intro; rfl), State.fwEvent, State.die_modDie_self]

/-- A rollback that forgets a trap that stood recorded. -/
def State.undone (s : State) : State := s.rollback.modCx (fun k => { k with trpend := none })

/-- A trap with the pc, the context cycles and the bundles of its record. -/
def Trap.recorded (t : Trap) (s : State) (n : Nat) : Trap := { t with pc := some (t.pc.getD (s.nextHeader s.ar.pc)), ncyc := n, nb := s.cx.nb }

/-- Where a trap's handler begins. -/
def State.vector (s : State) (t : Trap) : Nat := s.myTask.trapvec + (if t.cause = 8 then 0x40 else 0)

/-- The context cycles since the checkpoint that a trap's record counts: none after a commit (R406). -/
def State.cyclesLost (s : State) (t : Trap) : Nat := if t.post || t.cause == 20 || t.cause == 21 then 0 else s.ar.scyc + 1 - s.cx.image.scyc

theorem State.undone_trace (s : State) : (s.undone.core s.undone.cur).trace = (s.core s.cur).trace := by
  obtain ⟨l, hl⟩ := s.core_rollback
  have h : (s.undone.core s.undone.cur).trace = (s.rollback.core s.cur).trace := s.rollback.trace_modCx _
  rw [h, hl]
  rfl

/-- A trap with no record kept, no pre-emption and no trace: the rollback, then the delivery (R404, R405). -/
theorem State.trapCore_eq {s : State} (hp : s.cx.trpend = none) (hpre : s.cx.preempt = false) (ht : (s.core s.cur).trace = false) (t : Trap) :
    s.trapCore t false =
      let d := !superCause t.cause && (s.cx.inh || !s.undone.codeOk (s.undone.vector t))
      { (if superCause t.cause || d then s.undone.deliverSuper (t.recorded s (s.cyclesLost t)) d
          else s.undone.deliverUser (t.recorded s (s.cyclesLost t))) with bun := {} } := by
  have hoff (k pc cyc w : Nat) : s.undone.traceRec k pc cyc w = s.undone := State.traceRec_off (s.undone_trace.trans ht) k pc cyc w
  have h : s.trapCore t false =
    let q := if s.cx.trpend.isSome then t else t.recorded s (s.cyclesLost t)
    let d := false || (!superCause q.cause && (s.cx.inh || !s.undone.codeOk (s.undone.vector q)))
    let u := s.undone.traceRec 2 (q.pc.getD 0) (q.cyc.getD (s.undone.ar.scyc + q.ncyc)) (q.word0 d s.cx.inh)
    { (if s.cx.preempt then u.modCx (fun k => { k with trpend := some q })
        else if superCause q.cause || d then u.deliverSuper q d else u.deliverUser q) with bun := {} } := rfl
  rw [h, hp, hpre]
  dsimp only
  rw [hoff]
  rfl

/-- Settles O51: by what a rollback leaves (`State.rollback_eq`), what each delivery leaves once its frame is mapped
(`State.deliverUser_ok`, `State.supervised_effect`), and which delivery follows a trap (`State.trapCore_eq`). -/
theorem takingAnException : Obligations.TakingAnException := by
  refine ⟨fun c => by simp only [superCause, Bool.or_eq_true, beq_iff_eq, or_assoc], fun s => ?rollback, fun s t pa hpa => ?user, fun s t dbl pa hpa => ?super,
    fun s t hpair htrace hpend hpre => ?take⟩
  case rollback =>
    obtain ⟨l, hcore⟩ := s.core_rollback
    intro t
    have hcx : t.cx = s.cx.rolledBack := s.cx_rollback
    have har : t.ar = s.cx.image := congrArg Ctx.arch hcx
    rw [har, hcx]
    refine ⟨rfl, rfl, rfl, rfl, rfl, rfl, rfl, rfl, rfl, rfl, rfl, fun l => ?_, fun m hm => ?_⟩
    · obtain ⟨w, hw⟩ := s.lcore_rollback l
      rw [hw]
      exact ⟨rfl, rfl, rfl⟩
    · rw [hcore] at hm
      obtain ⟨hmem, hkeep⟩ := List.mem_filter.1 hm
      refine ⟨hmem, fun hc => ?_⟩
      simpa [hc] using hkeep
  case user =>
    obtain ⟨u, hk, hu⟩ := State.deliverUser_ok hpa t
    intro v
    have hcx : v.cx = s.cx.handling (s.vector t) := by
      rw [show v = _ from hu, State.cx_modCx, hk.cx, State.vector]
    have har : v.ar = s.ar.handler (s.vector t) := congrArg Ctx.arch hcx
    rw [har, hcx]
    exact ⟨rfl, rfl, rfl, rfl, rfl, rfl, rfl, rfl, rfl, rfl, rfl, rfl, rfl, rfl⟩
  case super =>
    obtain ⟨u, hk, hu⟩ := State.deliverSuper_ok hpa t dbl
    have h := u.supervised_effect t dbl
    rw [← hu, hk.tid, hk.cur, hk.ctx] at h
    exact h
  case take =>
    have hcore : s.takeTrap t = s.trapCore t false := by rw [State.takeTrap, State.takeTrapAs, State.abortPartners, hpair, List.foldl_nil]
    refine ⟨s.cyclesLost t, fun hsup hinh hvec => ?_, fun hsup => ?_, fun hsup hbad => ?_, fun h => if_pos ?_⟩
    · have hvec' : s.undone.codeOk (s.undone.vector t) = true := hvec
      rw [hcore, State.trapCore_eq hpend hpre htrace, hsup, hinh, hvec']
      simp only [Bool.not_true, Bool.or_self, Bool.and_false, Bool.false_eq_true, if_false]
      rfl
    · rw [hcore, State.trapCore_eq hpend hpre htrace, hsup]
      simp only [Bool.not_true, Bool.false_and, Bool.true_or, if_true]
      rfl
    · have hd : (s.cx.inh || !s.undone.codeOk (s.undone.vector t)) = true := by
        rcases hbad with h | h
        · rw [h, Bool.true_or]
        · rw [show s.undone.codeOk (s.undone.vector t) = false from h, Bool.not_false, Bool.or_true]
      rw [hcore, State.trapCore_eq hpend hpre htrace, hsup, hd]
      rfl
    · simpa [or_assoc] using Or.inr h

end Sys2Proof.Machine
end

/-! ## Command lists -/

section
namespace Sys2Proof.Machine

/-! ### Slots -/

@[simp] theorem State.sub_modSub (s : State) (d n : Nat) (f : Sub → Sub) : (s.modSub d n f).sub d n = f (s.sub d n) := by
  rw [State.sub, State.modSub, State.die_modDie_self, Tbl.get_put_self, State.sub]

theorem State.subs_dropGot (s : State) (g : Nat → Bool) (d : Nat) : ((s.dropGot g).die d).subs = (s.die d).subs := by
  rw [State.die_mapDies (s := s) (t := s.dropGot g) (f := fun x => { x with copies := x.copies.map (fun k =>
    if k.m.kind == 1 && k.req != 0 && g k.req then { k with stale := true } else k) }) rfl rfl]

/-- Processing that goes on elsewhere changes nothing of the slot but its pc. -/
@[simp] theorem State.sub_listTo (s : State) (d n va : Nat) : (s.listTo d n va).sub d n = { s.sub d n with pc := va } := by
  rw [State.listTo, State.sub, State.subs_dropGot]
  exact s.sub_modSub d n _

/-- The vector that a slot raises changes no slot. -/
@[simp] theorem State.sub_raiseSub (s : State) (d n : Nat) : (s.raiseSub d n).sub d n = s.sub d n := rfl

/-! ### Processing an entry (R367, R375) -/

section
variable {s : State} {d n w : Nat} {ws : List Nat}

/-- A list whose next address is at hand goes on at once. -/
theorem State.listGet_here {vas : List Nat} (h : s.listGap d n vas = none) (f : State → State) : s.listGet d n vas f = f s := by
  rw [State.listGet, h]

/-- An entry under a SKIPIF is passed by its length (R372). -/
theorem State.stepList_skip (hb : (s.sub d n).busy = true) (hs : 0 < (s.sub d n).skip) (hg : s.listGap d n [(s.sub d n).pc] = none)
    (hr : s.listRead d n (s.sub d n).pc = some w) (hl : entryLen (fld w 63 56) = some (fld w 55 52)) : s.stepList d n = s.passEntry d n w := by
  simp [State.stepList, hb, State.listGet_here hg, hr, hl, hs]

/-- The list's entry: its header and its words are at hand, and its length is its type's. -/
structure State.EntryAt (s : State) (d n w : Nat) (ws : List Nat) : Prop where
  busy : (s.sub d n).busy = true
  skip : (s.sub d n).skip = 0
  header : s.listGap d n [(s.sub d n).pc] = none
  read : s.listRead d n (s.sub d n).pc = some w
  body : s.listGap d n (entryVas (s.sub d n).pc w) = none
  words : s.listWords d n (s.sub d n).pc (4 * fld w 55 52) = some ws

theorem State.EntryAt.listHead (h : s.EntryAt d n w ws) : s.listHead d n = some w := by
  simp [State.listHead, h.busy, h.skip, h.header, h.read]

theorem State.EntryAt.listAt (h : s.EntryAt d n w ws) {ty : Nat} (ht : fld w 63 56 = ty) : s.listAt d n ty = true := by
  simp [State.listAt, h.listHead, ht]

theorem State.EntryAt.listOp (h : s.EntryAt d n w ws) {op : Nat} (ht : fld w 63 56 = 4) (ho : fld w 51 50 = op) : s.listOp d n op = true := by
  simp [State.listOp, h.listAt ht, h.listHead, ho]

theorem State.EntryAt.stepList (h : s.EntryAt d n w ws) (hl : entryLen (fld w 63 56) = some (fld w 55 52)) : s.stepList d n = s.runEntry d n w := by
  simp [State.stepList, h.busy, State.listGet_here h.header, h.read, hl, h.skip, State.listGet_here h.body]

/-- The processing of an entry of 32 bytes, by its type. -/
def State.byType (s : State) (d n : Nat) (ws : List Nat) (ty : Nat) : State :=
  match ty with
  | 3 => s.entryWait d n ws
  | 4 => s.entrySignal d n ws
  | 5 => s.entrySkip d n ws
  | 6 => s.entryJump d n ws
  | 7 => s.entryCall d n ws
  | 8 => s.entryRet d n
  | 9 => s.entryLoop d n ws
  | 10 => s.entryXfer d n ws
  | 11 => s.entryFlush d n
  | _ => s.entryFence d n

theorem State.EntryAt.stepList_byType (h : s.EntryAt d n w ws) (hl : fld w 55 52 = 1) {ty : Nat} (ht : fld w 63 56 = ty) (hty : inRange 3 12 ty = true)
    (hok : entryOk (fld w 63 56) ws = true) : s.stepList d n = s.byType d n ws ty := by
  have hne : ty ≠ 1 ∧ ty ≠ 2 := by
    simp only [inRange, Bool.and_eq_true, decide_eq_true_eq] at hty
    omega
  have hlen : entryLen (fld w 63 56) = some (fld w 55 52) := by simp [entryLen, ht, hl, hty, hne]
  have hrun : s.runEntry d n w = if fld w 63 56 = 1 then s.entryLaunch d n ws false else if fld w 63 56 = 2 then s.entryLaunch d n ws true
      else if !entryOk (fld w 63 56) ws then s.listFail d n 2 else s.byType d n ws (fld w 63 56) := by
    rw [State.runEntry, h.words]
    rfl
  rw [h.stepList hlen, hrun, hok, ht, if_neg hne.1, if_neg hne.2]
  rfl

/-- A LAUNCH or LAUNCHI entry of 128 bytes (R369, R371). -/
theorem State.EntryAt.stepList_launch (h : s.EntryAt d n w ws) (hl : fld w 55 52 = 4) (ht : fld w 63 56 = 1) :
    s.stepList d n = s.entryLaunch d n ws false := by
  rw [h.stepList (by rw [ht, hl]; rfl), State.runEntry, h.words]
  exact if_pos ht

theorem State.EntryAt.stepList_launchi (h : s.EntryAt d n w ws) (hl : fld w 55 52 = 4) (ht : fld w 63 56 = 2) :
    s.stepList d n = s.entryLaunch d n ws true := by
  rw [h.stepList (by rw [ht, hl]; rfl), State.runEntry, h.words]
  simp only [ht]
  rfl

end

/-! ### Flow and counter words (R372, R373) -/

section
variable {s : State} {d n : Nat} {ws : List Nat}

theorem State.entryJump_aligned (h : ws.getD 1 0 % 32 = 0) : s.entryJump d n ws = s.listTo d n (ws.getD 1 0) := by
  simp only [State.entryJump, h, bne_self_eq_false, Bool.false_eq_true, if_false]

theorem State.entryCall_room (h : ws.getD 1 0 % 32 = 0) (hr : (s.sub d n).calls.length < 8) : s.entryCall d n ws =
    (s.listTo d n (ws.getD 1 0)).modSub d n (fun k => { k with calls := ((s.sub d n).pc + 32) :: (s.sub d n).calls }) := by
  simp only [State.entryCall, h, Nat.not_le.2 hr, bne_self_eq_false, Bool.false_eq_true, if_false]

theorem State.entryRet_cons {a : Nat} {l : List Nat} (h : (s.sub d n).calls = a :: l) :
    s.entryRet d n = (s.listTo d n a).modSub d n (fun u => { u with calls := l }) := by
  rw [State.entryRet, h]

theorem State.entryRet_nil (h : (s.sub d n).calls = []) : s.entryRet d n = s.listDone d n := by
  rw [State.entryRet, h]

theorem State.entryFlush_done (h : s.listOwed (s.sub d n).asid = false) : s.entryFlush d n = s.listTo d n ((s.sub d n).pc + 32) := by
  rw [State.entryFlush, h]
  rfl

theorem State.entryFlush_owed (h : s.listOwed (s.sub d n).asid = true) : s.entryFlush d n = s := if_pos h

theorem State.entrySignal_owed (h : s.listOwed (s.sub d n).asid = true) : s.entrySignal d n ws = s := if_pos h

/-- A SIGNAL that decrements a task's counter (R378). -/
theorem State.entrySignal_tdec (hop : fld (ws.headD 0) 51 50 = 2) (h : s.listOwed (s.sub d n).asid = false) :
    s.entrySignal d n ws = (let t := (s.decTask d (ws.getD 1 0) (ws.getD 2 0)).2
      t.listTo d n ((t.sub d n).pc + 32)) := by
  simp only [State.entrySignal, h, hop, Bool.false_eq_true, if_false]

/-- A counter word of this package is read, and written, at once. -/
theorem State.listAtom_here {ea op b l o old : Nat} {c : LCore} (ha : s.listAcc d (s.sub d n).asid ea = some (l, o, none))
    (hw : (s.lcore l).atom o op 64 true b 0 = some (old, c)) (f : Nat → State → State) : s.listAtom d n ea op b f = f old (s.setLcore l c) := by
  simp only [State.listAtom, ha, hw]

/-- A list that has ended is not busy, and says so. -/
theorem State.listDone_sub : ((s.listDone d n).sub d n).busy = false ∧ ((s.listDone d n).sub d n).done = true := by
  rw [State.listDone, State.sub_raiseSub, State.sub_modSub]
  exact ⟨rfl, rfl⟩

/-! ### Submission (R468) -/

theorem State.submit_busy (h : (s.sub d n).busy = true) :
    s.submit d n = (s.modSub d n (fun u => { u with fail := true, code := 9 })).raiseSub d n := if_pos h

theorem State.submit_idle (h : (s.sub d n).busy = false) (hr : (s.die d).ready = true) : s.submit d n =
    (s.listTo d n (s.sub d n).addr).modSub d n (fun u =>
      { u with busy := true, done := false, fail := false, code := 0, calls := [], loops := [], launches := [], waitRef := none, got := none
               skip := 0 }) := by
  simp [State.submit, h, hr]

end

/-- Settles O56: an entry whose words are at hand is processed by the meaning of its type (`State.EntryAt.stepList_byType`), which the lemmas
above give for each clause. -/
theorem commandListEntries : Obligations.CommandListEntries := by
  intro s d n u
  refine ⟨fun hb hr => ?go, fun hb => ?busy, fun hb hs hg w hr hl => State.stepList_skip hb hs hg hr hl,
    fun hb hs hg w ws hr hbody hw => ⟨fun ht hl => ?launch, fun ht hl => ?launchi, fun hl hok => ?entry⟩, fun ws l o old c ha hw => ?wait,
    fun ws ho => ⟨State.entrySignal_owed ho, State.entryFlush_owed ho⟩, fun ws hop ho => State.entrySignal_tdec hop ho, fun w v k => ⟨rfl, rfl, rfl⟩⟩
  case go =>
    refine ⟨s.submit d n, rfl, ?_⟩
    rw [State.submit_idle hb hr, State.sub_modSub, State.sub_listTo]
    exact ⟨rfl, rfl, rfl, rfl⟩
  case busy =>
    refine ⟨s.submit d n, rfl, ?_⟩
    rw [State.submit_busy hb, State.sub_raiseSub, State.sub_modSub]
    exact ⟨rfl, rfl, rfl⟩
  case launch =>
    have h : s.EntryAt d n w ws := ⟨hb, hs, hg, hr, hbody, hw⟩
    exact congrArg Host.Outcome.next ((if_pos (h.listAt ht)).trans (h.stepList_launch hl ht))
  case launchi =>
    have h : s.EntryAt d n w ws := ⟨hb, hs, hg, hr, hbody, hw⟩
    exact congrArg Host.Outcome.next ((if_pos (h.listAt ht)).trans (h.stepList_launchi hl ht))
  case entry =>
    have h : s.EntryAt d n w ws := ⟨hb, hs, hg, hr, hbody, hw⟩
    have row {ty : Nat} {t : State} (ht : fld w 63 56 = ty) (hty : inRange 3 12 ty = true) (hby : s.byType d n ws ty = t) :
        (.next (if s.listAt d n ty then s.stepList d n else s) : Host.Outcome State Fault Refusal) = .next t := by
      rw [if_pos (h.listAt ht), h.stepList_byType hl ht hty hok, hby]
    have signal {op : Nat} (ht : fld w 63 56 = 4) (ho : fld w 51 50 = op) :
        (.next (if s.listOp d n op then s.stepList d n else s) : Host.Outcome State Fault Refusal) = .next (s.entrySignal d n ws) := by
      rw [if_pos (h.listOp ht ho), h.stepList_byType hl ht rfl hok]
      rfl
    refine ⟨fun ht => ⟨row ht rfl rfl, fun hblk => ?observed⟩, fun ht => ⟨signal ht, signal ht, signal ht⟩, fun ht => row ht rfl rfl,
      fun ht ha => row ht rfl (State.entryJump_aligned ha), fun ht ha hroom => row ht rfl (State.entryCall_room ha hroom),
      fun ht a l hc => row ht rfl (State.entryRet_cons hc), fun ht hc => ⟨_, row ht rfl (State.entryRet_nil hc), State.listDone_sub⟩,
      fun ht => row ht rfl rfl, fun ht => row ht rfl rfl, fun ht ho => row ht rfl (State.entryFlush_done ho),
      fun ht hlaunch ho => row ht rfl ((if_pos hlaunch).trans (State.entryFlush_done ho))⟩
    case observed =>
      have hif : (s.listAt d n 3 && !s.waitBlocked d n) = true := by rw [h.listAt ht, hblk]; rfl
      exact congrArg Host.Outcome.next ((if_pos hif).trans (h.stepList_byType hl ht rfl hok))
  case wait => rw [State.entryWait, State.listAtom_here ha hw]

end Sys2Proof.Machine
end

/-! ## Messages of the fabric -/

section
namespace Sys2Proof.Machine

/-! ### The way of a message (R417, R420, R425) -/

/-- The station of this package that a message to it comes from: its source's, or that of the bridge that it came over. -/
def gateOf (m : Msg) : Nat := if m.spkg = m.dpkg then m.sdie else bridgeOf m.dpkg m.addr

section
variable {s : State} {m : Msg}

theorem State.incoming_away (h : m.dpkg ≠ (s.die (bridgeOf m.dpkg m.addr)).pkg) (f : State → State) :
    s.incoming m f = s.emit (bridgeOf m.dpkg m.addr) m := by
  rw [State.incoming, if_pos (bne_iff_ne.2 h)]

theorem State.incoming_own (h : m.dpkg = (s.die (bridgeOf m.dpkg m.addr)).pkg) (f : State → State) :
    s.incoming m f = if s.ringOpen (gateOf m) m.ddie then (f s).passed (gateOf m) m else { s with station := s.station ++ [(gateOf m, m)] } :=
  if_neg fun hne => bne_iff_ne.1 hne h

theorem State.incoming_held (h : m.dpkg = (s.die (bridgeOf m.dpkg m.addr)).pkg) (ho : s.ringOpen (gateOf m) m.ddie = false) (f : State → State) :
    s.incoming m f = { s with station := s.station ++ [(gateOf m, m)] } := by
  rw [State.incoming_own h, ho]
  rfl

theorem State.incoming_here (h : m.dpkg = (s.die (bridgeOf m.dpkg m.addr)).pkg) (ho : s.ringOpen (gateOf m) m.ddie = true) (f : State → State) :
    s.incoming m f = (f s).passed (gateOf m) m := by
  rw [State.incoming_own h, if_pos ho]

end

/-- Every message of the fabric comes in by its way before its die serves it. -/
theorem exec_incoming {m : Msg} {i : Instr} (hi : i ∈ ([.rdreq m, .rdrsp m, .wrreq m, .wrack m, .tkpart m, .tkack m, .tkconf m, .aareq m, .aarsp m, .nack m,
    .notice m, .noteack m, .collrdy m, .tokreq m, .tokgrant m, .tokrecall m, .tokreturn m, .flitUnknownKind m] : List Instr)) (s : State) :
    ∃ f, exec i s = .next (s.incoming m f) := by
  simp only [List.mem_cons, List.not_mem_nil, or_false] at hi
  rcases hi with rfl | rfl | rfl | rfl | rfl | rfl | rfl | rfl | rfl | rfl | rfl | rfl | rfl | rfl | rfl | rfl | rfl | rfl
  all_goals exact ⟨_, rfl⟩

/-- A message that leaves over the rack, and one that stands at its station. -/
theorem State.emit_leaves {s : State} {d : Nat} {m : Msg} (h : m.dpkg ≠ (s.die d).pkg) (hl : s.mayLeave d m = true) :
    s.emit d m = { s.passed d m with fabric := s.fabric ++ [m] } := by
  rw [State.emit, if_pos (Bool.and_eq_true_iff.2 ⟨bne_iff_ne.2 h, hl⟩)]

theorem State.emit_stands {s : State} {d : Nat} {m : Msg} (h : m.dpkg = (s.die d).pkg ∨ s.mayLeave d m = false) :
    s.emit d m = { s with station := s.station ++ [(d, m)] } := by
  refine if_neg fun hc => ?_
  obtain ⟨hne, hl⟩ := Bool.and_eq_true_iff.1 hc
  rcases h with h | h
  · exact bne_iff_ne.1 hne h
  · exact Bool.false_ne_true (h.symm.trans hl)

/-- A flit takes the shorter way round the rings (R417). -/
theorem ringHops_length {a b : Nat} (ha : a < 8) (hb : b < 8) : (ringHops a b).length = min ((b + 8 - a) % 8) ((a + 8 - b) % 8) := by
  have hup : ringUp a b = true ↔ (b + 8 - a % 8) % 8 < 4 ∨ ((b + 8 - a % 8) % 8 = 4 ∧ a % 2 = 0) := by
    simp only [ringUp, Bool.or_eq_true, decide_eq_true_eq, Bool.and_eq_true]
  rw [ringHops]
  split
  · next h =>
    rw [hup] at h
    rw [List.length_map, List.length_range]
    omega
  · next h =>
    rw [hup] at h
    rw [List.length_map, List.length_range]
    omega

/-! ### Flits that pass a hop (R420) -/

/-- From `s` to `t`, nothing changes but counts of failures of hops. -/
structure HopsOnly (s t : State) : Prop where
  die : ∀ e, ∃ h, t.die e = { s.die e with hopErr := h }
  rest : t = { s with dies := t.dies }

theorem HopsOnly.refl (s : State) : HopsOnly s s := ⟨fun e => ⟨(s.die e).hopErr, rfl⟩, rfl⟩

theorem HopsOnly.modDie {s t : State} (h : HopsOnly s t) (d k : Nat) : HopsOnly s (t.modDie d (fun x => { x with hopErr := Tbl.del x.hopErr k })) where
  die e := by
    obtain ⟨l, hl⟩ := h.die e
    by_cases hd : e = d
    · subst hd
      rw [State.die_modDie_self, hl]
      exact ⟨_, rfl⟩
    · rw [State.die_modDie_ne _ _ hd, hl]
      exact ⟨l, rfl⟩
  rest := congrArg (fun u : State => u.modDie d (fun x => { x with hopErr := Tbl.del x.hopErr k })) h.rest

theorem HopsOnly.passed (s : State) (d : Nat) (m : Msg) : HopsOnly s (s.passed d m) := by
  refine List.foldlRecOn (motive := HopsOnly s) _ _ (.refl s) fun t h k _ => ?_
  split
  · exact h.modDie k.1 k.2
  · exact h

theorem HopsOnly.task {s t : State} (h : HopsOnly s t) (id : Nat) : t.task id = s.task id := by
  obtain ⟨l, hl⟩ := h.die (fld id 18 16)
  rw [State.task, hl, State.task]

/-! ### Answers (R422, R426) -/

section
variable {s : State} {m : Msg}

theorem State.onAnswer_some {k : Nat} {c : Copy} (h : s.copyOf m k = some c) (f : State → Copy → State) : s.onAnswer m k f = f (s.dropCopy m k) c := by
  rw [State.onAnswer, h]

/-- An update of a die that keeps its package number and no region changes whether it holds a token. -/
theorem State.holdsToken_dropCopy (d k pa : Nat) : (s.dropCopy m k).holdsToken d pa = s.holdsToken d pa := by
  have hpkg : ((s.dropCopy m k).die d).pkg = (s.die d).pkg := State.proj_die_modDie Die.pkg s m.ddie d (by intro; rfl)
  have hreg : (s.dropCopy m k).regions = s.regions := rfl
  unfold State.holdsToken State.region
  rw [hpkg, hreg]

theorem State.keepLine_got (pa data pois : Nat) : (s.keepLine pa data pois).got = s.got :=
  List.foldlRecOn (motive := fun t : State => t.got = s.got) _ _ rfl fun _ h _ _ => h

/-- A line that is not stale is brought to its requester, and kept in memory under a token alone (R426). -/
theorem State.bringLine_got {d data pois : Nat} {k : Copy} (h : k.stale = false) :
    (s.bringLine d k data pois).got = s.got ++ [⟨k.req, (k.m.dpkg * 2 ^ 44 + k.m.addr) / 256, data, pois⟩] ∧
    (s.holdsToken d (k.m.dpkg * 2 ^ 44 + k.m.addr) = false → (s.bringLine d k data pois).mem = s.mem ∧ (s.bringLine d k data pois).rlines = s.rlines) := by
  have hb : s.bringLine d k data pois =
      (let t := if s.holdsToken d (k.m.dpkg * 2 ^ 44 + k.m.addr) && !s.isLocal d (k.m.dpkg * 2 ^ 44 + k.m.addr)
        then s.keepLine (k.m.dpkg * 2 ^ 44 + k.m.addr) data pois else s
       { t with got := t.got ++ [⟨k.req, (k.m.dpkg * 2 ^ 44 + k.m.addr) / 256, data, pois⟩] }) := by
    unfold State.bringLine
    exact if_neg (Bool.eq_false_iff.1 h)
  rw [hb]
  refine ⟨?_, fun ht => ?_⟩
  · split
    · exact congrArg (· ++ _) (State.keepLine_got ..)
    · rfl
  · rw [ht]
    exact ⟨rfl, rfl⟩

theorem State.takeRead_load {c : Copy} (h : s.copyOf m 1 = some c) (hw : c.m.words.headD 0 ≠ 8) :
    s.takeRead m = (s.dropCopy m 1).giveLoad c.ref (farVal c (m.words.headD 0) (m.pois % 2 == 1)) := by
  rw [State.takeRead, State.onAnswer_some h, if_neg hw]

theorem State.takeRead_line {c : Copy} (h : s.copyOf m 1 = some c) (hw : c.m.words.headD 0 = 8) :
    s.takeRead m = (s.dropCopy m 1).bringLine m.ddie c (m.words.headD 0) m.pois := by
  rw [State.takeRead, State.onAnswer_some h, if_pos hw]

theorem State.serveRead_fits {n : Nat} (hn : n = 2 ^ (m.words.headD 0 % 256)) (h : n ≤ 256) :
    s.serveRead m = s.answer m 2 (s.poisBits (msgPa m) n) [s.readPAn (msgPa m) n, n] := by
  subst hn
  exact if_neg (Nat.not_lt.2 h)

/-- A part that its bank takes, refuses or finds in conflict (R319, R321, R323). -/
theorem State.servePart_taken {c : LCore} (h : (s.lcore (msgPart m s.fresh).lcore).arrive (msgPart m s.fresh) = (c, .taken)) :
    s.servePart m = (s.bump.setLcore (msgPart m s.fresh).lcore c).answer m 6 0 [] := by
  have h' : (s.bump.lcore (msgPart m s.fresh).lcore).arrive (msgPart m s.fresh) = (c, .taken) := h
  simp only [State.servePart, h']

theorem State.servePart_refused {c : LCore} (h : (s.lcore (msgPart m s.fresh).lcore).arrive (msgPart m s.fresh) = (c, .refused)) :
    s.servePart m = (s.bump.setLcore (msgPart m s.fresh).lcore c).refuse m := by
  have h' : (s.bump.lcore (msgPart m s.fresh).lcore).arrive (msgPart m s.fresh) = (c, .refused) := h
  simp only [State.servePart, h']

theorem State.servePart_conflict {c : LCore} {code : Nat}
    (h : (s.lcore (msgPart m s.fresh).lcore).arrive (msgPart m s.fresh) = (c, .conflict code)) :
    s.servePart m = (s.bump.setLcore (msgPart m s.fresh).lcore c).answer m 10 0 [code] := by
  have h' : (s.bump.lcore (msgPart m s.fresh).lcore).arrive (msgPart m s.fresh) = (c, .conflict code) := h
  simp only [State.servePart, h']

/-! ### Conflicts and atomics (R323, R334) -/

/-- A conflict reaches the task that sent the part (R323). -/
theorem State.takeConf_task {c : Copy} (h : s.copyOf m 5 = some c) (hr : c.req = 0) :
    ∃ l x, ((s.takeConf m).task c.task).async = l ++ [x] ∧ x.cause = 17 ∧ x.d0 = m.words.headD 0 := by
  rw [State.takeConf, State.onAnswer_some h, if_pos hr, State.conflict, State.task_modTask_self]
  exact ⟨_, _, rfl, rfl, rfl⟩

theorem State.serveAtom_done {l o old : Nat} {u : LCore} (hh : s.home (msgPa m) = .acc l o)
    (ha : (s.lcore l).atom o (fld (m.words.getD 2 0) 2 0) (if 2 ≤ fld (m.words.getD 2 0) 5 4 then 64 else 32) (fld (m.words.getD 2 0) 5 4 % 2 == 1)
      (m.words.headD 0) (m.words.getD 1 0) = some (old, u)) : s.serveAtom m = (s.setLcore l u).answer m 8 0 [old] := by
  generalize hf : State.serveAtom = f
  delta State.serveAtom at hf
  subst hf
  beta_reduce
  generalize s.home (msgPa m) = p at hh
  subst hh
  dsimp only
  rw [ha]

theorem State.serveAtom_poisoned {l o : Nat} (hh : s.home (msgPa m) = .acc l o)
    (ha : (s.lcore l).atom o (fld (m.words.getD 2 0) 2 0) (if 2 ≤ fld (m.words.getD 2 0) 5 4 then 64 else 32) (fld (m.words.getD 2 0) 5 4 % 2 == 1)
      (m.words.headD 0) (m.words.getD 1 0) = none) : s.serveAtom m = s.answer m 8 1 [0] := by
  generalize hf : State.serveAtom = f
  delta State.serveAtom at hf
  subst hf
  beta_reduce
  generalize s.home (msgPa m) = p at hh
  subst hh
  dsimp only
  rw [ha]

/-- An atomic's answer that no list awaits goes to the context that awaits it (R336). -/
theorem State.takeAtom_ctx {c : Copy} {p k : Nat} (h : s.copyOf m 7 = some c) (hs : ∀ u ∈ (s.die m.ddie).subs, u.2.busy = false)
    (hc : s.ctxAwaiting c.ref = some (p, k)) : s.takeAtom m = (s.dropCopy m 7).answerAtom p k (m.words.headD 0) (m.pois % 2 == 1) := by
  have hsubs : ((s.dropCopy m 7).die m.ddie).subs = (s.die m.ddie).subs := State.proj_die_modDie Die.subs s m.ddie m.ddie (by intro; rfl)
  have hnone : ((s.dropCopy m 7).die m.ddie).subs.find? (fun u => u.2.waitRef == some c.ref && u.2.busy) = none := by
    rw [hsubs]
    exact List.find?_eq_none.2 fun u hu => by simp [hs u hu]
  have hctx : (s.dropCopy m 7).ctxAwaiting c.ref = some (p, k) := hc
  simp only [State.takeAtom, State.onAnswer_some h, hnone, hctx]

/-! ### Refusals, notices and readiness (R422, R433, R439) -/

/-- NACK sends the copy again that it names; only the count of its tries changes (R422). -/
theorem State.resend_copy {c : Copy}
    (h : (s.die m.ddie).copies.find? (fun k => k.m.kind == m.words.headD 0 % 2 ^ 6 && k.m.tag == m.words.headD 0 / 2 ^ 6 % 4096) = some c) :
    ∃ f, s.resend m = (s.modDie m.ddie f).emit m.ddie c.m := by
  rw [State.resend]
  simp only [h]
  exact ⟨_, rfl⟩

/-- The notice that a message carries (R439). -/
def noticeOf (m : Msg) : Notice :=
  ⟨m.words.getD 1 0 % 2 ^ 32 * 2 ^ 16 + fld (m.words.headD 0) 15 0, fld (m.words.headD 0) 27 16, fld (m.words.headD 0) 35 28⟩

theorem State.serveNotice_taken {t : State} (h : s.takeNotice m.ddie (noticeOf m) = some t) : s.serveNotice m = t.answer m 12 0 [] := by
  rw [noticeOf] at h
  simp only [State.serveNotice, h]

theorem State.serveNotice_full (h : s.takeNotice m.ddie (noticeOf m) = none) : s.serveNotice m = s.refuse m := by
  rw [noticeOf] at h
  simp only [State.serveNotice, h]

theorem State.serveReady_room (h : (s.die m.ddie).collRdy.length < 256) : s.serveReady m =
    s.modDie m.ddie (fun x => { x with collRdy := x.collRdy ++ [(m.spkg * 2 ^ 44 + m.addr, fld (m.words.headD 0) 5 0)] }) :=
  if_neg (Nat.not_le.2 h)

theorem State.serveReady_full (h : 256 ≤ (s.die m.ddie).collRdy.length) : s.serveReady m = s.refuse m := if_pos h

/-! ### Tokens (R429 to R431) -/

theorem State.serveToken_free (h : (s.region (msgPa m)).st ≠ 3) : s.serveToken m = s.grantToken m := if_neg h

/-- The home's decision (R429): the token where the request names the region's owner. -/
theorem State.grantToken_eq : s.grantToken m =
    if (s.region (msgPa m)).owner = fld (m.words.headD 0) 31 0 ∧ (s.region (msgPa m)).asid = fld (m.words.headD 0) 43 32
    then (s.setRegion (msgPa m) { s.region (msgPa m) with st := 3, tokpkg := m.spkg, tokdie := m.sdie }).answer m 15 0 [m.words.headD 0]
    else s.answer m 15 0 [0] :=
  if_congr (by rw [Bool.and_eq_true, decide_eq_true_eq, decide_eq_true_eq]) rfl rfl

/-- With no request queued, a token that comes back leaves its region OWNED (R430). -/
theorem State.tokenBack_owned (h : (s.region (msgPa m)).st = 3) (hq : (s.die m.ddie).tokQ = []) :
    s.tokenBack m = s.setRegion (msgPa m) { s.region (msgPa m) with st := 0, tokpkg := 0, tokdie := 0 } := by
  have hdie (pa : Nat) (r : RegEnt) : (s.setRegion pa r).die m.ddie = s.die m.ddie := rfl
  rw [State.tokenBack]
  simp only [h, if_true, hdie, hq, List.length_nil]
  rfl

/-- A holder gives its token up, at once where no access under it is unperformed (R429, R431). -/
theorem State.giveToken_held (h : s.holdsToken m.ddie (recallPa m) = true) :
    s.giveToken m = (let v := (s.setRegion (recallPa m) { s.region (recallPa m) with tokpkg := m.spkg, tokdie := m.sdie }).dropLines (recallPa m) (2 ^ 21)
      if (s.die m.ddie).tokenUsed (recallPa m) = true then v.modDie m.ddie (fun x => { x with recalls := x.recalls ++ [m] })
      else v.sendTo m.ddie 17 m.spkg m.sdie m.addr 0 m.words {}) := by
  have hg : s.giveToken m = (let v := (s.setRegion (recallPa m) { s.region (recallPa m) with tokpkg := m.spkg, tokdie := m.sdie }).dropLines (recallPa m) (2 ^ 21)
      if v.mayReturn m then v.returnToken m else v.modDie m.ddie (fun x => { x with recalls := x.recalls ++ [m] })) := if_pos h
  rw [hg]
  cases hu : (s.die m.ddie).tokenUsed (recallPa m) with
  | true => exact if_neg fun h => Bool.false_ne_true ((congrArg (!·) hu).symm.trans h)
  | false => exact if_pos (congrArg (!·) hu)

/-- A granted token makes the region REMOTE; no context waits for it (R429). -/
theorem State.takeToken_granted {c : Copy} (h : s.copyOf m 14 = some c) (hg : m.words.headD 0 ≠ 0)
    (hc : ((s.dropCopy m 14).setRegion (c.m.dpkg * 2 ^ 44 + c.m.addr)
      ⟨fld (c.m.words.headD 0) 31 0, fld (c.m.words.headD 0) 43 32, 3, 0, c.m.spkg, c.m.sdie⟩).ctxHolding (fld (c.m.words.headD 0) 31 0) = none) :
    s.takeToken m = (s.dropCopy m 14).setRegion (c.m.dpkg * 2 ^ 44 + c.m.addr)
      ⟨fld (c.m.words.headD 0) 31 0, fld (c.m.words.headD 0) 43 32, 3, 0, c.m.spkg, c.m.sdie⟩ := by
  rw [State.takeToken, State.onAnswer_some h]
  simp only [bne_iff_ne.2 hg, if_true, hc]

/-! ### Links (R420, R469) -/

/-- A die's record with one more event for the host; the last 64 are kept (R469). -/
def Die.withHevt (x : Die) (e : Nat × Nat × Nat) : Die := { x with hevt := (x.hevt ++ [e]).drop ((x.hevt ++ [e]).length - 64) }

theorem State.die_hostEvent (s : State) (d kind subj e : Nat) :
    (s.hostEvent d kind subj).die e = (s.modDie d (fun x => x.withHevt (kind, subj, (s.elw d).gtime))).die e := rfl

/-- The records of a link event at die `k`. -/
def State.linkEvent (s : State) (k d h : Nat) : State := ((s.fwEvent k 4 h).hostEvent k 2 d).blackBox k 4 0 h

theorem State.hopDown_linkEvent (s : State) (k d h e : Nat) : ((s.linkEvent k d h).die e).hopDown = (s.die e).hopDown := by
  rw [State.linkEvent, State.blackBox, State.proj_die_modDie Die.hopDown _ _ _ (by intro; rfl), State.die_hostEvent,
    State.proj_die_modDie Die.hopDown _ _ _ (by intro; rfl), State.fwEvent, State.proj_die_modDie Die.hopDown _ _ _ (by intro; rfl)]

/-- A hop with 32 consecutive failures goes down (R420). -/
theorem State.hopFail_down {d h : Nat} (hc : 32 ≤ Tbl.get 0 (s.die d).hopErr h) (hd : NatSet.mem (s.die d).hopDown h = false) :
    NatSet.mem ((s.hopFail d h).die d).hopDown h = true := by
  have hif : s.hopFail d h =
      (let t := (s.modDie d (fun x => { x with hopDown := NatSet.insert x.hopDown h, dbg := { x.dbg with unc := countUp x.dbg.unc (errKey 7 h) } })).linkEvent d d h
       match hopEnd d h with
       | some k => t.linkEvent k d h
       | none => t) := if_neg (by simp [Nat.not_lt.2 hc, hd])
  have hset (f : Die → Die) : (((s.modDie d f).linkEvent d d h).die d).hopDown = (f (s.die d)).hopDown := by
    rw [State.hopDown_linkEvent, State.die_modDie_self]
  rw [hif]
  dsimp only
  split
  · rw [State.hopDown_linkEvent, hset]
    simp
  · rw [hset]
    simp

end

/-- A message that its die serves at once: what its arm makes of it, and then flits that have passed their hops. -/
theorem next_incoming {s : State} {m : Msg} {f : State → State} {t : State} (hd : m.dpkg = (s.die (bridgeOf m.dpkg m.addr)).pkg)
    (ho : s.ringOpen (gateOf m) m.ddie = true) (hf : f s = t) :
    (.next (s.incoming m f) : Host.Outcome State Fault Refusal) = .next (t.passed (gateOf m) m) := by
  rw [State.incoming_here hd ho, hf]

/-- Settles O55: a message comes in by `State.incoming` (`exec_incoming`), and each kind is served by the lemma above that says what its
service is; the flits that pass leave all but the counts of failures alone (`HopsOnly.passed`). -/
theorem fabricMessages : Obligations.FabricMessages := by
  refine ⟨fun s m i => ?way, fun s d m => ⟨State.emit_leaves, State.emit_stands⟩, fun a b ha hb => ringHops_length ha hb, fun s m => ?serve,
    fun s d h => ⟨rfl, fun hc hd => ⟨_, rfl, State.hopFail_down hc hd⟩⟩⟩
  case way =>
    intro b g hi
    obtain ⟨f, hf⟩ := exec_incoming hi s
    rw [hf]
    exact ⟨fun h => congrArg Host.Outcome.next (State.incoming_away h f), fun h ho => congrArg Host.Outcome.next (State.incoming_held h ho f)⟩
  case serve =>
    intro pa g again back hd ho
    have here {f : State → State} {t : State} (hf : f s = t) : (.next (s.incoming m f) : Host.Outcome State Fault Refusal) = .next (t.passed g m) :=
      next_incoming hd ho hf
    have hops (t : State) : HopsOnly t (t.passed g m) := .passed t g m
    refine ⟨fun n hn hle => here (State.serveRead_fits hn hle), here rfl, here rfl, here rfl, here rfl, fun c hc hw => here (State.takeRead_load hc hw),
      fun c hc hw hst => ?line, fun c f hf => ⟨?taken, ?refused, ?conflict⟩, fun c hc hr => ?tkconf, fun l o hh => ⟨fun old u ha => here (State.serveAtom_done hh ha),
        fun ha => here (State.serveAtom_poisoned hh ha)⟩, fun c p k hc hs hx => here (State.takeAtom_ctx hc hs hx), fun c hc => ?nack,
      fun t ht => here (State.serveNotice_taken ht), fun ht => here (State.serveNotice_full ht), fun hl => ?ready, fun hl => here (State.serveReady_full hl),
      fun hst => ?tokreq, fun hst hq => here (State.tokenBack_owned hst hq), fun ra hra hh => ?tokrecall, fun c hc hg => ?tokgrant, here rfl⟩
    case line =>
      obtain ⟨hgot, hkeep⟩ := (s.dropCopy m 1).bringLine_got (d := m.ddie) (data := m.words.headD 0) (pois := m.pois) hst
      refine ⟨_, here (State.takeRead_line hc hw), ?_, fun ht => ?_⟩
      · exact (congrArg State.got (hops _).rest).trans hgot
      · obtain ⟨hmem, hlines⟩ := hkeep ((State.holdsToken_dropCopy ..).trans ht)
        exact ⟨(congrArg State.mem (hops _).rest).trans hmem, (congrArg State.rlines (hops _).rest).trans hlines⟩
    case taken =>
      rintro rfl
      exact here (State.servePart_taken hf)
    case refused =>
      rintro rfl
      exact here (State.servePart_refused hf)
    case conflict =>
      rintro k rfl
      exact here (State.servePart_conflict hf)
    case tkconf =>
      obtain ⟨l, x, hasync, hx⟩ := State.takeConf_task hc hr
      refine ⟨_, here rfl, l, x, ?_, hx⟩
      rw [(hops _).task]
      exact hasync
    case nack =>
      obtain ⟨f, hf⟩ := State.resend_copy hc
      exact ⟨_, here hf, rfl, rfl, rfl, rfl⟩
    case ready =>
      refine ⟨_, here (State.serveReady_room hl), ?_⟩
      obtain ⟨l, hh⟩ := (hops _).die m.ddie
      rw [hh, State.die_modDie_self]
    case tokreq =>
      intro w r
      exact here ((State.serveToken_free hst).trans State.grantToken_eq)
    case tokrecall =>
      subst hra
      intro v
      have hgive := State.giveToken_held hh
      exact ⟨fun hu => here (hgive.trans (if_neg (Bool.eq_false_iff.1 hu))), fun hu => here (hgive.trans (if_pos hu))⟩
    case tokgrant =>
      intro w v hx
      exact here (State.takeToken_granted hc hg hx)

end Sys2Proof.Machine
end

/-! ## The clock groups -/

section
namespace Sys2Proof.Machine

/-! ### A die's view -/

@[simp] theorem State.elw_modElw (s : State) (d : Nat) (f : Elw → Elw) : (s.modElw d f).elw d = f (s.elw d) := by
  rw [State.elw, State.modElw, State.die_modDie_self, State.elw]

@[simp] theorem State.elwId_modElw (s : State) (d e : Nat) (f : Elw → Elw) : (s.modElw d f).elwId e = s.elwId e := by
  rw [State.elwId, State.modElw, State.proj_die_modDie Die.pkg _ _ _ (by intro; rfl), State.elwId]

/-- Two updates that make the same of a die's view. -/
theorem State.modElw_congr {s : State} {d : Nat} {f g : Elw → Elw} (h : f (s.elw d) = g (s.elw d)) : s.modElw d f = s.modElw d g := by
  have hdie : ({ s.die d with elw := f (s.die d).elw } : Die) = { s.die d with elw := g (s.die d).elw } := congrArg (fun e => { s.die d with elw := e }) h
  exact congrArg (s.setDie d) hdie

/-- An update of a die's record that its view is no part of. -/
theorem State.elw_modDie (s : State) (d k : Nat) {f : Die → Die} (hf : ∀ x, (f x).elw = x.elw) : (s.modDie d f).elw k = s.elw k :=
  State.proj_die_modDie Die.elw s d k hf

/-- A queue of events is all that an event changes of a die's view (R452). -/
theorem State.elw_elwEvent (s : State) (d kind subj : Nat) : ∃ l, (s.elwEvent d kind subj).elw d = { s.elw d with events := l } := by
  rw [State.elwEvent, State.blackBox, State.elw_modDie _ _ _ (by intro; rfl), State.fwEvent, State.elw_modDie _ _ _ (by intro; rfl), State.elw_modElw]
  exact ⟨_, rfl⟩

/-- A change of one member leaves the rest of the view alone. -/
theorem Elw.modMember_eq (e : Elw) (n : Nat) (f : Member → Member) : ∃ l v, e.modMember n f = { e with members := l, joinView := v } := by
  unfold Elw.modMember
  split
  · exact ⟨_, e.joinView, rfl⟩
  · split
    · exact ⟨e.members, _, rfl⟩
    · exact ⟨e.members, e.joinView, rfl⟩

@[simp] theorem Elw.members_lone (e : Elw) : e.lone.members = e.members := by
  unfold Elw.lone
  split <;> rfl

/-- A key that is listed is found. -/
theorem Tbl.find?_of_has {α : Type} {l : Tbl α} {k : Nat} (h : Tbl.has l k = true) : ∃ t, l.find? (fun t => t.1 == k) = some t := by
  induction l with
  | nil => exact absurd h Bool.false_ne_true
  | cons a l ih =>
    by_cases hk : (a.1 == k) = true
    · exact ⟨a, List.find?_cons_of_pos (p := fun t : Nat × α => t.1 == k) hk⟩
    · rw [Tbl.has, Bool.or_eq_true] at h
      rw [List.find?_cons_of_neg (p := fun t : Nat × α => t.1 == k) hk]
      exact ih (h.resolve_left hk)

/-! ### Messages that a die sends (R451) -/

theorem HopsOnly.elw {s t : State} (h : HopsOnly s t) (k : Nat) : t.elw k = s.elw k := by
  obtain ⟨l, hl⟩ := h.die k
  rw [State.elw, hl, State.elw]

theorem State.elw_emit (s : State) (d : Nat) (m : Msg) (k : Nat) : (s.emit d m).elw k = s.elw k := by
  unfold State.emit
  split
  · exact (HopsOnly.passed s d m).elw k
  · rfl

/-- A message that leaves a die, or that arrives at once, changes no view. -/
theorem State.elw_elwSend (s : State) (d n : Nat) (m : ElwMsg) (k : Nat) : (s.elwSend d n m).elw k = s.elw k := by
  unfold State.elwSend
  split
  · rfl
  · rw [State.sendTo, State.elw_emit, State.elw_modDie _ _ _ (by intro; rfl)]

theorem State.elw_foldl {α : Type} {f : State → α → State} {k : Nat} (hf : ∀ s a, (f s a).elw k = s.elw k) (l : List α) (s : State) :
    (l.foldl f s).elw k = s.elw k :=
  List.foldlRecOn (motive := fun t : State => t.elw k = s.elw k) l f rfl fun t h a _ => (hf t a).trans h

theorem State.elw_elwAll (s : State) (d : Nat) (m : ElwMsg) (k : Nat) : (s.elwAll d m).elw k = s.elw k := by
  rw [State.elwAll, State.elw_foldl (fun t n => t.elw_elwSend d n _ k), State.elw_foldl (fun t n => t.elw_elwSend d n _ k)]

/-! ### Messages that a die receives (R451) -/

section
variable {s : State} {d : Nat} {m : ElwMsg}

/-- A message of a die's own group is handled. -/
theorem State.elwTake_mine (hh : (s.elw d).halted = false) (he : m.egid = (s.elw d).egid) (f : State → State) : s.elwTake d m f = f s := by
  have hmine : s.elwMine d m = true := by simp [State.elwMine, he]
  rw [State.elwTake, hh, hmine]
  rfl

/-- One of a foreign group is dropped and counted. -/
theorem State.elwTake_foreign (hh : (s.elw d).halted = false) (he : m.egid ≠ (s.elw d).egid) (hj : (s.elw d).joinTick = none)
    (hc : (s.elw d).hosting = none) (f : State → State) : s.elwTake d m f = s.protoError d 13 m.src := by
  have hmine : s.elwMine d m = false := by simp [State.elwMine, he, hj, hc]
  rw [State.elwTake, hh, hmine]
  rfl

/-- A sequence number that is kept changes no raise. -/
theorem State.raises_seen : ((s.seen d m).elw d).raises = (s.elw d).raises := by
  obtain ⟨l, v, h⟩ := (s.elw d).modMember_eq m.src (fun t => { t with seq := some m.seq })
  rw [State.seen, State.elw_modElw, h]

end


/-! ### Sensors (R478, R479) -/

/-- The newest of a queue that is cut to 64 stays (R469). -/
theorem Die.mem_withHevt (x : Die) (e : Nat × Nat × Nat) : e ∈ (x.withHevt e).hevt := by
  rw [Die.withHevt, List.length_append, List.length_singleton, List.drop_append_of_le_length (by omega)]
  exact List.mem_append_right _ (List.mem_singleton_self e)

section
variable {s : State} {d : Nat}

theorem State.hevt_hostEvent_blackBox (kind subj k n w : Nat) :
    (((s.hostEvent d kind subj).blackBox d k n w).die d).hevt = ((s.die d).withHevt (kind, subj, (s.elw d).gtime)).hevt := by
  rw [State.blackBox, State.proj_die_modDie Die.hevt _ _ _ (by intro; rfl), State.die_hostEvent, State.die_modDie_self]

theorem State.elw_hostEvent_blackBox (kind subj k n w : Nat) : ((s.hostEvent d kind subj).blackBox d k n w).elw d = s.elw d := by
  rw [State.blackBox, State.elw_modDie _ _ _ (by intro; rfl), State.elw, State.die_hostEvent, State.die_modDie_self]
  rfl

/-- A die at 115 °C halts, and the host gets an event of kind 3. -/
theorem State.thermalHalt_halts (hh : (s.elw d).halted = false) : ((s.thermalHalt d).elw d).halted = true ∧ 3 ∈ ((s.thermalHalt d).die d).hevt.map (fun h => h.1) := by
  rw [State.thermalHalt, hh]
  constructor
  · refine (congrArg Elw.halted (State.elw_hostEvent_blackBox 3 _ _ _ _)).trans ?_
    rw [State.elw_modElw]
  · refine List.mem_map.mpr ⟨_, (State.hevt_hostEvent_blackBox 3 _ _ _ _).symm ▸ Die.mem_withHevt _ _, rfl⟩

theorem execThermalSample_below (hh : (s.elw d).halted = false) {temps : List Int} (ht : ∀ t ∈ temps, t < 16 * 115) (f : Int) :
    execThermalSample d temps f s = .next ((s.modElw d (fun e => { e with thermal := thermalLimit s.cfg.tthr f })).limitChanged d) := by
  have hany : temps.any (fun t => decide (16 * 115 ≤ t)) = false := by
    simpa using ht
  rw [execThermalSample, hh, hany]
  rfl

theorem execThermalSample_above (hh : (s.elw d).halted = false) {temps : List Int} (ht : ∃ t ∈ temps, 16 * 115 ≤ t) (f : Int) :
    execThermalSample d temps f s = .next (s.thermalHalt d) := by
  have hany : temps.any (fun t => decide (16 * 115 ≤ t)) = true := by
    simpa using ht
  rw [execThermalSample, hh, hany]
  rfl

theorem execPowerCapReached_floor (hf : ∀ k, k < 8 → (s.elw k).powerLim = 300) :
    execPowerCapReached d s = .next ((s.hostEvent d 4 d).blackBox d 10 0 (eventWord 4 d (s.elw d).gtime)) := by
  have hall : dieNums.all (fun k => (s.elw k).powerLim == 300) = true :=
    List.all_eq_true.mpr fun k hk => beq_iff_eq.mpr (hf k (List.mem_range.mp hk))
  rw [execPowerCapReached, hall]
  rfl

/-! ### Timers (R445, R447 to R449) -/

theorem execHbSend_tick (hh : (s.elw d).halted = false) (hg : (s.elw d).gtime % 100 = 0) : execHbSend d s =
    .next ((s.elwMembers d).foldl (fun t n => t.elwSend d n (s.elwMsg d 0 (s.elw d).limit (s.elw d).gtime (s.elwId d) 0 false)) s) := by
  simp only [execHbSend, hh, hg]
  rfl

/-- The peers that a test of silence finds. -/
def State.lostPeers (s : State) (d : Nat) : List Nat :=
  ((s.elw d).members.filter (fun m => m.1 != s.elwId d && !m.2.silent && !m.2.joining && m.2.last + 250 < (s.elw d).gtime)).map (fun m => m.1)

theorem execSilenceTest_none (hh : (s.elw d).halted = false) (hg : (s.elw d).gtime % 100 = 50) (hl : s.lostPeers d = []) :
    execSilenceTest d s = .next s := by
  unfold State.lostPeers at hl
  simp only [execSilenceTest, hh, hg, hl]
  rfl

/-- No peer is lost that is the die itself, is silent, joins, or has been heard within 250 ticks. -/
theorem State.lostPeers_eq_nil
    (h : ∀ m ∈ (s.elw d).members, m.1 = s.elwId d ∨ m.2.silent = true ∨ m.2.joining = true ∨ (s.elw d).gtime ≤ m.2.last + 250) :
    s.lostPeers d = [] := by
  refine List.map_eq_nil_iff.mpr (List.filter_eq_nil_iff.mpr fun m hm hlost => ?_)
  simp only [Bool.and_eq_true, bne_iff_ne, Bool.not_eq_true', decide_eq_true_eq] at hlost
  obtain ⟨⟨⟨hne, hs⟩, hj⟩, hlast⟩ := hlost
  rcases h m hm with h | h | h | h
  · exact hne h
  · exact absurd h (by simp [hs])
  · exact absurd h (by simp [hj])
  · omega

theorem execSilenceTest_one (hh : (s.elw d).halted = false) (hg : (s.elw d).gtime % 100 = 50) {n : Nat} (hl : s.lostPeers d = [n]) :
    execSilenceTest d s = .next ((s.modElw d (fun e =>
      { e.modMember n (fun m => { m with silent := true }) with
        ceiling := ceilOf 700 (e.modMember n (fun m => { m with silent := true })).members, lastTick := e.gtime })).elwEvent d 4 n) := by
  unfold State.lostPeers at hl
  obtain ⟨l, v, hm⟩ := (s.elw d).modMember_eq n (fun m => { m with silent := true })
  have hview := State.modElw_congr (s := s) (d := d)
    (f := fun e => { e.modMember n (fun m => { m with silent := true }) with
      ceiling := ceilOf 700 (e.modMember n (fun m => { m with silent := true })).members, lastTick := e.gtime })
    (g := fun e => { e.modMember n (fun m => { m with silent := true }) with
      ceiling := ceilOf 700 (e.modMember n (fun m => { m with silent := true })).members
      lastTick := (e.modMember n (fun m => { m with silent := true })).gtime }) (by simp only [hm])
  rw [hview]
  simp only [execSilenceTest, hh, hg, hl]
  rfl

theorem execEvictTimeout_not_ref (hr : s.elwRef d ≠ some (s.elwId d)) : execEvictTimeout d s = .next s := by
  have hne : (s.elwRef d != some (s.elwId d)) = true := bne_iff_ne.mpr hr
  simp only [execEvictTimeout, hne, Bool.or_true, if_true]

theorem execEvictTimeout_one (hh : (s.elw d).halted = false) (hr : s.elwRef d = some (s.elwId d)) {n : Nat}
    (hl : ((s.elw d).members.filter (fun m => m.2.silent && m.1 != s.elwId d && !m.2.removal && m.2.last + 10000 ≤ (s.elw d).gtime)).map (fun m => m.1) = [n]) :
    execEvictTimeout d s = .next ((((s.elwSeq d).elwAll d ((s.elwSeq d).elwMsg d 10 0 (((s.elwSeq d).elw d).gtime + 50) n 0 false))).schedule
      d n (((s.elwSeq d).elw d).gtime + 50) 0 true true) := by
  have hne : (s.elwRef d != some (s.elwId d)) = false := by rw [hr]; exact bne_self_eq_false' _
  simp only [execEvictTimeout, hh, hne, hl]
  rfl

theorem execRaiseDeadline_one (hh : (s.elw d).halted = false) {n : Nat} {p : Proposal} (hp : (s.elw d).props = [(n, p)]) (ht : p.tick ≤ (s.elw d).gtime + 50) :
    execRaiseDeadline d s = .next (s.settleRaise d n p) := by
  have hfilter : (s.elw d).props.filter (fun p => decide (p.2.tick ≤ (s.elw d).gtime + 50)) = [(n, p)] := by
    rw [hp, List.filter_cons_of_pos (by simpa using ht), List.filter_nil]
  rw [execRaiseDeadline, hh, hfilter]
  rfl

theorem execRetryAfterCancel_one (hh : (s.elw d).halted = false) {n t mhz : Nat} (hr : (s.elw d).retry = [(n, t, mhz)]) (ht : t ≤ (s.elw d).gtime)
    (hn : n ≠ s.elwId d) (hm : Tbl.has (s.elw d).members n = true) :
    execRetryAfterCancel d s = .next ((s.modElw d (fun e => { e with retry := Tbl.del e.retry n })).propose d n mhz) := by
  have hfilter : (s.elw d).retry.filter (fun r => decide (r.2.1 ≤ (s.elw d).gtime)) = [(n, t, mhz)] := by
    rw [hr, List.filter_cons_of_pos (by simpa using ht), List.filter_nil]
  rw [execRetryAfterCancel, State.retryRaises, hh, hfilter, if_neg Bool.false_ne_true, List.foldl_cons, List.foldl_nil]
  simp only [State.elwId_modElw, State.elw_modElw, if_neg hn, if_pos hm]

/-- A join that is given up: the view is no joiner's any more, and ERR is set (R449). -/
theorem State.elw_abortJoin : ((s.abortJoin d).elw d).joinTick = none ∧ ((s.abortJoin d).elw d).err = true ∧ ((s.abortJoin d).elw d).go = false := by
  unfold State.abortJoin
  dsimp only
  generalize List.foldl _ s _ = t
  obtain ⟨l, hl⟩ := (t.modElw d (fun e => { e with joinTick := none, joinView := [], joinN := 0, err := true, go := false })).elw_elwEvent d 3 (t.elwId d)
  rw [hl, State.elw_modElw]
  exact ⟨rfl, rfl, rfl⟩

theorem execJoinDeadline_unanswered (hh : (s.elw d).halted = false) {t : Nat} (hj : (s.elw d).joinTick = some t) (ht : t ≤ (s.elw d).gtime + 50)
    (hn : (s.elw d).joinN = 0) : execJoinDeadline d s = .next (s.abortJoin d) := by
  simp only [execJoinDeadline, hj, hh, hn, ht]
  rfl

end

/-! ### Messages of a die's own group (R444, R445, R447 to R451) -/

section
variable {s : State} {d : Nat} {m : ElwMsg} (hh : (s.elw d).halted = false) (he : m.egid = (s.elw d).egid)
include hh he

theorem execHb_live (hr : s.elwRef d ≠ some m.src) {x : Member} (hu : ∀ t ∈ (s.elw d).members, t.1 = m.src → t = (m.src, x))
    (hm : (m.src, x) ∈ (s.elw d).members) (hs : x.silent = false) :
    execHb d m s = .next (s.modElw d (fun e => e.modMember m.src (fun x => { x with last := Nat.max x.last m.tick }))) := by
  have hfind : (s.elw d).members.find? (fun t => t.1 == m.src) = some (m.src, x) := by
    cases hf : (s.elw d).members.find? (fun t => t.1 == m.src) with
    | none => exact absurd (List.find?_eq_none.mp hf _ hm) (by simp)
    | some t => rw [hu t (List.mem_of_find?_eq_some hf) (by simpa using List.find?_some hf)]
  rw [execHb, State.elwTake_mine hh he]
  simp only [hfind, decide_eq_false hr, hs]
  rfl

theorem execLower_newer (hn : s.newer d m = true) : execLower d m s = .next
    (((s.seen d m).modElw d (fun e => { e with raises := Tbl.del e.raises m.src, props := Tbl.del e.props m.src, retry := Tbl.del e.retry m.src })).schedule
      d m.src m.tick m.mhz false false) := by
  rw [execLower, State.elwTake_mine hh he, if_pos hn]

theorem execLower_old (hn : s.newer d m = false) : execLower d m s = .next s := by
  rw [execLower, State.elwTake_mine hh he, hn, if_neg Bool.false_ne_true]

theorem execLeave_newer (hn : s.newer d m = true) : execLeave d m s = .next ((s.seen d m).schedule d m.src m.tick 0 true false) := by
  rw [execLeave, State.elwTake_mine hh he, if_pos hn]

theorem execLeave_old (hn : s.newer d m = false) : execLeave d m s = .next s := by
  rw [execLeave, State.elwTake_mine hh he, hn, if_neg Bool.false_ne_true]

theorem execCommit_old (hn : s.newer d m = false) : execCommit d m s = .next s := by
  rw [execCommit, State.elwTake_mine hh he, hn, if_neg Bool.false_ne_true]

theorem execCommit_newer (hn : s.newer d m = true) (hr : Tbl.get (0, 0, 0) (s.elw d).raises m.subj = (m.src, m.tick, m.mhz)) :
    execCommit d m s =
      .next (((s.seen d m).modElw d (fun e => { e with raises := Tbl.del e.raises m.subj })).schedule d m.subj m.tick m.mhz false false) := by
  rw [execCommit, State.elwTake_mine hh he, if_pos hn]
  dsimp only
  rw [State.raises_seen, if_pos hr]

/-- A COMMIT of a raise that a LOWER has cancelled does nothing but keep its number. -/
theorem execCommit_cancelled (hn : s.newer d m = true) (hr : Tbl.get (0, 0, 0) (s.elw d).raises m.subj ≠ (m.src, m.tick, m.mhz)) :
    execCommit d m s = .next (s.seen d m) := by
  rw [execCommit, State.elwTake_mine hh he, if_pos hn]
  dsimp only
  rw [State.raises_seen, if_neg hr]

theorem execEvict_newer (hn : s.newer d m = true) (hm : m.subj ≠ s.elwId d) : execEvict d m s = .next ((s.seen d m).schedule d m.subj m.tick 0 true true) := by
  rw [execEvict, State.elwTake_mine hh he, if_neg hm, if_pos hn]

theorem execEvict_me (hm : m.subj = s.elwId d) : execEvict d m s = .next ((s.elwAlone d (s.elw d).gtime).elwEvent d 2 m.subj) := by
  rw [execEvict, State.elwTake_mine hh he, if_pos hm]

theorem execRaise_mine : execRaise d m s =
    let v := s.modElw d (fun e => { e with raises := Tbl.put e.raises m.subj (m.src, m.tick, m.mhz) })
    .next (v.elwSend d m.src (v.elwMsg d 3 m.mhz m.tick m.subj 0 false)) := by
  rw [execRaise, State.elwTake_mine hh he]

theorem execAck_mine {p : Proposal} (hp : (s.elw d).props.find? (fun q => q.1 == m.subj) = some (m.subj, p)) (ht : p.tick = m.tick) :
    execAck d m s = .next (s.modElw d (fun e => { e with props := Tbl.put e.props m.subj { p with acks := NatSet.insert p.acks m.src } })) := by
  rw [execAck, State.elwTake_mine hh he]
  refine congrArg Host.Outcome.next (State.modElw_congr ?_)
  simp only [hp, ht, if_true]

theorem execCancel_mine : execCancel d m s = .next (s.modElw d (fun e => { e with raises := Tbl.del e.raises m.subj })) := by
  rw [execCancel, State.elwTake_mine hh he]

omit he in
theorem execJoin_busy (hj : (s.elw d).joinTick.isSome = true) : execJoin d m s = .next (s.joinAnswer d m.subj 0 true m.egid) := by
  simp only [execJoin, hh, hj, Bool.true_or, if_true, if_neg Bool.false_ne_true]

theorem execJoin_forwarded (hj : (s.elw d).joinTick = none) (hm : ∀ t ∈ (s.elw d).members, t.2.joining = false) (hs : m.src ≠ m.subj) :
    execJoin d m s = .next ((s.addJoiner d m.subj m.tick m.mhz).joinAnswer d m.subj 0 false m.egid) := by
  have hany : (s.elw d).members.any (fun t => t.2.joining && t.1 != m.subj) = false :=
    List.any_eq_false.mpr fun t ht => by rw [hm t ht]; exact Bool.false_ne_true
  simp only [execJoin, hh, hj, hany, if_neg hs, if_pos he]
  rfl

/-- The contact's answer sets a joiner's time, its tick and the number of answers (R449). -/
theorem execJoinack_contact (hj : (s.elw d).joinTick.isSome = true) (hb : m.busy = false) (hn : m.n ≠ 0) :
    ∃ u, execJoinack d m s = .next u ∧ (u.elw d).joinN = m.n ∧ (u.elw d).gtime = m.gtime ∧ (u.elw d).joinTick = some (m.gtime + 250) := by
  have hnone : (s.elw d).joinTick.isNone = false := by
    rw [← Option.not_isSome, hj]
    rfl
  rw [execJoinack, State.elwTake_mine hh he, hnone, hb, if_neg Bool.false_ne_true, if_neg Bool.false_ne_true]
  refine ⟨_, rfl, ?_⟩
  simp only [if_neg hn]
  split
  · rw [State.elw_modElw]
    exact ⟨rfl, rfl, rfl⟩
  · rw [State.elw_elwSend, State.elw_modElw]
    exact ⟨rfl, rfl, rfl⟩

omit he in
theorem execElwBadOp_drops : execElwBadOp d m s = .next (s.protoError d 13 m.src) := by
  rw [execElwBadOp, hh, if_neg Bool.false_ne_true]

/-- A JOINABORT takes the joiner out of the view (R449). -/
theorem execJoinabort_removes (hm : m.subj ≠ s.elwId d) (hs : Tbl.has (s.elw d).members m.subj = true) :
    ∃ u, execJoinabort d m s = .next u ∧ (u.elw d).members = Tbl.del (s.elw d).members m.subj := by
  obtain ⟨t, ht⟩ := Tbl.find?_of_has hs
  rw [execJoinabort, State.elwTake_mine hh he]
  refine ⟨_, rfl, ?_⟩
  simp only [ht, if_neg hm]
  generalize hu : s.modElw d _ = u
  have hview : (u.elw d).members = Tbl.del (s.elw d).members m.subj := by
    rw [← hu, State.elw_modElw]
    split
    · rfl
    · rw [Elw.members_lone]
  split
  · rw [State.elw_foldl (fun v k => v.elw_elwSend d k _ d), hview]
  · exact hview

end

/-! ### Commands of the firmware (R449, R450, R452) -/

section
variable {s : State} {d : Nat}

theorem execElwctlJoin_alone (hg : (s.elw d).go = false) (hj : (s.elw d).joinEgid ≠ 0) (he : (s.elw d).egid = 0) :
    ∃ u, execElwctlJoin d s = .next u ∧ (u.elw d).go = true ∧ (u.elw d).joinTick = some ((s.elw d).gtime + 250) ∧ (u.elw d).joinView = [] := by
  refine ⟨_, rfl, ?_⟩
  rw [State.ctlJoin]
  simp only [hg, he, hj, decide_false, Bool.false_or, bne_self_eq_false, if_neg Bool.false_ne_true]
  split
  · rw [State.elw_modElw, State.elwSeq, State.elw_modElw]
    exact ⟨rfl, rfl, rfl⟩
  · rw [State.elw_elwSend, State.elw_modElw, State.elwSeq, State.elw_modElw]
    exact ⟨rfl, rfl, rfl⟩

theorem execElwctlLeave_member (hg : (s.elw d).go = false) (he : (s.elw d).egid ≠ 0) :
    ∃ u, execElwctlLeave d s = .next u ∧ (u.elw d).go = true ∧ (u.elw d).leaveAt = some ((s.elw d).gtime + 50) := by
  refine ⟨_, rfl, ?_⟩
  rw [State.ctlLeave]
  simp only [hg, he, decide_false, Bool.false_or, if_neg Bool.false_ne_true]
  split
  · rw [State.elw_modElw, State.elwSeq, State.elw_modElw]
    exact ⟨rfl, rfl⟩
  · rw [State.elw_elwAll, State.elw_modElw, State.elwSeq, State.elw_modElw]
    exact ⟨rfl, rfl⟩

theorem execElwctlCap_legal {mhz : Nat} (hg : (s.elw d).go = false) (hlo : 300 ≤ mhz) (hhi : mhz ≤ 700) (h25 : mhz % 25 = 0) :
    execElwctlCap d mhz s = .next ((s.modElw d (fun e => { e with cmd := 3, mhz := mhz, cap := mhz })).limitChanged d) := by
  have hlegal : ((s.elw d).go || decide (mhz < 300) || decide (700 < mhz) || mhz % 25 != 0) = false := by
    simp [hg, hlo, hhi, h25]
  rw [execElwctlCap, State.ctlCap, hlegal, if_neg Bool.false_ne_true]

theorem execElwevtPop_events : ∃ u, execElwevtPop d s = .next u ∧ (u.elw d).events = (s.elw d).events.drop 1 :=
  ⟨_, rfl, by rw [State.elw_modElw]⟩

end

/-- Settles O54: an event of a clock group acts on its die's view alone, and what it sends changes no view. -/
theorem elwisetEvents : Obligations.ElwisetEvents := by
  intro s d e ref me hh
  refine ⟨fun temps f ht => execThermalSample_below hh ht f, fun temps f ht => ?_, rfl, execHbSend_tick hh,
    fun hg hm => execSilenceTest_none hh hg (State.lostPeers_eq_nil hm), fun n hg hl => execSilenceTest_one hh hg hl, execEvictTimeout_not_ref,
    fun n hr hl => execEvictTimeout_one hh hr hl, fun n p hp ht => execRaiseDeadline_one hh hp ht,
    fun n t mhz hr ht hn hm => execRetryAfterCancel_one hh hr ht hn hm, fun t hj ht hn => ?_, fun m hm => ?_, fun m hm hj hc => ?_,
    execElwctlJoin_alone, execElwctlLeave_member, fun mhz hg => execElwctlCap_legal hg, execElwevtPop_events, fun hf => ?_⟩
  · obtain ⟨hhalt, hevt⟩ := State.thermalHalt_halts hh
    exact ⟨_, execThermalSample_above hh ht f, hhalt, hevt⟩
  · obtain ⟨htick, herr, hgo⟩ := State.elw_abortJoin (s := s) (d := d)
    exact ⟨_, execJoinDeadline_unanswered hh hj ht hn, htick, herr, hgo⟩
  · refine ⟨fun hr x hu hx hs => execHb_live hh hm hr hu hx hs, fun hn => ⟨execLower_old hh hm hn, execLeave_old hh hm hn, execCommit_old hh hm hn⟩,
      execCommit_cancelled hh hm, fun hn => ⟨execLower_newer hh hm hn, execCommit_newer hh hm hn, execLeave_newer hh hm hn, execEvict_newer hh hm hn⟩, fun hme => ?_,
      fun v hv => hv ▸ execRaise_mine hh hm, fun p hp ht => execAck_mine hh hm hp ht, execCancel_mine hh hm, execJoin_busy hh, execJoin_forwarded hh hm,
      execJoinack_contact hh hm, execJoinabort_removes hh hm, execElwBadOp_drops hh⟩
    obtain ⟨l, hl⟩ := (s.elwAlone d (s.elw d).gtime).elw_elwEvent d 2 m.subj
    rw [State.elwAlone, State.elw_modElw] at hl
    exact ⟨_, execEvict_me hh hm hme, congrArg Elw.egid hl, congrArg (fun v => v.members.map (fun t => t.1)) hl⟩
  · exact ⟨congrArg _ (State.elwTake_foreign hh hm hj hc _), congrArg _ (State.elwTake_foreign hh hm hj hc _), congrArg _ (State.elwTake_foreign hh hm hj hc _)⟩
  · exact ⟨_, execPowerCapReached_floor hf, by rw [State.hevt_hostEvent_blackBox, Die.withHevt, List.length_append, List.length_singleton]⟩

end Sys2Proof.Machine
end

/-! ## The host and the management bus -/

section
namespace Sys2Proof.Machine

/-! ### Every die in turn -/

/-- A fold whose every step acts on its own die changes each die of the list once, while `P`, on which the change rests, holds. -/
theorem State.die_foldl_modDie {P : State → Prop} {g : State → Nat → State} {f : Nat → Die → Die}
    (hg : ∀ t k, P t → g t k = t.modDie k (f k)) (hP : ∀ t k, P t → P (t.modDie k (f k))) {l : List Nat} (hl : l.Nodup) {s : State} (hs : P s) (d : Nat) :
    (l.foldl g s).die d = if d ∈ l then f d (s.die d) else s.die d := by
  induction l generalizing s with
  | nil => rfl
  | cons k l ih =>
    obtain ⟨hk, hl⟩ := List.nodup_cons.mp hl
    rw [List.foldl_cons, hg s k hs, ih hl (hP s k hs)]
    by_cases h : d = k
    · rw [h, if_neg hk, if_pos List.mem_cons_self, State.die_modDie_self]
    · simp only [State.die_modDie_ne _ _ h, List.mem_cons, h, false_or]

/-- All eight dies in turn. -/
theorem State.die_eachDie {P : State → Prop} {g : State → Nat → State} {f : Nat → Die → Die}
    (hg : ∀ t k, P t → g t k = t.modDie k (f k)) (hP : ∀ t k, P t → P (t.modDie k (f k))) {s : State} (hs : P s) {d : Nat} (hd : d < 8) :
    (dieNums.foldl g s).die d = f d (s.die d) :=
  (State.die_foldl_modDie hg hP List.nodup_range hs d).trans (if_pos (List.mem_range.mpr hd))

/-- One change of all eight dies. -/
theorem State.die_allDies (s : State) (f : Nat → Die → Die) {d : Nat} (hd : d < 8) :
    (dieNums.foldl (fun t k => t.modDie k (f k)) s).die d = f d (s.die d) :=
  State.die_eachDie (P := fun _ => True) (fun _ _ _ => rfl) (fun _ _ _ => trivial) trivial hd

theorem State.host_allDies (s : State) (f : Nat → Die → Die) : (dieNums.foldl (fun t k => t.modDie k (f k)) s).host = s.host :=
  List.foldlRecOn (motive := fun t : State => t.host = s.host) _ _ rfl fun _ h _ _ => h

/-! ### Start-up (R470, R471) -/

theorem State.die_beginStage (s : State) (n : Nat) {d : Nat} (hd : d < 8) : (s.beginStage n).die d = { s.die d with stage := n } :=
  s.die_allDies (fun _ x => { x with stage := n }) hd

theorem State.stage_beginStage (s : State) (n : Nat) {d : Nat} (hd : d < 8) : ((s.beginStage n).die d).stage = n := by
  rw [State.die_beginStage s n hd]

theorem State.host_beginStage (s : State) (n : Nat) : (s.beginStage n).host = s.host :=
  s.host_allDies (fun _ x => { x with stage := n })

/-- A start-up that stops shows FAILED and its step at every die. -/
theorem State.die_bootFail (s : State) (stage cause : Nat) {d : Nat} (hd : d < 8) :
    ((s.bootFail stage cause).die d).failed = true ∧ ((s.bootFail stage cause).die d).stage = stage := by
  have hdie : ∀ {α : Type} (g : Die → α), (∀ (x : Die) b, g { x with dbg := b } = g x) →
      g ((s.bootFail stage cause).die d) = g { s.die d with failed := true, stage := stage } := by
    intro α g hg
    refine Eq.trans ?_ (congrArg g (s.die_allDies (fun _ x => { x with failed := true, stage := stage }) hd))
    exact State.proj_die_modDie g _ 0 d (fun x => hg x _)
  exact ⟨hdie Die.failed fun _ _ => rfl, hdie Die.stage fun _ _ => rfl⟩

/-- A die's record as the configuration image sets it up (R470). -/
def Cfg.setUp (c : Cfg) (d : Nat) (x : Die) : Die :=
  { x with units := c.units, pkg := c.pkg, npkgm1 := c.npkgm1, p1en := c.p1en && d % 2 == 0, p0en := c.p0en && d % 2 == 0 }

theorem State.die_setDiesUp (s : State) {d : Nat} (hd : d < 8) : (dieNums.foldl State.setDieUp s).die d = s.cfg.setUp d (s.die d) :=
  State.die_eachDie (P := fun t => t.cfg = s.cfg) (f := s.cfg.setUp) (fun t k ht => by rw [← ht]; rfl) (fun _ _ ht => ht) rfl hd

/-- READY as a host record and a die's record give it (R464). -/
def Die.withReady (h : HostS) (x : Die) : Die := { x with ready := x.stage == 7 && !x.failed && h.booting.isNone && h.lanes == 16 }

theorem State.die_showReady (s : State) {d : Nat} (hd : d < 8) : s.showReady.die d = (s.die d).withReady s.host :=
  State.die_eachDie (P := fun t => t.host = s.host) (f := fun _ => Die.withReady s.host) (fun t k ht => by rw [← ht]; rfl) (fun _ _ ht => ht) rfl hd

theorem State.host_showReady (s : State) : s.showReady.host = s.host :=
  List.foldlRecOn (motive := fun t : State => t.host = s.host) _ _ rfl fun _ h _ _ => h

theorem Die.withReady_ready {h : HostS} {x : Die} : (x.withReady h).ready = true ↔ x.stage = 7 ∧ x.failed = false ∧ h.booting = none ∧ h.lanes = 16 := by
  simp [Die.withReady, and_assoc]

/-- Start-up that begins at a step. -/
theorem State.host_boot (s : State) (n : Nat) (f : StartFind) : (s.boot n f).host = { s.host with started := true, booting := some f } :=
  State.host_beginStage _ n

theorem State.die_boot (s : State) (n : Nat) (f : StartFind) {d : Nat} (hd : d < 8) : (s.boot n f).die d = { s.die d with stage := n } :=
  State.die_beginStage _ n hd

theorem State.host_warm (s : State) (f : StartFind) : (s.warm f).host = { s.host with pending := none, started := true, booting := some f } :=
  State.host_boot _ 2 f

/-- A warm reset leaves of a die what survives it, at step 2 (R473). -/
theorem State.die_warm (s : State) (f : StartFind) {d : Nat} (hd : d < 8) : (s.warm f).die d = { (s.die d).survive with stage := 2 } := by
  rw [State.warm, State.die_boot _ 2 f hd, State.die_mapDies (s := s) (f := Die.survive) rfl rfl]

section
variable {s : State} {f : StartFind} (hb : s.host.booting = some f)
include hb

/-! ### The steps of start-up, by the one that STAGE shows -/

theorem State.bootStep_1 (h : (s.die 0).stage = 1) : s.bootStep = s.beginStage 2 := by
  simp only [State.bootStep, hb, h]

theorem State.bootStep_2 (h : (s.die 0).stage = 2) : s.bootStep = if f.fwSigOk then s.beginStage 3 else s.bootFail 2 1 := by
  simp only [State.bootStep, hb, h]

theorem State.bootStep_3 (h : (s.die 0).stage = 3) :
    s.bootStep = if f.cfgSigOk then (dieNums.foldl State.setDieUp s).beginStage 4 else s.bootFail 3 1 := by
  simp only [State.bootStep, hb, h]

theorem State.bootStep_4 (h : (s.die 0).stage = 4) : s.bootStep = s.beginStage 5 := by
  simp only [State.bootStep, hb, h]

theorem State.bootStep_5 (h : (s.die 0).stage = 5) : s.bootStep = s.selfTest f := by
  simp only [State.bootStep, hb, h]

theorem State.bootStep_6 (h : (s.die 0).stage = 6) :
    s.bootStep = if f.trainOk then (dieNums.foldl State.setElwUp { s with regions := [] }).beginStage 7 else s.bootFail 6 4 := by
  simp only [State.bootStep, hb, h]

/-- The state whose READY the last step shows. -/
def State.identified (s : State) (f : StartFind) : State :=
  dieNums.foldl (fun s d => s.modDie d (fun x => { x with noid := !f.idOk }))
    { s with
      order := (dieNums.map (fun d => (remapCores (s.die d).remap).map (fun p => d * 96 + p))).flatten
      host := { s.host with booting := none } }

theorem State.bootStep_7 (h : (s.die 0).stage = 7) : s.bootStep = (s.identified f).showReady := by
  simp only [State.bootStep, hb, h]
  rfl

end

theorem State.host_identified (s : State) (f : StartFind) : (s.identified f).host = { s.host with booting := none } :=
  State.host_allDies _ fun _ x => { x with noid := !f.idOk }

theorem State.die_identified (s : State) (f : StartFind) {d : Nat} (hd : d < 8) : (s.identified f).die d = { s.die d with noid := !f.idOk } :=
  State.die_allDies _ (fun _ x => { x with noid := !f.idOk }) hd

/-- No core is remapped where the image names none and none has failed. -/
theorem workingRemap_nil_isSome : (workingRemap [] []).isNone = false := by decide

/-- A self-test that finds nothing wrong. -/
theorem State.selfTest_clean {s : State} {f : StartFind} (hu : f.fatalUnit = false) (hc : f.failedCores = []) (hg : f.failedGathers = []) (hr : s.cfg.remap = [])
    {d : Nat} (hd : d < 8) : ((s.selfTest f).die d).stage = 6 := by
  have htables : (s.bootTables f).any (fun t => t.isNone) = false := by
    refine List.any_eq_false.mpr fun t ht => ?_
    obtain ⟨k, -, rfl⟩ := List.mem_map.mp ht
    rw [Cfg.remapOf, hr, hc, List.filter_nil, List.map_nil, List.filter_nil, List.map_nil, workingRemap_nil_isSome]
    exact Bool.false_ne_true
  have hgather : dieNums.any (fun d => (List.range 4).all (fun c => f.failedGathers.contains (4 * d + c))) = false := by
    rw [hg]
    rfl
  rw [State.selfTest]
  simp only [hu, hgather, htables, Bool.false_or, if_neg Bool.false_ne_true]
  exact State.stage_beginStage _ 6 hd

/-! ### The HDM range (R465) -/

/-- Bytes of an access that lies within the range, by their addresses. -/
theorem State.hdmBytes_within {s : State} {h n : Nat} (hn : h + n ≤ s.cfg.hdmSize) :
    (s.hdmBytes h (List.replicate n 0)).map (fun t => t.1) = (List.range n).map (fun i => s.hdmPA (h + i)) := by
  have hall : (List.replicate n 0).zipIdx.filter (fun t => decide (h + t.2 < s.cfg.hdmSize)) = (List.replicate n 0).zipIdx := by
    refine List.filter_eq_self.mpr fun t ht => decide_eq_true ?_
    have hlt := List.snd_lt_of_mem_zipIdx ht
    rw [List.length_replicate] at hlt
    omega
  rw [State.hdmBytes, hall, List.map_map]
  refine List.ext_getElem (by simp) fun i _ _ => ?_
  simp

theorem State.hdmAnswer_ready {s : State} {h n : Nat} (hr : s.isReady = true) (hn : h + n ≤ s.cfg.hdmSize) :
    (s.hdmAnswer h n).1 = (List.range n).map (fun i => (s.readPA (s.hdmPA (h + i))).toNat) := by
  rw [State.hdmAnswer, if_pos hr, State.hdmBytes_within hn, List.map_map]
  rfl

/-- A read before READY carries poison. -/
theorem State.hdmAnswer_not_ready {s : State} (hr : s.isReady = false) (h n : Nat) : (s.hdmAnswer h n).2 = true := by
  rw [State.hdmAnswer, hr, if_neg Bool.false_ne_true]

/-! ### Requests and responses (R474 to R476) -/

/-- A request is in progress, with its response. -/
def State.answering (s : State) (r : List Nat) : State := { s with host := { s.host with pending := some r } }

section
variable {s : State}

theorem State.respond_listens (hl : s.listens = true) (r : List Nat) :
    s.respond r = { s with host := { s.host with responses := s.host.responses ++ [r] } } := by
  rw [State.respond, if_pos hl]

theorem State.request_long (cmd : Nat) {q : Req} (hq : 4088 < q.bytes.length) (f : State → State × Nat × List Nat) : s.request cmd q f = s := by
  have hlong : decide (4096 < 8 + q.bytes.length) = true := decide_eq_true (by omega)
  rw [State.request, hlong, Bool.or_true, if_pos rfl]

/-- A request that the module takes has `f`'s code and payload as its response. -/
theorem State.request_taken (hl : s.listens = true) (hp : s.host.pending = none) (cmd : Nat) {q : Req} (hq : q.bytes.length ≤ 4088)
    (f : State → State × Nat × List Nat) : s.request cmd q f = (f s).1.answering (worulmon q.inst cmd (f s).2.1 (f s).2.2) := by
  have hshort : decide (4096 < 8 + q.bytes.length) = false := decide_eq_false (by omega)
  rw [State.request, hl, hshort, hp]
  rfl

/-- One that arrives while another is in progress has completion code 4. -/
theorem State.request_busy (hl : s.listens = true) {r : List Nat} (hp : s.host.pending = some r) (cmd : Nat) {q : Req} (hq : q.bytes.length ≤ 4088)
    (f : State → State × Nat × List Nat) : s.request cmd q f = s.respond (worulmon q.inst cmd 4 []) := by
  have hshort : decide (4096 < 8 + q.bytes.length) = false := decide_eq_false (by omega)
  rw [State.request, hl, hshort, hp]
  rfl

/-- The response of the request in progress leaves. -/
theorem State.host_sendPending (hl : s.listens = true) {r : List Nat} (hp : s.host.pending = some r) :
    s.sendPending.host = { s.host with pending := none, responses := s.host.responses ++ [r] } := by
  rw [State.sendPending, hp]
  exact congrArg State.host (State.respond_listens (s := { s with host := { s.host with pending := none } }) hl r)

theorem State.notReady_of_booting (h : (s.die 0).failed = true ∨ (s.die 0).stage ≠ 7) : s.notReady = some (if (s.die 0).failed = true then 6 else 5) := by
  rw [State.notReady]
  split
  · rfl
  · rename_i hf
    rw [bne_iff_ne.mpr (h.resolve_left hf), Bool.true_or, if_pos rfl]

/-! ### What the commands answer (R475, R477) -/

theorem length_bytesOf (n x : Nat) : (bytesOf n x).length = n := by
  induction n generalizing x with
  | zero => rfl
  | succ n ih => rw [bytesOf, List.length_cons, ih]

/-- 26 bytes of sensors: two for each die and ten of the module. -/
theorem execReadSensors_taken (hl : s.listens = true) (hp : s.host.pending = none) {r : Sensors} (hr : r.req.bytes.length ≤ 4088) :
    ∃ t cc b, execReadSensors r s = .next t ∧ t.host.pending = some (worulmon r.req.inst 1 cc b) ∧
      (if r.req.bytes = [] then cc = 0 ∧ b.length = 26 else cc = 3 ∧ b = []) := by
  refine ⟨_, _, _, congrArg Host.Outcome.next (State.request_taken hl hp 1 hr _), rfl, ?_⟩
  by_cases h : r.req.bytes = []
  · rw [if_pos h, h]
    simp only [List.isEmpty_nil, Bool.not_true, if_neg Bool.false_ne_true, List.length_append, List.length_flatten, List.map_map, length_bytesOf, true_and]
    simp only [Function.comp_def, length_bytesOf]
    rfl
  · have hne : (!r.req.bytes.isEmpty) = true := by simpa using h
    rw [if_neg h, if_pos hne]
    exact ⟨rfl, rfl⟩

theorem execSetPowerCap_legal (hl : s.listens = true) (hp : s.host.pending = none) (hr : s.notReady = none) {p : Req} (h2 : p.bytes.length = 2)
    (hlo : 1000 ≤ ofBytes p.bytes) (hhi : ofBytes p.bytes ≤ 2600) (h25 : ofBytes p.bytes % 25 = 0) :
    execSetPowerCap p s = .next ((s.capDies (ofBytes p.bytes)).answering (worulmon p.inst 2 0 [])) := by
  have hlegal : (p.bytes.length != 2 || decide (ofBytes p.bytes < 1000) || decide (2600 < ofBytes p.bytes) || ofBytes p.bytes % 25 != 0) = false := by
    simp [h2, hlo, hhi, h25]
  rw [execSetPowerCap, State.request_taken hl hp 2 (by omega), hr]
  simp only [hlegal, if_neg Bool.false_ne_true]

theorem execSetPowerCap_low (hl : s.listens = true) (hp : s.host.pending = none) (hr : s.notReady = none) {p : Req} (hq : p.bytes.length ≤ 4088)
    (hlo : ofBytes p.bytes < 1000) : execSetPowerCap p s = .next (s.answering (worulmon p.inst 2 3 [])) := by
  rw [execSetPowerCap, State.request_taken hl hp 2 hq, hr]
  simp only [decide_eq_true hlo, Bool.or_true, Bool.true_or, if_true]

theorem execSetPowerCap_not_ready (hl : s.listens = true) (hp : s.host.pending = none) {cc : Nat} (hr : s.notReady = some cc) {p : Req}
    (hq : p.bytes.length ≤ 4088) : execSetPowerCap p s = .next (s.answering (worulmon p.inst 2 cc [])) := by
  rw [execSetPowerCap, State.request_taken hl hp 2 hq, hr]

theorem execAttest_taken (hl : s.listens = true) (hp : s.host.pending = none) {p : Req} (hm : p.mailbox = false) (hq : p.bytes.length ≤ 4088) :
    execAttest p s = .next (s.answering (worulmon p.inst 3 (s.attested p.bytes).1 (s.attested p.bytes).2)) := by
  rw [execAttest, hm, if_neg Bool.false_ne_true, State.request_taken hl hp 3 hq]

theorem State.attested_not_ready {cc : Nat} (hr : s.notReady = some cc) (nonce : List Nat) : s.attested nonce = (cc, []) := by
  rw [State.attested, hr]

theorem State.length_reportHead {nonce : List Nat} (hn : nonce.length = 32) : (s.reportHead nonce).length = 144 := by
  simp only [State.reportHead, List.length_append, List.length_map, List.length_range, length_bytesOf, hn]

/-- A report begins with the nonce, and has 144 bytes and its signature (R477). -/
theorem State.attested_ready (hr : s.notReady = none) {nonce : List Nat} (hn : nonce.length = 32) (hid : (s.die 0).noid = false) :
    ∃ b, s.attested nonce = (0, b) ∧ b.take 32 = nonce ∧ b.length = 144 + 2420 := by
  have hlen : (nonce.length != 32) = false := by rw [hn]; rfl
  rw [State.attested, hr, hid, hlen]
  refine ⟨_, rfl, ?_, ?_⟩
  · simp only [State.reportHead, List.append_assoc]
    exact List.take_left' hn
  · rw [List.length_append, State.length_reportHead hn, List.length_map, List.length_finRange]

theorem execReadIdentity_bad_length (hl : s.listens = true) (hp : s.host.pending = none) {p : Req} (hq : p.bytes.length ≤ 4088) (h6 : p.bytes.length ≠ 6) :
    execReadIdentity p s = .next (s.answering (worulmon p.inst 4 3 [])) := by
  rw [execReadIdentity, State.request_taken hl hp 4 hq]
  simp only [bne_iff_ne.mpr h6, Bool.true_or, if_true]

/-- The answer to Read identity (R475). -/
def State.identity (s : State) (off len : Nat) : List Nat :=
  bytesOf 8 s.host.ident ++ bytesOf 8 s.host.serial ++ bytesOf 4 Config.certificate.length ++ ((Config.certificate.drop off).take len).map (fun b => b % 256)

theorem execReadIdentity_legal (hl : s.listens = true) (hp : s.host.pending = none) {p : Req} (h6 : p.bytes.length = 6)
    (hlen : ofBytes (p.bytes.drop 4) ≤ 1024) (hoff : ofBytes (p.bytes.take 4) ≤ Config.certificate.length) :
    execReadIdentity p s = .next (s.answering (worulmon p.inst 4 0 (s.identity (ofBytes (p.bytes.take 4)) (ofBytes (p.bytes.drop 4))))) := by
  have hlegal : (p.bytes.length != 6 || decide (1024 < ofBytes (p.bytes.drop 4)) || decide (Config.certificate.length < ofBytes (p.bytes.take 4))) = false := by
    simp [h6, hlen, hoff]
  rw [execReadIdentity, State.request_taken hl hp 4 (by omega)]
  simp only [hlegal, if_neg Bool.false_ne_true]
  rfl

theorem State.identity_parts (off len : Nat) : (s.identity off len).take 8 = bytesOf 8 s.host.ident ∧
    ((s.identity off len).drop 8).take 8 = bytesOf 8 s.host.serial ∧
    (s.identity off len).length = 20 + Nat.min len (Config.certificate.length - off) := by
  refine ⟨?_, ?_, ?_⟩
  · rw [State.identity, List.append_assoc, List.append_assoc]
    exact List.take_left' (length_bytesOf 8 _)
  · rw [State.identity, List.append_assoc, List.append_assoc, List.drop_left' (length_bytesOf 8 _)]
    exact List.take_left' (length_bytesOf 8 _)
  · rw [State.identity]
    simp only [List.length_append, length_bytesOf, List.length_map, List.length_take, List.length_drop]

/-- A warm reset sends its response first (R475). -/
theorem execWorulmonWarmReset_sends (hl : s.listens = true) (hp : s.host.pending = none) {p : Req} (hb : p.bytes = [0xA5]) (f : StartFind) :
    execWorulmonWarmReset p f s = .next ((s.answering (worulmon p.inst 5 0 [])).sendPending.warm f) := by
  have hq : p.bytes.length ≤ 4088 := by rw [hb]; decide
  rw [execWorulmonWarmReset, State.request_taken hl hp 5 hq, hl, hp, if_pos hb, if_pos (by rw [decide_eq_true hb]; rfl)]

theorem execUnknownCommand_bad (hl : s.listens = true) (hp : s.host.pending = none) {m : List Nat} (h7 : bit (m.getD 5 0) 7 = true) (hb : badRequest m = true)
    (hm : m.length ≤ 4096) : execUnknownCommand m s = .next (s.answering (worulmon (m.getD 5 0) (m.getD 6 0) 1 [])) := by
  have hq : (m.drop 8).length ≤ 4088 := by rw [List.length_drop]; omega
  rw [execUnknownCommand, h7, hb, if_pos (by rfl), State.request_taken hl hp _ (q := { bytes := m.drop 8, inst := m.getD 5 0 }) hq]

end

/-! ### What the host does -/

theorem State.bootStep_stages {s : State} {f : StartFind} {d : Nat} (hb : s.host.booting = some f) (hd : d < 8) :
    ((s.die 0).stage = 1 → (s.bootStep.die d).stage = 2) ∧
    ((s.die 0).stage = 2 → if f.fwSigOk = true then (s.bootStep.die d).stage = 3 else (s.bootStep.die d).failed = true ∧ (s.bootStep.die d).stage = 2) ∧
    ((s.die 0).stage = 3 → if f.cfgSigOk = true
      then (s.bootStep.die d).stage = 4 ∧ (s.bootStep.die d).units = s.cfg.units ∧ (s.bootStep.die d).pkg = s.cfg.pkg
      else (s.bootStep.die d).failed = true ∧ (s.bootStep.die d).stage = 3) ∧
    ((s.die 0).stage = 4 → (s.bootStep.die d).stage = 5) ∧
    ((s.die 0).stage = 5 → f.fatalUnit = true → (s.bootStep.die d).failed = true ∧ (s.bootStep.die d).stage = 5) ∧
    ((s.die 0).stage = 5 → f.fatalUnit = false → f.failedCores = [] → f.failedGathers = [] → s.cfg.remap = [] → (s.bootStep.die d).stage = 6) ∧
    ((s.die 0).stage = 6 → if f.trainOk = true then (s.bootStep.die d).stage = 7 else (s.bootStep.die d).failed = true ∧ (s.bootStep.die d).stage = 6) ∧
    ((s.die 0).stage = 7 → (s.die d).stage = 7 → (s.die d).failed = false → s.bootStep.host.booting = none ∧ (s.bootStep.die d).noid = !f.idOk ∧
      ((s.bootStep.die d).ready = true ↔ s.host.lanes = 16)) := by
  refine ⟨fun h => ?_, fun h => ?_, fun h => ?_, fun h => ?_, fun h hu => ?_, fun h hu hc hg hr => ?_, fun h => ?_, fun h h7 hf => ?_⟩
  · rw [State.bootStep_1 hb h]
    exact State.stage_beginStage s 2 hd
  · rw [State.bootStep_2 hb h]
    split
    · exact State.stage_beginStage s 3 hd
    · exact State.die_bootFail s 2 1 hd
  · rw [State.bootStep_3 hb h]
    split
    · rw [State.die_beginStage _ 4 hd, State.die_setDiesUp s hd]
      exact ⟨rfl, rfl, rfl⟩
    · exact State.die_bootFail s 3 1 hd
  · rw [State.bootStep_4 hb h]
    exact State.stage_beginStage s 5 hd
  · rw [State.bootStep_5 hb h, State.selfTest, hu, Bool.true_or, if_pos rfl]
    exact State.die_bootFail s 5 3 hd
  · rw [State.bootStep_5 hb h]
    exact State.selfTest_clean hu hc hg hr hd
  · rw [State.bootStep_6 hb h]
    split
    · exact State.stage_beginStage _ 7 hd
    · exact State.die_bootFail s 6 4 hd
  · rw [State.bootStep_7 hb h, State.host_showReady, State.host_identified, State.die_showReady _ hd, Die.withReady_ready, State.host_identified, State.die_identified s f hd]
    exact ⟨rfl, rfl, fun hr => hr.2.2.2, fun hl => ⟨h7, hf, rfl, hl⟩⟩

/-- A mailbox attestation raises vector 520 (R477). -/
theorem execAttest_mailbox {s : State} {p : Req} (hm : p.mailbox = true) (hr : s.notReady = none) (hn : p.bytes.length = 32) (hid : (s.die 0).noid = false) :
    ∃ t b, execAttest p s = .next t ∧ t.host.mailbox = s.host.mailbox ++ [0 :: b] ∧ b.take 32 = p.bytes ∧ b.length = 144 + 2420 ∧ 520 ∈ t.host.msix := by
  obtain ⟨b, hb, htake, hlen⟩ := State.attested_ready hr hn hid
  rw [execAttest, hm, if_pos rfl]
  refine ⟨_, b, rfl, by rw [hb], htake, hlen, NatSet.mem_iff.mp ?_⟩
  rw [NatSet.mem_insert, beq_self_eq_true, Bool.true_or]

/-- Settles O58: start-up by its steps, a command by the response that its request leaves. -/
theorem hostEvents : Obligations.HostEvents := by
  refine ⟨fun s f => ⟨fun hs => ?_, fun hs => ?_⟩, fun s f d hb hd => State.bootStep_stages hb hd, fun s => ⟨_, rfl, rfl, rfl, rfl, rfl, rfl⟩,
    fun s n => ⟨_, rfl, congrArg HostS.lanes (State.host_showReady _), fun d hd => ?_⟩, fun s h b => ⟨fun hr => ?_, fun hr => ?_⟩,
    fun s h n => ⟨_, s.hdmAnswer h n, rfl, rfl, State.hdmAnswer_ready, fun hr => State.hdmAnswer_not_ready hr h n⟩, fun s => ⟨_, rfl, ?_⟩,
    fun s hl => ⟨fun hp => ⟨fun r hr => execReadSensors_taken hl hp hr, fun p hr h2 hlo hhi h25 => execSetPowerCap_legal hl hp hr h2 hlo hhi h25,
        fun p hr hq hlo => ⟨_, execSetPowerCap_low hl hp hr hq hlo, rfl, rfl⟩, fun p hq hnr => ?_, fun p hm hr hn hid => ?_,
        fun p hq h6 => ⟨_, execReadIdentity_bad_length hl hp hq h6, rfl⟩,
        fun p h6 hlen hoff => ⟨_, _, execReadIdentity_legal hl hp h6 hlen hoff, rfl, State.identity_parts _ _⟩,
        fun p f hb => ⟨_, execWorulmonWarmReset_sends hl hp hb f, ?_⟩, fun m h7 hb hm => ⟨_, execUnknownCommand_bad hl hp h7 hb hm, rfl⟩⟩,
      fun r hp => ⟨fun p hq => congrArg Host.Outcome.next (State.request_busy hl hp 4 hq _), ?_, ?_⟩,
      fun p hq => congrArg Host.Outcome.next (State.request_long 4 hq _), fun n => ?_, ?_, ?_, ?_, ?_⟩,
    fun s p hm hr hn hid => execAttest_mailbox hm hr hn hid, fun s k => rfl⟩
  · refine ⟨s.boot 1 f, ?_, ?_, ?_, fun d hd => ?_⟩
    · exact congrArg Host.Outcome.next (if_neg (by rw [hs]; exact Bool.false_ne_true))
    · rw [State.host_boot]
    · rw [State.host_boot]
    · rw [State.die_boot s 1 f hd]
  · refine ⟨congrArg Host.Outcome.next (if_pos hs), ?_, ?_, fun d hd => ?_⟩
    · rw [State.host_warm]
    · rw [State.host_warm]
    · rw [State.die_warm s f hd]
      exact ⟨rfl, rfl⟩
  · rw [State.die_showReady _ hd, Die.withReady_ready]
    rfl
  · exact congrArg Host.Outcome.next (if_neg (by rw [hr]; exact Bool.false_ne_true))
  · exact congrArg Host.Outcome.next (if_pos hr)
  · simp only [Bool.or_eq_true]
  · have hcc := State.notReady_of_booting hnr
    refine ⟨⟨_, execSetPowerCap_not_ready hl hp hcc hq, rfl, rfl⟩, fun hm => ⟨_, execAttest_taken hl hp hm hq, ?_⟩⟩
    rw [State.attested_not_ready hcc]
    rfl
  · obtain ⟨b, hb, htake, hlen⟩ := State.attested_ready hr hn hid
    refine ⟨_, b, execAttest_taken hl hp hm (by omega), ?_, htake, hlen⟩
    rw [hb]
    rfl
  · rw [State.host_sendPending (s := s.answering _) hl rfl]
    rfl
  · rw [State.host_sendPending hl hp]
  · rw [State.host_sendPending hl hp]
  · exact ⟨_, congrArg Host.Outcome.next ((if_pos hl).trans (State.respond_listens (s := { s with host := { s.host with eid := n % 256 } }) hl _)), rfl, rfl⟩
  all_goals exact ⟨_, congrArg Host.Outcome.next (State.respond_listens hl _), rfl⟩

end Sys2Proof.Machine
end
